-- ==== Sys2Proof/Word.lean ====
section
/-! DEFINITION. The word types of the RT-1440 model: bytes, register words, FP32 codes, and the numbered units
of the part as bounded numbers (R13, R53, R354). -/

namespace Sys2Proof

/-- One byte of memory. -/
abbrev Byte := BitVec 8
/-- A 64-bit register of BAR0 (R401). -/
abbrev Word := BitVec 64
/-- The code of an FP32 value, or of an INT32 accumulator element (Table 05-1, R100). -/
abbrev F32 := BitVec 32
/-- Tile t, 0 to 95 (R13). -/
abbrev TileId := Fin 96
/-- Context number, 0 to 15 (R355). -/
abbrev CtxId := Fin 16
/-- Function index FN = 8 × port + v (R354). -/
abbrev FnId := Fin 16
/-- Link port P0 to P7 (R13). -/
abbrev PortId := Fin 8
/-- Logical ID of an active module, 0 to 7 (R323). -/
abbrev Lid := Fin 8
/-- Host port: 0 is A, 1 is B (R353). -/
abbrev HostPort := Fin 2
/-- Hub quadrant q, behind the bridge of CDq (R298). -/
abbrev Quad := Fin 4

/-- A sparse table: pairs of key and value with keys strictly rising and no entry equal to the table's
default value. The operations stand in Machine/Ops.lean. -/
abbrev SMap (α : Type) := List (Nat × α)

end Sys2Proof
end

