-- ==== Sys2Proof/Syntax.lean ====
section
/-! DEFINITION. The commands of the RT-1440: one constructor of Instr for each row of spec/opcode_table.json,
with the operands the row's rule needs. The table gives no bits; file 95 says that each row is one step of the
part, whole and indivisible. -/

namespace Sys2Proof

/-- The three instruction streams of a tile (R50). -/
inductive Stream where
  | F | B | U
deriving DecidableEq, Repr

/-- An instruction word by its fields (R71, Table 03-3); Insn.ofWord reads them out of the 128 bits. -/
structure Insn where
  /-- [127:124] CLASS -/
  cls : BitVec 4
  /-- [123:116] OP -/
  op : BitVec 8
  /-- [115] ORD (R61) -/
  ord : Bool
  /-- [114] REC: write a completion record (R80) -/
  rcd : Bool
  /-- [113] LAST (R26) -/
  last : Bool
  /-- [112], reserved: a non-zero value is illegal (R85) -/
  rsv : Bool
  /-- [111:96] BUDGET (R29) -/
  budget : BitVec 16
  /-- [95:64] OPA -/
  opa : BitVec 32
  /-- [63:32] OPB -/
  opb : BitVec 32
  /-- [31:0] OPC -/
  opc : BitVec 32
deriving DecidableEq, Repr

/-- The fields of a 128-bit instruction word. -/
def Insn.ofWord (w : BitVec 128) : Insn :=
  { cls := w.extractLsb' 124 4, op := w.extractLsb' 116 8, ord := w.getLsbD 115, rcd := w.getLsbD 114, last := w.getLsbD 113,
    rsv := w.getLsbD 112, budget := w.extractLsb' 96 16, opa := w.extractLsb' 64 32, opb := w.extractLsb' 32 32, opc := w.extractLsb' 0 32 }

/-- The 128-bit word of an instruction's fields. -/
def Insn.toWord (w : Insn) : BitVec 128 :=
  w.cls ++ w.op ++ BitVec.ofBool w.ord ++ BitVec.ofBool w.rcd ++ BitVec.ofBool w.last ++ BitVec.ofBool w.rsv ++ w.budget ++ w.opa ++ w.opb ++ w.opc

/-- What a marker on the sideband says (R324, Table 13-2). -/
structure Marker where
  srcLid : Nat
  master : Bool
  holdover : Bool
  fail : Bool
  nextPeriod : Nat
  /-- GLB_TICK [47:0] -/
  tick : Nat
  openReady : BitVec 16
  commitReady : BitVec 16
  abortReq : BitVec 16
  seen : BitVec 9
  /-- LNK_BOARD.EPOCH [15:0] -/
  epoch : BitVec 16
deriving DecidableEq, Repr

/-- A verdict of the beat master (R326). -/
structure Verdict where
  tick : Nat
  openM : BitVec 16
  commitM : BitVec 16
  abortM : BitVec 16
deriving DecidableEq, Repr

/-- Flit types (Table 13-1). -/
inductive FlitType where
  | data | ledger | mirror | scalar | control | idle | takeover
deriving DecidableEq, Repr

/-- What the transfer or message of a flit is, as far as the layouts of the spec have no place for it (log entry 20). -/
inductive Carried where
  | nothing
  /-- a LINK.SEND: its descriptor, and the step it was issued in -/
  | send (desc step : Nat)
  /-- a mirror sum: its slice and step -/
  | sum (slice step : Nat)
  /-- a SCALAR message: the step of its reduction -/
  | scalar (step : Nat)
  /-- a forwarded update descriptor: its step -/
  | update (step : Nat)
  | verdictRequest
  | verdictAnswer
  | stretch
  | remap
  | setFail
  /-- a TAKEOVER transfer: the context address at which its bytes land -/
  | record (ca : Nat)
deriving DecidableEq, Repr

/-- A Dyzan flit (R317): its 256 bytes, and what it is part of. -/
structure Flit where
  bytes : List Byte
  note : Carried
deriving DecidableEq, Repr

/-- Who posts a mailbox command: a function, or the management connector as index 16 (R379). -/
inductive Issuer where
  | fn (f : FnId)
  | mgmt
deriving DecidableEq, Repr

/-- The request header of Table 16-2, less CMD, which the row gives. -/
structure ReqHdr where
  issuer : Issuer
  seq : BitVec 16
  len : Nat
  /-- [71:64] CTX; 0xFF names none -/
  ctx : Nat
  force : Bool
  last : Bool
  keep : Bool
  del : Bool
  /-- a non-zero reserved bit, DETACHED or STATUS in the request, or a reserved payload byte set (R381) -/
  rsv : Bool
deriving DecidableEq, Repr

/-- Payload of CTX_OPEN (Table 16-4). -/
structure OpenReq where
  tsets : BitVec 24
  oneSlot : Bool
  standby : Bool
  seed : Word
  coefA : Nat
deriving DecidableEq, Repr

/-- Payload of CTX_QUOTA_SET (Table 16-4), in granules. -/
structure QuotaReq where
  bank : Nat
  bankCask : Nat
  ledger : Nat
  bulk : Nat
  bulkCask : Nat
  cellar : Nat
  pool0 : BitVec 32
  pool1 : BitVec 32
  pool2 : BitVec 32
  pool3 : BitVec 32
  deferRecs : Nat
  slots : Nat
deriving DecidableEq, Repr

/-- Payload of MEM_MAP (Table 16-4). Tier codes are those of Table 10-3. -/
structure MapReq where
  ca : Nat
  gcnt : Nat
  home : Nat
  top : Nat
  bottom : Nat
  use : Nat
  noHeat : Bool
  host : Bool
  sourced : Bool
  exporting : Bool
  stkMask : BitVec 8
  chMask : BitVec 18
  bus : List Nat
deriving DecidableEq, Repr

/-- Payload of CFG_STAGE: a chunk of a bundle (R398). The parsed content of the bundle comes with the last chunk,
as the part's ROM reads it from the bytes. -/
structure StageReq where
  offset : Nat
  total : Nat
  data : List Byte
deriving DecidableEq, Repr

/-- The management messages that R457 serves, and any other. -/
inductive MgmtReq where
  | hello
  | attestQuote (nonce : List Byte)
  | identityGet (offset : Nat)
  | eventRead (from_ : Nat) (max : Nat)
  | telemetryRead
  | resetDevice
  | cfgStage (r : StageReq)
  | cfgCommit
  | cfgRevert
  | other (cmd : Nat)
deriving DecidableEq, Repr

/-- The units that wake and sleep (Table 18-7, Table 18-8, Table 20-3). -/
inductive UnitId where
  | tile (t : TileId)
  | tset (k : Fin 24)
  | stack (n : Fin 8)
  | channel (c : Fin 18)
  | kiln (n : Fin 8)
  | cond (n : Fin 18)
  | port (p : PortId)
  | context (c : CtxId)
  | function (f : FnId)
deriving DecidableEq, Repr

/-- Where a word guarded by S4 lies (Table 10-5a): SCRATCH by window offset, BANK and BULK by device address, or a
hub flit. -/
inductive RasPlace where
  | scratch (off : Nat)
  | bank (da : Nat)
  | bulk (da : Nat)
  /-- a word of a flit on the hub network: byte of the data that it carries -/
  | net (off : Nat)
  /-- the header of a flit on the hub network: byte of the data that its request names -/
  | netHeader (off : Nat)
deriving DecidableEq, Repr

/-- One word found bad: how many of its 36 symbols are bad (R262). -/
structure RasFinding where
  place : RasPlace
  badSymbols : Nat
deriving DecidableEq, Repr

/-- A PHY fault that spans a whole pseudo-channel or bank (R266, R267). -/
inductive PhyUnit where
  | pseudoChannel (stack : Fin 8) (pc : Fin 64)
  | bank (ch : Fin 18) (bank : Fin 16)
deriving DecidableEq, Repr

/-- What a NAND unit read came to (R280, R281): the step 0 to 8 at which it decoded; rebuilt at step 9, with the steps at which the row's other
units decoded, in channel order; or lost, with its codewords that were not recovered, bit w for codeword w of its 32. -/
inductive ReadOutcome where
  | delivered (step : Fin 9)
  | rebuilt (others : List (Fin 9))
  | lost (codewords : BitVec 32)
deriving DecidableEq, Repr

/-- What a port's training found (R318, R320, R322, R485). -/
structure Training where
  lanesOk : BitVec 8
  reordered : Bool
  peerSlot : Nat
  peerLid : Nat
  lat : Nat
  /-- the partner's GLB_CAP (R3) -/
  peerCap : Word
deriving DecidableEq, Repr

/-- A bundle's VERSION and the parsed sections the device keeps (R397, Table 16-6). -/
structure Bundle where
  version : Nat
  gen : Nat
  variantMask : BitVec 8
  /-- whether the required sections are there and no section is unknown (R398) -/
  wellFormed : Bool
  adoptAB : Bool
  adoptBA : Bool
  timeout : BitVec 16
  modKeep : Bool
  probS : Nat
  probSteps : Nat
  auto : Bool
  /-- for SLOT_ID 0 to 8: role (0 absent, 1 active, 2 spare) and logical ID -/
  linkMap : List (Nat × Nat)
  /-- pairs of BAR0 offset and value (REG_DEFAULTS) -/
  regDefaults : List (Nat × Word)
  /-- QUOTA: for a function index, the most tile sets and the highest BANK, BULK and CELLAR quota -/
  quota : List (Nat × Nat × Nat × Nat × Nat)
deriving DecidableEq, Repr

/-- What the boot ROM finds at power-up (R445, R446, R449). -/
structure BootInputs where
  /-- SHA3-512 check of the PUF root (R445) -/
  pufOk : Bool
  /-- the anti-rollback record with the higher write sequence number verifies (R448) -/
  ctrOk : Bool
  /-- the other one verifies; with neither the counter is lost (R449) -/
  ctrOldOk : Bool
  /-- the device certificate holds the identity key (R450) -/
  certOk : Bool
  /-- the signature of the active bundle slot verifies (R446) -/
  activeSig : Bool
  /-- the signature of the other bundle slot verifies -/
  otherSig : Bool
  /-- SLOT_ID pins (R487) -/
  slotId : Nat
deriving DecidableEq, Repr

/-- What a request at a hub port belongs to (R311): a tracked transfer, a move of a granule, or other traffic. -/
inductive ReqTx where
  | xfer (id : Nat)
  | move (lgn : Nat)
  | other
deriving DecidableEq, Repr

/-- A request asserted at a hub port (R307): the requester's index of Table 12-5, and what it belongs to. -/
structure PortReq where
  who : Nat
  tx : ReqTx
deriving DecidableEq, Repr

/-- A cause of an abort on another module (R88): its logical ID, the clk in which it was logged, its code, whether it belongs to no tile
or to a stream (0, or 1 + 4 t + stream), and whether the maltster retries it. What one module tells another of its causes, the spec does
not say (log entry 26). -/
structure PeerCause where
  lid : Nat
  clk : Nat
  code : BitVec 16
  place : Nat
  retry : Bool
deriving DecidableEq, Repr

/-- An abort tick (R35, R88): the context, and what the other modules tell of their causes. -/
structure AbortOf where
  ctx : CtxId
  peers : List PeerCause
deriving DecidableEq, Repr

/-- A draw (R307): whether the grant held ends in this clk, and, at a hub port, the requests asserted. -/
structure DrawOf where
  ends : Bool
  present : List PortReq
deriving DecidableEq, Repr

/-- How a transfer's requests to a host region completed, and the bytes they gave (R364). -/
structure HostCpl where
  ok : Bool
  data : List Byte
deriving DecidableEq, Repr

/-- The bits of a posted write that its effect depends on: Relaxed Ordering (R366) and EP (Table 15-5). -/
structure WriteBits where
  ro : Bool
  ep : Bool
deriving DecidableEq, Repr

/-- A window read: its bytes, and the bad words that it meets (R263, R264). -/
structure ReadAsk where
  len : Nat
  found : List RasFinding
deriving DecidableEq, Repr

/-- A word line on a channel. -/
structure LineFail where
  ch : Fin 32
  wordLine : Nat
deriving DecidableEq, Repr

/-- A SCALAR message's step and values (R333). -/
structure ScalarVals where
  step : Nat
  vals : List F32
deriving DecidableEq, Repr

/-- The commands: one constructor for each row of the table, in the table's order. -/
inductive Instr where
  | nop (t : TileId) (st : Stream) (w : Insn)
  | jump (t : TileId) (st : Stream) (w : Insn)
  | call (t : TileId) (st : Stream) (w : Insn)
  | ret (t : TileId) (st : Stream) (w : Insn)
  | loop (t : TileId) (st : Stream) (w : Insn)
  | prefetch (t : TileId) (st : Stream) (w : Insn)
  | waitBeat (t : TileId) (st : Stream) (w : Insn)
  | commitPoint (t : TileId) (st : Stream) (w : Insn)
  | semSet (t : TileId) (st : Stream) (w : Insn)
  | semSignal (t : TileId) (st : Stream) (w : Insn)
  | semWait (t : TileId) (st : Stream) (w : Insn)
  | semSignalRemote (t : TileId) (st : Stream) (w : Insn)
  | dmaRead (t : TileId) (st : Stream) (w : Insn)
  | dmaWrite (t : TileId) (st : Stream) (w : Insn)
  | dmaCopy (t : TileId) (st : Stream) (w : Insn)
  | dmaFill (t : TileId) (st : Stream) (w : Insn)
  | dmaWait (t : TileId) (st : Stream) (w : Insn)
  | mm (t : TileId) (st : Stream) (w : Insn)
  | mmOvw (t : TileId) (st : Stream) (w : Insn)
  | mmDrain (t : TileId) (st : Stream) (w : Insn)
  | accZero (t : TileId) (st : Stream) (w : Insn)
  | chainRun (t : TileId) (st : Stream) (w : Insn)
  | chainRunAcc (t : TileId) (st : Stream) (w : Insn)
  | linkSend (t : TileId) (st : Stream) (w : Insn)
  | recvPost (t : TileId) (st : Stream) (w : Insn)
  | linkWait (t : TileId) (st : Stream) (w : Insn)
  | scalarReduce (t : TileId) (st : Stream) (w : Insn)
  | kilnUpdate (t : TileId) (st : Stream) (w : Insn)
  | kilnWait (t : TileId) (st : Stream) (w : Insn)
  | caskPut (t : TileId) (st : Stream) (w : Insn)
  | caskGet (t : TileId) (st : Stream) (w : Insn)
  | caskRelease (t : TileId) (st : Stream) (w : Insn)
  | insnComplete (t : TileId) (st : Stream) (seq : Nat)
  | icacheFill (t : TileId) (st : Stream)
  | remoteSignalApply (t : TileId)
  | tick
  | markerReceive (p : PortId) (image : List Byte)
  | verdictForm
  | verdictReceive (p : PortId) (image : List Byte)
  | verdictReply (v : Verdict)
  | verdictTimeout
  | stepOpen (c : CtxId)
  | stepCommit (c : CtxId)
  | abortTick (x : AbortOf)
  | weightRebuild (c : CtxId)
  | holdover
  | holdoverClear
  | beatInPulse (clk : Nat)
  | beatInErr
  | arbDraw (a : Nat) (d : DrawOf)
  | arbPreempt (p : Nat) (present : List PortReq)
  | caskPutRetry (t : TileId) (st : Stream)
  | caskFull (t : TileId) (st : Stream)
  | transferComplete (id : Nat) (host : HostCpl) (found : List RasFinding)
  | ledgerContribution (c : CtxId) (slice : Nat) (lid : Nat)
  | kilnStart (id : Nat)
  | conditioning (id : Nat)
  | deferredRun (id : Nat)
  | deferRecordTake (c : CtxId)
  | updateRerun (id : Nat)
  | ledgerTimeout (c : CtxId)
  | shadowUpdate (c : CtxId) (step : Nat) (desc : Nat)
  | mirrorSum (c : CtxId) (slice : Nat) (step : Nat) (sum : List F32) (poison : Bool)
  | freshFillDone (lgn : Nat)
  | moveStart
  | moveComplete (lgn : Nat)
  | heatDecay
  | tagGrant (t : TileId) (st : Stream) (seq : Nat)
  | regionRelease (c : CtxId) (ca : Nat)
  | patrolScrub (tier : Fin 3) (found : List RasFinding)
  | windowWrite (f : FnId) (off : Nat) (data : List Byte) (rid : Nat) (b : WriteBits) (found : List RasFinding)
  | windowRead (f : FnId) (off : Nat) (r : ReadAsk)
  | flagVisible (f : FnId) (n : Fin 16)
  | hostCompletionTimeout (id : Nat)
  | cellarRead (frame : Nat) (unit : Nat) (out : ReadOutcome)
  | cellarWriteDone (frame : Nat)
  | cellarRefresh (frame : Nat)
  | cellarPatrol (reads : List (Nat × Nat × ReadOutcome))
  | celDie (ch : Fin 32) (die : Fin 5)
  | cellarRebuildDone
  | compaction
  | wearLevel
  | programFail (sb : Nat) (l : LineFail)
  | eraseFail (sb : Nat) (ch : Fin 32)
  | bridgeRetrain (q : Quad)
  | bridgeTrainDone (q : Quad) (ok : Bool)
  | flitReceive (p : PortId) (f : Flit)
  | linkNak (p : PortId) (lseq : Nat)
  | scalarReceive (p : PortId) (c : CtxId) (tag : Nat) (m : ScalarVals)
  | laneDegraded (p : PortId) (lanesOk : BitVec 8)
  | portDown (p : PortId)
  | peerFailed (l : Lid)
  | remapApply
  | takeoverStreamDone (sel : Bool)
  | takeoverDone
  | spareLost
  | stretchReport (l : Lid) (k : Nat)
  | hostPortTrained (x : HostPort) (rate : Nat) (width : Nat) (flit : Bool)
  | portLost (x : HostPort)
  | perst (x : HostPort)
  | functionLevelReset (f : FnId)
  | modRst (us : Nat)
  | hello (h : ReqHdr)
  | ctxOpen (h : ReqHdr) (r : OpenReq)
  | ctxClose (h : ReqHdr)
  | ctxQuotaSet (h : ReqHdr) (r : QuotaReq)
  | ctxAdopt (h : ReqHdr)
  | memMap (h : ReqHdr) (r : MapReq)
  | memUnmap (h : ReqHdr) (ca : Nat)
  | memPin (h : ReqHdr) (ca : Nat) (gcnt : Nat) (tier : Nat)
  | memUnpin (h : ReqHdr) (ca : Nat) (gcnt : Nat) (tier : Nat)
  | memHint (h : ReqHdr) (ca : Nat) (gcnt : Nat) (tier : Nat)
  | progLoad (h : ReqHdr) (ca : Nat) (len : Nat)
  | progUnload (h : ReqHdr)
  | stepArm (h : ReqHdr) (stepNo : Word) (count : Word)
  | stepRun (h : ReqHdr)
  | stepAbort (h : ReqHdr)
  | stepStatus (h : ReqHdr)
  | tableBuild (h : ReqHdr) (tbl : Nat) (cfmt : Nat) (clr : Bool) (ca : Nat) (len : Nat)
  | tableLoad (h : ReqHdr) (tbl : Nat) (image : List Byte)
  | ckptSeal (h : ReqHdr) (ckid : Word) (dest : Nat) (dstCa : Nat)
  | ckptDelete (h : ReqHdr) (ckid : Word)
  | ckptRestore (h : ReqHdr) (ckid : Word) (src : Nat) (flid : Nat) (srcCa : Nat) (image : List Byte)
  | stateExport (h : ReqHdr) (dstCa : Nat)
  | boardJoin (h : ReqHdr) (slotId : Nat) (masterCap : Word) (boardId : Word) (epoch : BitVec 32) (peerAuth : Bool)
  | boardRemap (h : ReqHdr) (tick : Nat) (slots : List Nat) (spare : Nat)
  | spareTakeover (h : ReqHdr) (flid : Nat)
  | mirrorSet (h : ReqHdr) (on : Bool) (mcmpEn : Bool) (mcmp : Nat) (delta1 : Nat) (delta2 : Nat)
  | cfgStage (h : ReqHdr) (r : StageReq) (parsed : Bundle)
  | cfgCommit (h : ReqHdr)
  | cfgRevert (h : ReqHdr)
  | resetFunc (h : ReqHdr)
  | resetDevice (h : ReqHdr)
  | attestQuote (h : ReqHdr) (nonce : List Byte)
  | identityGet (h : ReqHdr) (offset : Nat)
  | eventRead (h : ReqHdr) (from_ : Nat) (max : Nat)
  | telemetryRead (h : ReqHdr)
  | cmdDone (f : FnId)
  | cfgStrobe (v : Word)
  | cfgStrobeAt (v : Word) (maltster : Bool)
  | strobeAtApply
  | cfgIntegCompare
  | xlocRearm (t : TileId)
  | winFlagSet (by_ : FnId) (f : FnId) (n : Fin 16) (v : Word)
  | registerWrite (f : FnId) (bar : Nat) (off : Nat) (size : Nat) (v : Word)
  | watchdog
  | maltsterUe
  | levelL3 (cause : BitVec 16)
  | l4Request (code : BitVec 16)
  | powerOn (b : BootInputs)
  | unitWake (u : UnitId)
  | unitAwake (u : UnitId)
  | pendingEnable (u : UnitId)
  | probationEnd
  | thermalEval (meanW : Nat) (tj : Nat) (byPower : Bool)
  | vinRange (mv : Nat)
  | railFault (rail : Nat)
  | powerPeak (w : Nat)
  | thermTrip
  | thermTripTimeout
  | coolantHigh
  | clkLoss
  | mctpMessage (seq : BitVec 16) (ctx : Nat) (keep : Bool) (last : Bool) (m : MgmtReq) (parsed : Bundle)
  | testEntry
  | linkTrainingDone (p : PortId) (r : Training)
  | notPosted (p : PortId) (tag : Nat)
  | verdictRequest (p : PortId) (tick : Nat)
  | quadSelfCheckFault (q : Quad)
  | phyFault (u : PhyUnit)
  | thermTripRelease (tj : Nat)
  | modRstRelease
  | perstRelease (x : HostPort)
  | vfEnable (x : HostPort) (enable : Bool) (n : Nat)
deriving DecidableEq, Repr

end Sys2Proof
end

