-- ==== Sys2Proof/Config.lean ====
section
/-! DEFINITION. What the manual leaves open or takes from published standards, as constants without a value:
free values of the arithmetic (R145, R136), the choice the manual does not make (R58), and the cryptographic
functions of the standards that chapter 19 names. No proof can see what any of them is. -/

namespace Sys2Proof.Config

/-- FREE VALUE (R145): the code that the LUT stage gives for function FUNC (first argument), or for its
derivative (second argument true), at an input inside the function's domain. Log entry 10. -/
opaque lutValue : Nat → Bool → F32 → F32

/-- FREE VALUE (R136, R142): which neighbour NORM's reciprocal (false) or reciprocal square root (true) takes:
an offset of the FP32 code, read as −1, 0 or +1 ulp. Log entry 11. -/
opaque normPick : Bool → F32 → Nat

/-- FREE VALUE (R58): the way of a full instruction-cache set that a fetched line replaces, by a counter. Log entry 43. -/
opaque icacheWay : Nat → Nat

/-- FREE VALUE: the byte of host memory that a read through the window finds behind a host region, by clk and bus address
(the row WINDOW_READ brings no host data). Log entry 28. -/
opaque hostByte : Nat → Nat → BitVec 8

/-- FREE VALUE (R349): the other modules that LNK_PART of a context names when it opens on a joined board, by context and
count of openings. Log entry 29. -/
opaque partOf : Nat → Nat → BitVec 8

/-- FREE VALUE (R243): the region number that MEM_MAP gives, and (second argument true) the first placement entry, by count of
maps; a value that is taken is passed over for the lowest that is free. Log entry 31. -/
opaque mapPick : Nat → Bool → Nat

/-- FREE VALUE (Table 16-4): FWVER of a maltster image, by FWDIG; the manual does not say where the image holds it. Log entry 32. -/
opaque fwVersion : BitVec 512 → Nat

/-- FREE VALUE (R444): the PUF root secret R. Log entry 36. -/
opaque pufRoot : BitVec 256

/-- FREE VALUE (R444, R453): the key KB under which a module that has never held a board key seals. Log entry 36. -/
opaque noBoardKey : BitVec 256

/-- FREE VALUE (R453): the board key that the master of a board hands over, by BOARD_ID. Log entry 36. -/
opaque boardKey : BitVec 64 → BitVec 256

/-- FREE VALUE (R419): HUB_STEP (false) and CD_STEP (true), the steppings of the dies, which the manual gives per part. Log entry 32. -/
opaque stepping : Bool → BitVec 8

/-- FREE VALUE (Table 19-2): the ROM version in a quote. Log entry 32. -/
opaque romVersion : BitVec 32

/-- Whether an ML-DSA-87 signature over a 512-bit digest verifies under K1 or K2 (R446). -/
opaque mldsaVerify : BitVec 512 → List Byte → Bool

/-- The ML-DSA-87 signature of a byte string under the identity key ξ (R451), 4,627 bytes. -/
opaque mldsaSign : List Byte → List Byte

/-- The draw of the hub's DRBG, by a counter (R444). -/
opaque drbg : Nat → BitVec 256

/-- The device certificate chain in the boot NOR (R450). -/
opaque certChain : List Byte

end Sys2Proof.Config
end

