-- ==== Sys2Proof/Machine/Bits.lean ====
section
/-! DEFINITION. Bit fields, little-endian bytes, the two CRCs of the manual (R77, R413), and the operations of
sparse tables. A table keeps its keys rising and holds no entry equal to its default value. -/

namespace Sys2Proof.Machine

/-- The n bits of x from bit lo upward. -/
def bits (x lo n : Nat) : Nat := x / 2 ^ lo % 2 ^ n

/-- Bit i of x. -/
def bitOf (x i : Nat) : Bool := x / 2 ^ i % 2 == 1

/-- A Bool as the bit a register shows. -/
def b2n (b : Bool) : Nat := if b then 1 else 0

/-- x with its n bits from lo upward replaced by v. -/
def setBits (x lo n v : Nat) : Nat := x - bits x lo n * 2 ^ lo + v % 2 ^ n * 2 ^ lo

/-- A count that adds k and holds at its maximum m (R411). -/
def satAdd (m x k : Nat) : Nat := min m (x + k)

/-- ceil (a ÷ b), with 0 for b = 0. -/
def ceilDiv (a b : Nat) : Nat := (a + b - 1) / b

/-- The function f applied n times. -/
def iter {α : Type} (n : Nat) (f : α → α) (x : α) : α :=
  match n with
  | 0 => x
  | k + 1 => iter k f (f x)

/-- The number of set bits among the low n of x. -/
def popCount (n x : Nat) : Nat :=
  match n with
  | 0 => 0
  | k + 1 => x % 2 + popCount k (x / 2)

/-- The positions below n at which x has a bit set, rising. -/
def bitList (n x : Nat) : List Nat := (List.range n).filter (fun i => bitOf x i)

/-- A two's complement number of n bits, as an integer. -/
def toSigned (n x : Nat) : Int := if x % 2 ^ n < 2 ^ (n - 1) then (x % 2 ^ n : Nat) else (x % 2 ^ n : Nat) - (2 ^ n : Nat)

/-- An integer as a two's complement number of n bits. -/
def ofSigned (n : Nat) (x : Int) : Nat := (x % (2 ^ n : Nat)).toNat

/-- Replace entry i of a list (no change past its end). -/
def listSet {α : Type} (l : List α) (i : Nat) (v : α) : List α := l.set i v

/-! ### Bytes, little-endian (R71) -/

/-- The n bytes of x, least significant first. -/
def toBytes (n x : Nat) : List Byte :=
  match n with
  | 0 => []
  | k + 1 => BitVec.ofNat 8 x :: toBytes k (x / 256)

/-- The number that bytes spell, least significant first. -/
def ofBytes : List Byte → Nat
  | [] => 0
  | b :: r => b.toNat + 256 * ofBytes r

/-- The bytes of a list, n at a time, as numbers. -/
def unpackAux (fuel n : Nat) (l : List Byte) : List Nat :=
  match fuel with
  | 0 => []
  | k + 1 => if l.isEmpty then [] else ofBytes (l.take n) :: unpackAux k n (l.drop n)

/-- The list read as numbers of n bytes each. -/
def unpackBytes (n : Nat) (l : List Byte) : List Nat := unpackAux l.length n l

/-! ### CRCs -/

/-- One bit of the CRC-16 of R77: polynomial 0x1021, most significant bit first. -/
def crc16Bit (c : Nat) : Nat := if bitOf c 15 then (2 * c % 65536) ^^^ 0x1021 else 2 * c % 65536

/-- CRC-16 with initial value 0xFFFF, no reflection and no final XOR (R77). -/
def crc16 (l : List Byte) : Nat := l.foldl (fun c b => iter 8 crc16Bit (c ^^^ (b.toNat * 256))) 0xFFFF

/-- One bit of CRC-32C in the reflected form 0x82F6_3B78 (R413). -/
def crc32cBit (c : Nat) : Nat := if c % 2 = 1 then (c / 2) ^^^ 0x82F63B78 else c / 2

/-- CRC-32C of a byte string: initial value and final XOR 0xFFFF_FFFF (R413). -/
def crc32c (l : List Byte) : Nat :=
  (l.foldl (fun c b => iter 8 crc32cBit (c ^^^ b.toNat)) 0xFFFFFFFF) ^^^ 0xFFFFFFFF

/-! ### Sparse tables -/

/-- The value of key n: that of its entry, else the default. -/
def smGet {α : Type} (d : α) (m : SMap α) (n : Nat) : α :=
  match m with
  | [] => d
  | (k, v) :: r => if k = n then v else smGet d r n

/-- The table with key n at value v, v not its default. -/
def smPut {α : Type} (m : SMap α) (n : Nat) (v : α) : SMap α :=
  match m with
  | [] => [(n, v)]
  | (k, u) :: r => if n < k then (n, v) :: (k, u) :: r else if k = n then (n, v) :: r else (k, u) :: smPut r n v

/-- The table with key n at value v: an entry at the default is left out. -/
def smSet {α : Type} [DecidableEq α] (d : α) (m : SMap α) (n : Nat) (v : α) : SMap α :=
  if v = d then m.filter (fun p => p.1 != n) else smPut m n v

/-- The table with key n changed by f. -/
def smMod {α : Type} [DecidableEq α] (d : α) (m : SMap α) (n : Nat) (f : α → α) : SMap α :=
  smSet d m n (f (smGet d m n))

/-- The table without the keys lo ≤ k < hi. -/
def smErase {α : Type} (m : SMap α) (lo hi : Nat) : SMap α := m.filter (fun p => p.1 < lo || hi ≤ p.1)

/-- The table with every entry changed by f, entries that become the default left out. -/
def smMap {α : Type} [DecidableEq α] (d : α) (m : SMap α) (f : Nat → α → α) : SMap α :=
  (m.map (fun p => (p.1, f p.1 p.2))).filter (fun p => p.2 ≠ d)

/-- Keys strictly rising and no entry at the default value. -/
def smWf {α : Type} [DecidableEq α] (d : α) : SMap α → Bool
  | [] => true
  | [(_, v)] => v ≠ d
  | (k, v) :: (k', v') :: r => v ≠ d && k < k' && smWf d ((k', v') :: r)

/-- The set of numbers of a rising list, with n added. -/
def setAdd (l : List Nat) (n : Nat) : List Nat :=
  match l with
  | [] => [n]
  | k :: r => if n < k then n :: k :: r else if n = k then k :: r else k :: setAdd r n

/-- The set without n. -/
def setDel (l : List Nat) (n : Nat) : List Nat := l.filter (· ≠ n)

/-- The list with the numbers lo ≤ k < hi added. -/
def setAddRange (l : List Nat) (lo n : Nat) : List Nat := (List.range n).foldl (fun a i => setAdd a (lo + i)) l

end Sys2Proof.Machine
end

