-- ==== Sys2Proof/Machine/Numerics.lean ====
section
/-! DEFINITION. Number formats and exact arithmetic (R111-R119, R131). A value is NaN, an infinity or a signed dyadic;
FP32 results are one rounding of an exact value. Quotients and square roots carry a sticky lowest bit below a hundred bits
of precision and more, so one rounding of them is correct. Codes are Nat. -/

namespace Sys2Proof.Machine

/-- An exact value: (−1)^neg × m × 2^e, with the sign of a zero kept. -/
inductive Val where
  | nan
  | inf (neg : Bool)
  | fin (neg : Bool) (m : Nat) (e : Int)
deriving DecidableEq, Repr

/-- What Table 05-1 says of a format. kind: 0 floating point, 1 signed integer, 2 unsigned integer. -/
structure Fmt where
  width : Nat
  kind : Nat
  ebits : Nat
  mbits : Nat
  bias : Nat
  maxCode : Nat       -- code of the largest finite value
  hasInf : Bool
  hasNan : Bool
  nanCode : Nat       -- canonical NaN, or the substitute (R114)
deriving DecidableEq, Repr

/-- Table 05-1. Codes 0xC to 0xF name no format (R113). -/
def fmtOf (f : Nat) : Option Fmt :=
  match f with
  | 0x0 => some ⟨32, 0, 8, 23, 127, 0x7F7FFFFF, true, true, 0x7FC00000⟩
  | 0x1 => some ⟨16, 0, 8, 7, 127, 0x7F7F, true, true, 0x7FC0⟩
  | 0x2 => some ⟨16, 0, 5, 10, 15, 0x7BFF, true, true, 0x7E00⟩
  | 0x3 => some ⟨8, 0, 4, 3, 7, 0x7E, false, true, 0x7F⟩
  | 0x4 => some ⟨8, 0, 5, 2, 15, 0x7B, true, true, 0x7E⟩
  | 0x5 => some ⟨6, 0, 3, 2, 3, 0x1F, false, false, 0x20⟩
  | 0x6 => some ⟨6, 0, 2, 3, 1, 0x1F, false, false, 0x20⟩
  | 0x7 => some ⟨4, 0, 2, 1, 1, 0x7, false, false, 0x8⟩
  | 0x8 => some ⟨8, 1, 0, 0, 0, 127, false, false, 0x80⟩
  | 0x9 => some ⟨4, 1, 0, 0, 0, 7, false, false, 0x8⟩
  | 0xA => some ⟨8, 2, 0, 0, 0, 255, false, false, 0⟩
  | 0xB => some ⟨32, 1, 0, 0, 0, 0x7FFFFFFF, false, false, 0x80000000⟩
  | _ => none

/-- The FP32 format. -/
def fp32 : Fmt := ⟨32, 0, 8, 23, 127, 0x7F7FFFFF, true, true, 0x7FC00000⟩

/-- Width in bits of a format code; 8 for none. -/
def fmtWidth (f : Nat) : Nat := ((fmtOf f).map (·.width)).getD 8

/-- An integer as an exact value. -/
def valOfInt (x : Int) : Val := .fin (decide (x < 0)) x.natAbs 0

/-- The value a stored code denotes (R111). -/
def decodeVal (k : Fmt) (code : Nat) : Val :=
  if k.kind = 1 then valOfInt (toSigned k.width code)
  else if k.kind = 2 then .fin false (code % 2 ^ k.width) 0
  else
    let neg := bitOf code (k.width - 1)
    let f := bits code k.mbits k.ebits
    let m := bits code 0 k.mbits
    if f + 1 = 2 ^ k.ebits ∧ k.hasInf then (if m = 0 then .inf neg else .nan)
    else if f + 1 = 2 ^ k.ebits ∧ k.hasNan ∧ m + 1 = 2 ^ k.mbits then .nan
    else if f = 0 then .fin neg m (1 - (k.bias : Int) - k.mbits)
    else .fin neg (2 ^ k.mbits + m) ((f : Int) - k.bias - k.mbits)

/-- Decode an FP32 code. -/
def v32 (code : Nat) : Val := decodeVal fp32 code

/-! ### Exact operations -/

/-- m × 2^d for d ≥ 0; the caller aligns exponents first. -/
def shl (m : Nat) (d : Int) : Nat := m * 2 ^ d.toNat

/-- Negate. -/
def Val.neg : Val → Val
  | .nan => .nan
  | .inf s => .inf (!s)
  | .fin s m e => .fin (!s) m e

/-- The magnitude. -/
def Val.abs : Val → Val
  | .nan => .nan
  | .inf _ => .inf false
  | .fin _ m e => .fin false m e

/-- Is it NaN. -/
def Val.isNan : Val → Bool
  | .nan => true
  | _ => false

/-- Is it a finite value. -/
def Val.isFin : Val → Bool
  | .fin _ _ _ => true
  | _ => false

/-- Is it a zero of either sign. -/
def Val.isZero : Val → Bool
  | .fin _ 0 _ => true
  | _ => false

/-- Is its sign negative (false for NaN). -/
def Val.isNeg : Val → Bool
  | .nan => false
  | .inf s => s
  | .fin s _ _ => s

/-- The finite value as a signed mantissa. -/
def signedOf (s : Bool) (m : Nat) : Int := if s then -(m : Int) else m

/-- Exact sum; ∞ − ∞ is NaN; an exact zero is +0 unless both are −0 (IEEE 754, nearest). -/
def Val.add : Val → Val → Val
  | .nan, _ => .nan
  | _, .nan => .nan
  | .inf a, .inf b => if a = b then .inf a else .nan
  | .inf a, _ => .inf a
  | _, .inf b => .inf b
  | .fin a m e, .fin b n f =>
    let g := min e f
    let x := signedOf a (shl m (e - g)) + signedOf b (shl n (f - g))
    if x = 0 then .fin (a && b) 0 g else .fin (decide (x < 0)) x.natAbs g

/-- Exact product; 0 × ∞ is NaN. -/
def Val.mul : Val → Val → Val
  | .nan, _ => .nan
  | _, .nan => .nan
  | .inf a, .inf b => .inf (a != b)
  | .inf a, .fin b n _ => if n = 0 then .nan else .inf (a != b)
  | .fin a m _, .inf b => if m = 0 then .nan else .inf (a != b)
  | .fin a m e, .fin b n f => .fin (a != b) (m * n) (e + f)

/-- Quotient of magnitudes to at least 400 bits, with a sticky lowest bit: of FP32 values, every bit above the binary point is exact, and
one rounding of it is correct (R124). -/
def divMag (m n : Nat) : Nat × Int :=
  let k := 400 + n.log2 - m.log2
  let x := m * 2 ^ k
  (2 * (x / n) + (if x % n = 0 then 0 else 1), -(k : Int) - 1)

/-- Quotient; 0 ÷ 0 and ∞ ÷ ∞ are NaN, x ÷ 0 is infinite. -/
def Val.div : Val → Val → Val
  | .nan, _ => .nan
  | _, .nan => .nan
  | .inf _, .inf _ => .nan
  | .inf a, .fin b _ _ => .inf (a != b)
  | .fin a _ _, .inf b => .fin (a != b) 0 0
  | .fin a m e, .fin b n f =>
    if n = 0 then (if m = 0 then .nan else .inf (a != b))
    else if m = 0 then .fin (a != b) 0 0
    else .fin (a != b) (divMag m n).1 ((divMag m n).2 + e - f)

/-- Integer square root, bit by bit. -/
def isqrtAux (fuel n r : Nat) : Nat :=
  match fuel with
  | 0 => r
  | k + 1 => isqrtAux k n (if (r + 2 ^ k) * (r + 2 ^ k) ≤ n then r + 2 ^ k else r)

/-- floor of the square root. -/
def isqrt (n : Nat) : Nat := isqrtAux (n.log2 / 2 + 1) n 0

/-- Square root, with a sticky lowest bit; negative is NaN, −0 stays −0. -/
def Val.sqrt : Val → Val
  | .nan => .nan
  | .inf s => if s then .nan else .inf false
  | .fin s m e =>
    if m = 0 then .fin s 0 e
    else if s then .nan
    else
      let x := if e % 2 = 0 then m * 2 ^ 220 else 2 * m * 2 ^ 220
      let f := (if e % 2 = 0 then e else e - 1) / 2 - 110
      let r := isqrt x
      .fin false (2 * r + (if r * r = x then 0 else 1)) (f - 1)

/-- x × 2^k. -/
def Val.scale (k : Int) : Val → Val
  | .nan => .nan
  | .inf s => .inf s
  | .fin s m e => .fin s m (e + k)

/-- Exact order of two values that are not NaN: x < y. Zeros are equal. -/
def Val.lt : Val → Val → Bool
  | .nan, _ => false
  | _, .nan => false
  | .inf a, .inf b => a && !b
  | .inf a, _ => a
  | _, .inf b => !b
  | .fin a m e, .fin b n f =>
    let g := min e f
    decide (signedOf a (shl m (e - g)) < signedOf b (shl n (f - g)))

/-- x ≤ y for values that are not NaN. -/
def Val.le (x y : Val) : Bool := !x.isNan && !y.isNan && !(Val.lt y x)

/-- Equality of values that are not NaN. -/
def Val.eqv (x y : Val) : Bool := Val.le x y && Val.le y x

/-- floor (log2 |x|) of a non-zero finite magnitude. -/
def log2Mag (m : Nat) (e : Int) : Int := (m.log2 : Int) + e

/-! ### Rounding (R116, R119) -/

/-- How a conversion rounds: nearest even, toward zero, or stochastically with a 24-bit draw. -/
inductive Rnd where
  | nearest
  | zero
  | stoch (u : Nat)
deriving DecidableEq, Repr

/-- m × 2^e as a whole number of units 2^ulp, rounded. -/
def roundUnits (r : Rnd) (m : Nat) (e ulp : Int) : Nat :=
  if ulp ≤ e then shl m (e - ulp)
  else
    let d := 2 ^ (ulp - e).toNat
    let q := m / d
    let rem := m % d
    match r with
    | .zero => q
    | .nearest => if 2 * rem > d ∨ 2 * rem = d ∧ q % 2 = 1 then q + 1 else q
    | .stoch u => if rem * 2 ^ 24 / d > u then q + 1 else q

/-- The unsigned code that a finite non-zero magnitude rounds to in a floating-point format; may lie beyond maxCode. -/
def roundFloat (k : Fmt) (r : Rnd) (m : Nat) (e : Int) : Nat :=
  let emin : Int := 1 - k.bias
  let ulp := max (log2Mag m e) emin - k.mbits
  ((ulp - (emin - k.mbits)).toNat) * 2 ^ k.mbits + roundUnits r m e ulp

/-- The FP32 code of a value rounded to nearest even: overflow gives ±∞, NaN the canonical NaN (R131). -/
def r32 (v : Val) : Nat :=
  match v with
  | .nan => 0x7FC00000
  | .inf s => (if s then 2 ^ 31 else 0) + 0x7F800000
  | .fin s m e => (if s then 2 ^ 31 else 0) + (if m = 0 then 0 else min 0x7F800000 (roundFloat fp32 .nearest m e))

/-- The FP32 code under the flushing of deviation 2: a magnitude that rounds, with the exponent unbounded, below 2^−126
becomes zero of its sign. The Bool says that it was flushed. -/
def r32Flush (v : Val) : Nat × Bool :=
  match v with
  | .fin s m e =>
    if m = 0 then (r32 v, false)
    else
      let ulp := log2Mag m e - 23
      let q := roundUnits .nearest m e ulp
      if log2Mag q ulp < -126 then ((if s then 2 ^ 31 else 0), true) else (r32 (.fin s q ulp), false)
  | _ => (r32 v, false)

/-- FP32 sum, product, quotient, difference and square root of codes, each rounded once. -/
def fadd (a b : Nat) : Nat := r32 (Val.add (v32 a) (v32 b))
def fsub (a b : Nat) : Nat := r32 (Val.add (v32 a) (v32 b).neg)
def fmul (a b : Nat) : Nat := r32 (Val.mul (v32 a) (v32 b))
def fdiv (a b : Nat) : Nat := r32 (Val.div (v32 a) (v32 b))
def fsqrt (a : Nat) : Nat := r32 (Val.sqrt (v32 a))

/-- FP32 code is a NaN. -/
def isNan32 (a : Nat) : Bool := (v32 a).isNan
/-- FP32 code is finite. -/
def isFin32 (a : Nat) : Bool := (v32 a).isFin

/-! ### Conversion (R117, R118) -/

/-- A converted code with what it counts as (R132). -/
structure Conv where
  code : Nat := 0
  sat : Bool := false
  inv : Bool := false
deriving DecidableEq, Repr

/-- The signed code of a magnitude code. -/
def signCode (k : Fmt) (neg : Bool) (x : Nat) : Nat := if neg then 2 ^ (k.width - 1) + x else x

/-- A value written in a format: one rounding, then saturation (R117), wrapping under OVF (R118), substitutes (R114, R115). −∞ in UINT8,
which has no largest value with its sign, is written as 0 and counts as saturated, whatever OVF holds (DESIGN CHOICE, log entry 97). -/
def convert (k : Fmt) (r : Rnd) (ovf : Bool) (v : Val) : Conv :=
  match v with
  | .nan => ⟨k.nanCode, false, true⟩
  | .inf s =>
    if k.kind = 0 then
      (if k.hasInf then ⟨signCode k s (2 ^ k.mbits * (2 ^ k.ebits - 1)), false, false⟩
       else ⟨signCode k s k.maxCode, true, false⟩)
    else if k.kind = 1 then ⟨ofSigned k.width (signedOf s k.maxCode), true, false⟩
    else ⟨if s then 0 else k.maxCode, true, false⟩
  | .fin s m e =>
    if k.kind = 0 then
      let x := if m = 0 then 0 else roundFloat k r m e
      if x > k.maxCode then ⟨signCode k s k.maxCode, true, false⟩
      else if x = 0 ∧ !k.hasNan then ⟨0, false, false⟩
      else ⟨signCode k s x, false, false⟩
    else
      let x := roundUnits r m e 0
      if k.kind = 1 then
        if x > k.maxCode then
          (if ovf then ⟨ofSigned k.width (signedOf s x), false, false⟩
           else ⟨ofSigned k.width (signedOf s k.maxCode), true, false⟩)
        else ⟨ofSigned k.width (signedOf s x), false, false⟩
      else if s ∧ 0 < x then
        (if ovf then ⟨ofSigned k.width (-(x : Int)), false, false⟩ else ⟨0, true, false⟩)
      else if x > k.maxCode then
        (if ovf then ⟨x % 2 ^ k.width, false, false⟩ else ⟨k.maxCode, true, false⟩)
      else ⟨x, false, false⟩

/-- The 24-bit draw of R119. -/
def draw24 (seed step ea : Nat) : Nat :=
  let w := 2 ^ 64
  let z := (seed % w) ^^^ (step * 0x9E3779B97F4A7C15 % w) ^^^ (ea * 0xC2B2AE3D27D4EB4F % w)
  let z := (z ^^^ (z / 2 ^ 30)) * 0xBF58476D1CE4E5B9 % w
  let z := (z ^^^ (z / 2 ^ 27)) * 0x94D049BB133111EB % w
  let z := z ^^^ (z / 2 ^ 31)
  z / 2 ^ 40

/-- The rounding that RND names for the element of key ea (R116, R119). -/
def rndOf (rnd seed step ea : Nat) : Rnd :=
  match rnd with
  | 1 => .zero
  | 2 => .stoch (draw24 seed step ea)
  | _ => .nearest

/-- Whether RND may convert into format k (Table 05-2). -/
def rndOk (rnd fmt : Nat) : Bool :=
  match fmtOf fmt with
  | none => false
  | some k => rnd == 0 || (rnd == 1 && k.kind != 0) || (rnd == 2 && fmt != 0)

/-- Whether a scale mode may go with a format (Table 05-4). -/
def scaleModeOk (mode fmt : Nat) : Bool :=
  if mode = 0 then (fmtOf fmt).isSome
  else if mode = 1 then decide (3 ≤ fmt) && decide (fmt ≤ 8)
  else if mode = 2 then decide (3 ≤ fmt) && decide (fmt ≤ 0xA)
  else if mode = 3 then decide (1 ≤ fmt) && decide (fmt ≤ 0xA)
  else false

end Sys2Proof.Machine
end

