-- ==== Sys2Proof/Machine/Reals.lean ====
section
/-! DEFINITION. The functions of Table 06-5 as real numbers, to far more bits than FP32 or FP64 holds, and the bounds that R136 and
R145 put on what the LUT stage gives. A real is an Int of units 2^−256 unless it is a Val. -/

namespace Sys2Proof.Machine

/-! ### Fixed point -/

/-- The number 1. -/
def rone : Int := 2 ^ 256
/-- Product. -/
def rmul (a b : Int) : Int := a * b / rone
/-- Quotient. -/
def rdiv (a b : Int) : Int := a * rone / b

/-- ln 2. -/
def rln2 : Int := 0xb17217f7d1cf79abc9e3b39803f2f6af40f343267298b62d8a0d175b8baafa2b
/-- √(2 ÷ π). -/
def rsqrt2pi : Int := 0xcc42299ea1b284687e59e2805d5c717fa7053e60a24e0db1808e369004c73a5d
/-- 2 ÷ √π. -/
def rtwosqrtpi : Int := 0x120dd750429b6d11ae3a914fed7fd8688281341d7587cea2e7342b06199cc4161
/-- 1 ÷ √(2π). -/
def rphi0 : Int := 0x662114cf50d942343f2cf1402eae38bfd3829f30512706d8c0471b4802639d2e
/-- 1 ÷ √2. -/
def rhalfsqrt : Int := 0xb504f333f9de6484597d89b3754abe9f1d6f60ba893ba84ced17ac8583339915

/-- A finite value in fixed point; 0 for the others. -/
def rofVal : Val → Int
  | .fin s m e => signedOf s (if -256 ≤ e then m * 2 ^ (e + 256).toNat else m / 2 ^ (-256 - e).toNat)
  | _ => 0

/-- A fixed-point number as a value. -/
def rtoVal (x : Int) : Val := .fin (decide (x < 0)) x.natAbs (-256)

/-- e^r for 0 ≤ r < ln 2: sixty terms of the series. -/
def rexpFrac (r : Int) : Int :=
  ((List.range 60).foldl (fun (a : Int × Int) (i : Nat) => let t := rmul a.1 r / (i + 1); (t, a.2 + t)) (rone, rone)).2

/-- e^x as e^r × 2^k. -/
def rexpSplit (x : Int) : Int × Int := (rexpFrac (x - x / rln2 * rln2), x / rln2)

/-- e^x. -/
def rexp (x : Int) : Int :=
  let p := rexpSplit x
  if 0 ≤ p.2 then p.1 * 2 ^ p.2.toNat else p.1 / 2 ^ (-p.2).toNat

/-- ln y for ½ ≤ y ≤ 2: twice the series of artanh ((y − 1) ÷ (y + 1)). -/
def rlnNear (y : Int) : Int :=
  let z := rdiv (y - rone) (y + rone)
  let z2 := rmul z z
  2 * ((List.range 90).foldl (fun (a : Int × Int) (i : Nat) => (rmul a.1 z2, a.2 + a.1 / (2 * i + 1))) (z, 0)).2

/-- The logistic function. -/
def rsig (x : Int) : Int := if 0 ≤ x then rdiv rone (rone + rexp (-x)) else let u := rexp x; rdiv u (rone + u)

/-- tanh. -/
def rtanh (x : Int) : Int :=
  let u := rexp (-2 * (x.natAbs : Int))
  let t := rdiv (rone - u) (rone + u)
  if x < 0 then -t else t

/-- erf: its series with e^(−x²) taken out, which has no negative term; beyond 10 it is ±1 to more than 2^−140. -/
def rerf (x : Int) : Int :=
  let y : Int := x.natAbs
  let r := if 10 * rone < y then rone else
    let y2 := rmul y y
    let n := 50 + 4 * (y2 / rone).toNat
    let sum := ((List.range n).foldl (fun (a : Int × Int) (i : Nat) => let t := 2 * rmul a.1 y2 / (2 * i + 3); (t, a.2 + t)) (y, y)).2
    rmul rtwosqrtpi (rmul (rexp (-y2)) sum)
  if x < 0 then -r else r

/-- The normal distribution function. -/
def rPhi (x : Int) : Int := (rone + rerf (rmul x rhalfsqrt)) / 2
/-- The normal density. -/
def rphi (x : Int) : Int := rmul rphi0 (rexp (-(rmul x x) / 2))

/-! ### Table 06-5 -/

/-- ln of a positive finite value. -/
def lnVal : Val → Val
  | .fin _ m e => rtoVal (rlnNear (rofVal (.fin false m (-(m.log2 : Int)))) + (e + m.log2) * rln2)
  | v => v

/-- e^x as a value, at full relative precision. -/
def expVal (x : Int) : Val := .fin false (rexpSplit x).1.toNat ((rexpSplit x).2 - 256)

/-- The argument of GELU's tanh form, and its derivative (PRESUMED, log entry 10: the constants of that form are the customary ones). -/
def geluArg (x : Int) : Int × Int :=
  let x2 := rmul x x
  let c : Int := 44715 * rone / 1000000
  (rmul rsqrt2pi (x + rmul c (rmul x2 x)), rmul rsqrt2pi (rone + 3 * rmul c x2))

/-- Function f of Table 06-5, or its derivative, at a finite input within its domain. -/
def lutReal (f : Nat) (d : Bool) (v : Val) : Val :=
  let x := rofVal v
  let one : Val := .fin false 1 0
  match f with
  | 0x0 => expVal x
  | 0x1 =>
    let y := expVal (rmul (x - x / rone * rone) rln2)
    (if d then y.mul (rtoVal rln2) else y).scale (x / rone)
  | 0x2 => if d then one.div v else lnVal v
  | 0x3 => let s := rsig x; rtoVal (if d then rmul s (rone - s) else s)
  | 0x4 => let t := rtanh x; rtoVal (if d then rone - rmul t t else t)
  | 0x5 => rtoVal (if d then rPhi x + rmul x (rphi x) else rmul x (rPhi x))
  | 0x6 =>
    let u := geluArg x
    let t := rtanh u.1
    rtoVal (if d then (rone + t + rmul x (rmul (rone - rmul t t) u.2)) / 2 else rmul x (rone + t) / 2)
  | 0x7 => let s := rsig x; rtoVal (if d then rmul s (rone + rmul x (rone - s)) else rmul x s)
  | 0x8 => rtoVal (if d then rsig x else max x 0 + rlnNear (rone + rexp (-(x.natAbs : Int))))
  | 0x9 => rtoVal (if d then rmul rtwosqrtpi (rexp (-(rmul x x))) else rerf x)
  | _ => if d then one.div (v.sqrt.scale 1) else v.sqrt

/-- One unit in the last place of FP32 at a value. -/
def ulp32 : Val → Val
  | .fin _ m e => .fin false 1 ((if m = 0 then -126 else max (log2Mag m e) (-126)) - 23)
  | _ => .fin false 0 0

/-- The bounds of Table 06-5: so many ulp, or 2^k absolute. -/
def lutBound (f : Nat) (d : Bool) (v : Val) : Nat × Option Int :=
  if f ≤ 1 then (2, none)
  else if f = 2 then (2, if !d && Val.le (.fin false 1 (-1)) v && Val.le v (.fin false 2 0) then some (-23) else none)
  else if f = 0xA then (if d then 2 else 1, none)
  else if d then (8, some (-22))
  else (4, some (if f = 3 ∨ f = 4 ∨ f = 9 then -24 else -22))

/-- Whether code y is within the bounds of function f, or of its derivative, at input x (R136, R145). -/
def lutWithin (f : Nat) (d : Bool) (x y : Nat) : Bool :=
  let r := lutReal f d (v32 x)
  let b := lutBound f d (v32 x)
  let err := ((v32 y).add r.neg).abs
  Val.le err ((Val.fin false b.1 0).mul (ulp32 r)) || (match b.2 with
    | some k => Val.le err (.fin false 1 k)
    | none => false)

end Sys2Proof.Machine
end

