-- ==== Sys2Proof/Machine/State.lean ====
section
/-! DEFINITION. The state of the RT-1440: every register, buffer, queue, counter, mode and pin that the spec gives
the part, as plain data. Each field names the rule that gives it and carries its reset value as the field's
default; State.reset is the state with every field at that value. The registers of BAR0 are views of these
fields (regRead in Machine/Registers.lean). -/

namespace Sys2Proof.Machine

/-- The four variants of Table 00-1. -/
inductive Variant where
  | h8 | h6 | n8 | s8
deriving DecidableEq, Repr

/-- No step of this model ends in a fault: each fault of the spec is a change of state (an event, a stopped stream,
an aborted step, a recovery level). The type has no constructor, so no command can raise one (safe). -/
inductive Fault where
deriving DecidableEq, Repr

/-- Why a command has no meaning in the model. -/
inductive Refusal where
  /-- Raised by an arm of exec whose row has no meaning yet. Safe: the model stops where the part goes on. -/
  | notModelled (mnemonic : String)
deriving DecidableEq, Repr

/-- The five numeric counts of an instruction (Table 05-6). -/
structure Counts where
  inv : Nat := 0     -- R132 invalid elements
  sat : Nat := 0     -- R132 saturated elements
  flush : Nat := 0   -- R132 flushed elements
  ovf : Nat := 0     -- R132 overflowed blocks
  cmp : Nat := 0     -- R132 damaged compression blocks
deriving DecidableEq, Repr

/-- What an admitted, incomplete instruction waits for. -/
inductive Wait where
  | none
  | xfer (id : Nat)            -- R47 a consuming instruction's transfer
  | sem (n : Nat) (v : Nat)    -- R67 a SEM_WAIT
  | passed (n : Nat) (v : Nat) (clk : Nat) -- R68 a SEM_WAIT that has passed its test in a clk
  | bank (b : Nat)             -- R102, R103 its accumulator bank
  | unit (u : Nat)             -- R65 a grant of the ME (0) or the VC (1)
  | tag (id : Nat)             -- R261 a transaction tag
  | cask                       -- R169 a stalled CASK.PUT
  | deferRec (id : Nat)        -- R205 a deferred record
  | reduce (tag : Nat)         -- R333 the peers' scalar messages
  | chainTag (id : Nat)        -- R153 a hand-off transfer's tag
deriving DecidableEq, Repr

/-- An admitted, incomplete instruction (R59, R80). -/
structure InFlight where
  seq : Nat := 0             -- R80 sequence number
  cls : Nat := 0             -- R81 CLASS
  op : Nat := 0              -- R81 OP
  pc : Nat := 0              -- R81 PC
  clk : Nat := 0             -- R30 clk of admission
  rcd : Bool := false        -- R71 REC
  last : Bool := false       -- R71 LAST
  status : BitVec 16 := 0    -- R81 STATUS
  counts : Counts := {}      -- R132 counts
  xinfo : Nat := 0           -- R81 XINFO
  wait : Wait := .none       -- R47 what it waits for
  bank : Option Nat := none  -- R103 the accumulator bank it needs: it reserves it unless it waits for it
  ran : Option Nat := none   -- R60 the clk in which its work took effect
  me : Nat := 0              -- R110 draws at the ME that its passes still need
  vc : Nat := 0              -- R157 draws at the VC that its lane groups still need
  opb : Nat := 0             -- R71 OPB, for what the instruction does after its wait
  desc2 : Nat := 0           -- R104 the chain descriptor of an MM_DRAIN as read
  hdesc : Nat := 0           -- R153 the hand-off descriptor as read
  hand : Option Nat := none  -- R153 its hand-off transfer, registered and not yet issued
  ovr : Bool := false        -- R32 counted as an overrun
  desc : Nat := 0            -- R78 the descriptor as read
  step : Nat := 0            -- R81 STEP_LO: the step it belongs to
  retry : Bool := false      -- R81 RETRY
  off : Nat := 0             -- R74 the descriptor's local offset
deriving DecidableEq, Repr

/-- One open loop level (R62). -/
structure LoopLevel where
  start : Nat := 0
  stop : Nat := 0
  count : Nat := 0
  idx : Nat := 0
deriving DecidableEq, Repr

/-- A SYNC.WAIT_BEAT reached and not yet passed (R31). -/
structure BeatWait where
  beat : Nat := 0
  clk : Nat := 0
  fl : InFlight := {}
deriving DecidableEq, Repr

/-- A sequencer (R57, Table 03-9). -/
structure Seq where
  pbase : Nat := 0                 -- R84 SEQ_PROG.PBASE; reset 0
  plen : Nat := 0                  -- R84 SEQ_PLEN.PLEN; reset 0
  crbase : Nat := 0                -- R84 SEQ_CRCFG.CRBASE; reset 0
  crlog2 : Nat := 4                -- R84 SEQ_CRCFG.CRLOG2; reset 4
  pc : Nat := 0                    -- R57 SEQ_STAT.PC; reset 0
  loops : List LoopLevel := []     -- R62 loop stack, innermost first, at most 4; reset empty
  calls : List Nat := []           -- R62 call stack, at most 8; reset empty
  seqNo : Nat := 0                 -- R80 SEQ_CNT.SEQ; reset 0
  icMiss : Nat := 0                -- R84 SEQ_CNT.IC_MISS; reset 0
  icache : List Nat := []          -- R58 cached 256-byte line numbers, newest first; reset empty
  icPoison : List Nat := []        -- R85 cached words that arrived poisoned; reset empty
  fetching : List Nat := []        -- R58 lines being fetched after a miss; reset none
  prefetching : List Nat := []     -- R60 lines that PREFETCH named, not yet fetched; reset none
  icVictims : Nat := 0             -- MODEL counter of replaced ways (R58 leaves the way open); reset 0 DESIGN CHOICE
  inflight : List InFlight := []   -- R59 admitted, incomplete, oldest first, at most 16; reset none
  run : Bool := false              -- R84 SEQ_STAT.RUN; reset 0
  admitClk : Option Nat := none    -- R29 the clk of the latest admission; reset none
  held : Bool := false             -- R84 SEQ_STAT.HELD; reset 0
  waiting : Bool := false          -- R84 SEQ_STAT.WAITING for an ORD wait; reset 0
  faulted : Bool := false          -- R86 SEQ_STAT.FAULTED; reset 0
  faultCode : BitVec 16 := 0       -- R86 SEQ_STAT.FAULT_CODE; reset 0
  stopped : Bool := false          -- R34 the stream stopped on BUDGET_UNFIT; reset 0
  stepNo : Nat := 0                -- R26 the step the stream belongs to; reset 0
  retry : Bool := false            -- R81 the stream runs a retried step; reset 0
  beatWait : Option BeatWait := none -- R31 a WAIT_BEAT reached and not passed; reset none
  committed : Bool := false        -- R64 the stream has passed its commit point; reset 0
  lastSeen : Bool := false         -- R26 LAST has been admitted; reset 0
  lastPassed : Bool := false       -- R26 LAST has been passed; reset 0
deriving DecidableEq, Repr

/-- What a semaphore operation does (R67). -/
inductive SemAct where
  | set | signal | wait
deriving DecidableEq, Repr

/-- One operation on a semaphore, with the clk and the stream that R68 orders it by (3: no stream), as R37 replays it;
`step` is none for the signals that belong to no step, `src` the tile and stream that a signal's overflow faults (R70). -/
structure SemOp where
  n : Nat := 0
  act : SemAct := .set
  v : Nat := 0
  step : Option Nat := none
  clk : Nat := 0
  stream : Nat := 3
  src : Option (Nat × Stream) := none
deriving DecidableEq, Repr

/-- The semaphores as they stood at a step's open tick, and every operation since (R37). -/
structure SemSnap where
  step : Nat := 0
  vals : SMap (BitVec 16) := []
  ops : List SemOp := []
deriving DecidableEq, Repr

/-- What the exception locator captures of an invalid operation (R107, Table 04-4). -/
structure XCap where
  seq : Nat := 0          -- R107 XLOC0.SEQ; reset 0
  stream : Nat := 0       -- R107 XLOC0.STREAM; reset 0
  bank : Nat := 0         -- R107 XLOC0.BANK; reset 0
  retry : Bool := false   -- R107 XLOC0.RETRY; reset 0
  step16 : Nat := 0       -- R107 XLOC0.STEP16; reset 0
  row : Nat := 0          -- R107 XLOC1.ROW; reset 0
  col : Nat := 0          -- R107 XLOC1.COL; reset 0
  kchunk : Nat := 0       -- R107 XLOC1.KCHUNK; reset 0
  kind : Nat := 0         -- R107 XLOC1.KIND; reset 0
  pc : Nat := 0           -- R107 XLOC1.PC; reset 0
deriving DecidableEq, Repr

/-- The exception locator (R107, R108). -/
structure XLoc where
  cap : XCap := {}                 -- R107 what it holds; reset 0
  valid : Bool := false            -- R107 XLOC0.VALID; reset 0
  more : Bool := false             -- R107 XLOC0.MORE; reset 0
  late : Option (Nat × XCap) := none -- R108 the latest clk with an invalid operation, and the first of that clk; reset none
  lateMore : Bool := false         -- R108 that clk had another one; reset 0
deriving DecidableEq, Repr

/-- A directory slot of the cask (Table 07-2). -/
structure CaskSlot where
  layer : Nat := 0
  mb : Nat := 0
  kind : Nat := 0
  par : Nat := 0
  valid : Bool := false
  dropped : Bool := false
  recomp : Bool := false
  tier : Nat := 0
  cmp : Bool := false
  loc : Nat := 0
  size : Nat := 0
  tbl : Nat := 0
  rpc : Nat := 0
deriving DecidableEq, Repr

/-- The cask of a tile (R164, Table 07-1). -/
structure Cask where
  abase : Nat := 0                 -- R165 CASK_ARENA.ABASE; reset 0
  aunits : Nat := 0                -- R165 CASK_ARENA.AUNITS; reset 0
  gcnt1 : Nat := 0                 -- R165 CASK_SPILL1.GCNT; reset 0
  gbase1 : Nat := 0                -- R165 CASK_SPILL1.GBASE; reset 0
  gcnt2 : Nat := 0                 -- R165 CASK_SPILL2.GCNT; reset 0
  gbase2 : Nat := 0                -- R165 CASK_SPILL2.GBASE; reset 0
  lim1 : Nat := 0                  -- R164 granules of the BANK spill area that a region holds; reset 0
  lim2 : Nat := 0                  -- R164 granules of the BULK spill area that a region holds; reset 0
  dropCnt : Nat := 0               -- R165 CASK_DROP_CNT; reset 0
  dir : SMap CaskSlot := []        -- R166 directory, 4,096 slots; reset all free
  stallF : Option Nat := none      -- R169 CASK_USE0.STALL_F: sequence number of the stalled PUT; reset none
  stallB : Option Nat := none      -- R169 CASK_USE0.STALL_B; reset none
  freed : List (Nat × CaskSlot) := [] -- R170 slots freed in clk freedClk, with the units they held; reset none
  freedClk : Nat := 0              -- R169, R170 the latest clk in which slots or units were freed; reset 0
  placedB : Option Nat := none     -- R170 the latest clk in which the B stream placed; reset none
deriving DecidableEq, Repr

/-- A tile (Table 03-1). Its scratchpad bytes lie in State.mem; its owner in the contexts' tile sets. -/
structure Tile where
  seqF : Seq := {}                 -- R50 sequencer F
  seqB : Seq := {}                 -- R50 sequencer B
  seqU : Seq := {}                 -- R50 sequencer U
  sems : SMap (BitVec 16) := []    -- R67 TILE_SEM_n, 256 of 16 bits; reset 0
  semStart : SMap (BitVec 16) := [] -- R68 values before the operations of the latest clk; reset none
  semOps : List SemOp := []        -- R68 the operations of the latest clk, in their order; reset none
  snaps : List SemSnap := []       -- R37 values at the open ticks of the steps in flight; reset none
  acc0 : SMap F32 := []            -- R100 accumulator bank 0, 128 x 128 of 32 bits, key 128 m + n; reset 0 DESIGN CHOICE
  acc1 : SMap F32 := []            -- R100 accumulator bank 1; reset 0 DESIGN CHOICE
  invCnt : Nat := 0                -- R133 TILE_INV_CNT; reset 0
  satCnt : Nat := 0                -- R133 TILE_SAT_CNT; reset 0
  flushCnt : Nat := 0              -- R133 TILE_FLUSH_CNT; reset 0
  ovfCnt : Nat := 0                -- R133 TILE_OVFBLK_CNT; reset 0
  cmpCnt : Nat := 0                -- R133 TILE_CMPERR_CNT; reset 0
  ovrCnt : Nat := 0                -- R32 TILE_OVR_CNT; reset 0
  xloc : XLoc := {}                -- R107 exception locator
  cask : Cask := {}                -- R164 the tile's cask
deriving DecidableEq, Repr

/-- A unit that wakes, sleeps and is quarantined (R437-R441, Table 08-6). -/
structure UnitSt where
  active : Bool := false     -- R84, R212 ACTIVE; reset 0
  draining : Bool := false   -- R440 DRAINING; reset 0
  pendEn : Bool := false     -- R441 PEND_EN; reset 0
  quar : Bool := false       -- R438 QUAR; reset 0
  kept : Bool := false       -- R438 shut down with its state kept; reset 0
  wrap : Bool := false       -- R437 wrap mark; reset 0
  waking : Bool := false     -- R465 granted and not yet awake; reset 0
  grantTick : Nat := 0       -- R465 the tick of the grant; reset 0
  epoch : BitVec 32 := 0     -- R438 EPOCH; reset 0
deriving DecidableEq, Repr

/-- A region (R243, R363). -/
structure Region where
  no : Nat := 0
  gbase : Nat := 0
  gcnt : Nat := 0
  lgn0 : Nat := 0
  home : Nat := 0
  top : Nat := 0
  bottom : Nat := 0
  use : Nat := 0
  noHeat : Bool := false
  stkMask : BitVec 8 := 0
  chMask : BitVec 18 := 0
  host : Bool := false
  sourced : Bool := false
  exporting : Bool := false
  bus : List Nat := []
deriving DecidableEq, Repr

/-- A placement entry (R241, Table 10-3). -/
structure PEntry where
  tier : Nat := 0          -- R241 TIER; reset 0b00 unused
  fresh : Bool := false    -- R241 FRESH
  filling : Bool := false  -- R245 the zero fill of its frame runs
  poison : Bool := false   -- R241 POISON
  mstate : Nat := 0        -- R241 MSTATE: 0 IDLE, 1 PROMOTING, 2 EVICTING, 3 RELOCATING
  dtier : Nat := 0         -- R241 DTIER
  hpin : Bool := false     -- R241 HPIN
  mpin : Bool := false     -- R241 MPIN
  pcnt : Nat := 0          -- R241 PCNT
  heat : Nat := 0          -- R241 HEAT
  loc : Nat := 0           -- R241 LOC
  dloc : Nat := 0          -- R241 DLOC
  epoch : Nat := 0         -- R241 EPOCH, modulo 2^24
  ctx : Nat := 0           -- R241 CTX
deriving DecidableEq, Repr

/-- A queued or running move (R251, R255). -/
structure Move where
  lgn : Nat := 0
  cls : Nat := 0
  target : Nat := 0
  order : Nat := 0
  started : Bool := false
  forPin : Bool := false    -- R250 a move made for MEM_PIN
  forQuota : Bool := false  -- R249 an eviction of a lowered quota
  tags : Nat := 0           -- R259 request tags it holds
  starved : Bool := false   -- R254, R270 it found no victim and no frame
  noTag : Bool := false     -- R261 it waits for a request tag, and has been counted
  forLgn : Option Nat := none  -- R254 an eviction that makes room for this granule's move
deriving DecidableEq, Repr

/-- A loaded program (R389). -/
structure Prog where
  imageCa : Nat := 0
  len : Nat := 0
  digest : BitVec 512 := 0
  frozen : List Nat := []     -- R162 FROZEN cask layers
  sealBase : Nat := 0
  sealCnt : Nat := 0
  tiles : List Nat := []      -- R389 the tiles that take part
  guarded : List Nat := []    -- R87 granules of the program
  pinned : List Nat := []     -- R389 image, program and ledger granules, pinned under MPIN
deriving DecidableEq, Repr

/-- A grist table (R221). -/
structure Grist where
  ready : Bool := false       -- R221 state; reset EMPTY
  tfmt : Nat := 0             -- R221 TFMT
  lens : SMap Nat := []       -- R221 LEN[s], 256 of 4 bits
  cnt : SMap Nat := []        -- R221 256 counters of 32 bits
deriving DecidableEq, Repr

/-- A contribution that has arrived and waits to be combined (R181, R184, R337). -/
structure Contrib where
  ctx : Nat := 0
  slice : Nat := 0
  lid : Nat := 0
  step : Nat := 0
  vals : List F32 := []
  whole : Bool := true       -- R185 it covers the slice from its first byte
  poison : Bool := false     -- R265 it met poison
  staged : Bool := false     -- R337 it lies in the staging area
  tile : Option Nat := none  -- the tile whose record names it
  xfer : Option Nat := none  -- R184 the DMA.WRITE that waits until it is combined or staged
deriving DecidableEq, Repr

/-- Where an update stands (R188). -/
inductive UpdStage where
  | tag       -- R46 waits for its transaction's tag
  | hold      -- R205 waits for a deferred record
  | issued    -- stages 2 and 3
  | deferred  -- R204 parked
  | kiln      -- stage 4 done, directions sent
  | failed    -- R208 its coefficient was refused: it waits for the abort
  | done      -- stage 6
deriving DecidableEq, Repr

/-- A value of a recipe as an FP32 code, and whether it is a NaN that an invalid operation made from numbers (R132). -/
structure Fx where
  code : Nat := 0
  bad : Bool := false
deriving DecidableEq, Repr

/-- An update of a slice (R188, R204, R209). -/
structure Upd where
  id : Nat := 0
  ctx : Nat := 0
  tile : Nat := 0
  step : Nat := 0
  desc : Nat := 0                -- the descriptor, 1,024 bits
  stage : UpdStage := .issued
  dirs : List Fx := []           -- R191 the directions the kiln sent
  skip : Bool := false           -- R193 the slice is skipped
  shadow : Bool := false         -- R209 a mirrored update
  wrote : Bool := false          -- R200 it has written a moment
  wroteM : Bool := false         -- R200 it has written a master
  arrived : Option Nat := none   -- R204 the clk at which both granules of a deferred update had arrived
  reruns : Nat := 0              -- R199
  pins : List Nat := []          -- R188 the granules it pins
  recNo : Option Nat := none     -- R204 the deferred record it holds
  lr : F32 := 0                  -- R190 LR and WD as read at stage 4
  wd : F32 := 0
  badEls : List Nat := []        -- R132 the elements that count as invalid so far
  satEls : List Nat := []        -- R132 the elements that count as saturated so far
deriving DecidableEq, Repr

/-- Kinds of tracked transfers (R46, R73). -/
inductive XKind where
  | dmaRead | dmaWrite | dmaCopy | dmaFill | linkSend | recvPost | kiln
deriving DecidableEq, Repr

/-- A tracked transfer (R74, R259). -/
structure Xfer where
  id : Nat := 0
  tile : Nat := 0
  stream : Nat := 0
  ctx : Nat := 0
  step : Nat := 0
  off : Nat := 0                 -- R74 the descriptor's offset after stepping
  kind : XKind := .dmaRead
  desc : Nat := 0
  fill : Nat := 0                -- R227 the pattern of a DMA.FILL
  pc : Nat := 0                  -- R86 PC of the instruction that issued it
  seq : Nat := 0                 -- R80 its sequence number
  clk : Nat := 0                 -- R330 the clk of its issue
  asked : Bool := false          -- R261 its request for a tag is made
  tag : Bool := false            -- R259 it holds a tag
  left : Nat := 0                -- R306 requests of up to 4 KiB not yet granted at the tile's DMA arbiter
  req : Nat := 0                 -- R259 request tags it holds
  reqWait : Bool := false        -- R261 its next request waits for a tag, and has been counted
  released : Bool := false       -- R74 its step has committed: it is registered no longer and holds no tag
  done : Bool := false
  consumed : Bool := false
  status : BitVec 16 := 0
  counts : Counts := {}
  xinfo : Nat := 0
  got : Nat := 0                 -- R332 bytes landed of a post
  resends : Nat := 0             -- R335 resends after NOT_POSTED
deriving DecidableEq, Repr

/-- A remote semaphore signal in flight (R69, R182, R194, R367). -/
structure RSig where
  tgt : Nat := 0
  sem : Nat := 0
  inc : Nat := 0
  ctx : Nat := 0
  step : Option Nat := none      -- none: the signal of a flag range, which belongs to no step
  src : Option (Nat × Stream) := none
deriving DecidableEq, Repr

/-- A cause that asks for an abort (R35, R88): its code, the step it belongs to (none: every step in flight), when and
where it arose, and whether the maltster retries it (Table 02-4, R265). -/
structure Cause where
  code : BitVec 16 := 0
  step : Option Nat := none
  clk : Nat := 0
  place : Nat := 0           -- R88 order within a clk: 0 no tile, else 1 + 4 t + stream
  retry : Bool := false
deriving DecidableEq, Repr

/-- What a sequencer reports of a slip (R33): its tile and stream, the beat it awaited, and the beat and clk at which it came. -/
structure SlipReport where
  tile : Nat
  stream : Stream
  awaited : Nat
  beat : Nat
  clk : Nat
deriving DecidableEq, Repr

/-- What is reported of a transfer that met damage (R231) or an unmapped region (R497): its tile and stream, the code, the block's number and
the context address. -/
structure XferReport where
  tile : Nat
  stream : Stream
  code : Nat
  block : Nat
  ca : Nat
deriving DecidableEq, Repr

/-- The step registers and the run of a context (R25-R28, R48, R390). -/
structure StepSt where
  stepNo : Nat := 0                 -- R48 GLB_STEP.STEP_NO; reset 0
  beatNo : Nat := 0                 -- R48 GLB_STEP_STAT.BEAT_NO; reset 0
  opened : Bool := false            -- R48 OPEN; reset 0
  pending : Bool := false           -- R48 PENDING: step STEP_NO − 1 waits to commit; reset 0
  pendBeat : Nat := 0               -- R25 beat number of the pending step; reset 0
  waitOpen : Bool := false          -- R27 STEP_NO is to open next; reset 0
  aborting : Bool := false          -- R48 ABORTING; reset 0
  retry : Bool := false             -- R48 RETRY; reset 0
  pendRetry : Bool := false         -- R41 the step that waits to commit is a retry; reset 0
  retryNext : Bool := false         -- R40 the next open is a retry; reset 0
  halted : Bool := false            -- R48 HALTED; reset 0
  abortCode : BitVec 16 := 0        -- R48 ABORT_CODE; reset 0
  slipCnt : Nat := 0                -- R48 SLIP_CNT; reset 0
  slip : Option SlipReport := none  -- R33 the latest slip as the sequencer reported it; reset none
  xreport : Option XferReport := none -- R231, R497 the latest transfer reported with a context address; reset none
  abortCnt : Nat := 0               -- R48 ABORT_CNT; reset 0
  ovrCnt : Nat := 0                 -- R48 OVR_CNT; reset 0
  armed : Bool := false             -- R390 STEP_ARM has set a run; reset 0
  running : Bool := false           -- R390 a run is in progress; reset 0
  left : Nat := 0                   -- R390 steps left; reset 0
  endless : Bool := false           -- R390 COUNT 0: no end; reset 0
  lastCommit : Nat := 0             -- R385 last committed STEP_NO; reset 0
  causes : List Cause := []         -- R35, R88 causes of an abort not yet taken; reset none
  hostAbort : Bool := false         -- R390 a STEP_ABORT is one of the causes; reset 0
  passTicks : Nat := 0              -- R203 ticks since every stream passed its commit point; reset 0
  rewritten : List (Nat × Nat) := [] -- R198 the open steps' rewritten slices: (step, descriptor); reset none
  rebuild : List (Nat × Nat) := []  -- R198 the slices an abort queued for rebuild; reset none
  loggedDefer : List Nat := []      -- R205 steps in flight for which 0x2009 has been logged; reset none
  loggedRoom : Bool := false        -- R254 0x2005 logged in this step; reset 0
  loggedStall : List Nat := []      -- R338 steps in flight for which 0x500D has been logged; reset none
  loggedWide : Bool := false        -- R368 0x6005 logged in this step; reset 0
  updated : List (Nat × Nat) := []  -- R189 (step, slice) with an update issued; reset none
deriving DecidableEq, Repr

/-- Whether a context number is in use (R442 EVT_CTX.STATE). -/
inductive CtxState where
  | closed | isOpen | draining
deriving DecidableEq, Repr

/-- A context (R355, R386). -/
structure Ctx where
  st : CtxState := .closed         -- R442 EVT_CTX.STATE; reset CLOSED
  pendEn : Bool := false           -- R441 EVT_CTX.PEND_EN; reset 0
  owner : Option FnId := none      -- R355 the owning function; reset none
  orig : Option FnId := none       -- R371 the original function; reset none
  frozen : Bool := false           -- R370 FROZEN; reset 0
  standby : Bool := false          -- R386 STANDBY; reset 0
  lastLevel : Nat := 0             -- R442 LAST_LEVEL; reset 0
  lastCode : BitVec 16 := 0        -- R442 LAST_CODE; reset 0
  l1Cnt : Nat := 0                 -- R442 L1_CNT; reset 0
  l2Cnt : Nat := 0                 -- R442 L2_CNT; reset 0
  tsets : BitVec 24 := 0           -- R356 tile sets; reset none
  seed : Word := 0                 -- R120 CTX_SEED; reset 0
  oneSlot : Bool := false          -- R212 KLN_CFG.SLOTMODE; reset 0
  sel : Bool := false              -- R197 KLN_CFG.SEL; reset 0
  mirror : Bool := false           -- R212 KLN_CFG.MIRROR; reset 0
  coefA : Nat := 0                 -- R206 KLN_CFG.COEFA; reset 0
  timeout : Nat := 0x1000          -- R203 KLN_CFG.TIMEOUT; reset 0x1000
  lbase : Nat := 0                 -- R180 KLN_LEDGER.LBASE; reset 0
  dbase : Nat := 0                 -- R180 KLN_LDATA.DBASE; reset 0
  slices : Nat := 0                -- R180 KLN_LSIZE.SLICES; reset 0
  fbase : Nat := 0                 -- R204 KLN_DEFER.FBASE; reset 0
  deferQuota : Nat := 0            -- R205 KLN_DEFER_QUOTA.QUOTA; reset 0
  shd1 : Nat := 0                  -- R209 KLN_SHD1.DELTA; reset 0
  shd2 : Nat := 0                  -- R209 KLN_SHD2.DELTA; reset 0
  torn : Bool := false             -- R200 KLN_STAT.TORN; reset 0
  rerunCnt : Nat := 0              -- R199 RERUN_CNT; reset 0
  nonfinCnt : Nat := 0             -- R193 NONFIN_CNT; reset 0
  deferCnt : Nat := 0              -- R204 DEFER_CNT; reset 0
  qBank : Nat := 0                 -- R248 TIER_QBANK.QUOTA; reset 0
  qBankCask : Nat := 0             -- R248 TIER_QBANK.CASK; reset 0
  qLedger : Nat := 0               -- R248 TIER_QBANK.LEDGER; reset 0
  qBulk : Nat := 0                 -- R248 TIER_QBULK.QUOTA; reset 0
  qBulkCask : Nat := 0             -- R248 TIER_QBULK.CASK; reset 0
  qCel : Nat := 0                  -- R248 TIER_QCEL.QUOTA; reset 0
  pools : List (BitVec 32) := []   -- R52 pool pieces of CD0 to CD3; reset none
  promo : Nat := 0                 -- R270 TIER_MCNT.PROMO; reset 0
  evict : Nat := 0                 -- R270 TIER_MCNT.EVICT; reset 0
  cmbSlots : Nat := 0              -- R337 LNK_CMB.SLOTS; reset 0
  cmbFull : Bool := false          -- R338 LNK_CMB.FULL; reset 0
  regions : List Region := []      -- R236 region table; reset none
  releasing : List Region := []    -- R247 unmapped regions still draining; reset none
  prog : Option Prog := none       -- R389 the loaded program; reset none
  tables : SMap Grist := []        -- R221 64 grist tables; reset EMPTY
  step : StepSt := {}              -- R25 steps and runs
deriving DecidableEq, Repr

/-- A mailbox reply or done entry (R381, R382). -/
structure Reply where
  cmd : Nat := 0
  seq : BitVec 16 := 0
  len : Nat := 0
  ctx : Nat := 0
  detached : Bool := false
  status : Nat := 0
  body : List Byte := []
deriving DecidableEq, Repr

/-- What a command that has not ended waits for. -/
inductive CmdWait where
  | pin (lgns : List Nat) (tier : Nat) (done : List Nat)   -- R250
  | quota (old : QuotaReq) (failed : Bool)                 -- R249
  | seal (id : Word) (st : Nat) (reply : List Byte)        -- R391 to a host, with its final STATUS
  | sealCel (id : Word) (started : Bool) (reply : List Byte) -- R391 to the cellar; its write has started, or waits for the credit (R290)
  | restore (reply : List Byte)                            -- R392
  | exporting (st : Nat) (bytes : Nat)                        -- R393
  | takeover                                               -- R396
  | abort (step : Nat)                                     -- R390 STEP_ABORT
  | close                                                  -- R387 CTX_CLOSE with FORCE
  | remap                                                  -- R395 BOARD_REMAP
deriving DecidableEq, Repr

/-- A command in service or detached (R378, R382). -/
structure Cmd where
  cmd : Nat := 0
  seq : BitVec 16 := 0
  ctx : Nat := 0
  wait : CmdWait := .close
  reply : List Byte := []
  ended : Option Nat := none      -- the final STATUS once it is known
deriving DecidableEq, Repr

/-- A function and its mailbox (R354, R373, R377). -/
structure Fn where
  pendEn : Bool := false           -- R373 PCI_FSTAT.PEND_EN; reset 0
  bme : Bool := false              -- R364 Bus Master Enable; reset 0
  winLog2 : Nat := 0               -- R373 WIN_SIZE.LOG2; reset 0
  flags : Nat := 0                 -- R373 PCI_FCNT.FLAGS; reset 0
  winErr : Nat := 0                -- R373 PCI_FCNT.WINERR; reset 0
  busy : Option Cmd := none        -- R377 MBX_STAT.BUSY; reset 0
  done : Bool := false             -- R377 MBX_STAT.DONE; reset 0
  reset : Bool := true             -- R377 MBX_STAT.RESET; reset 1
  needHello : Bool := true         -- R380 the next command must be HELLO; reset 1
  seq : BitVec 16 := 0             -- R377 MBX_STAT.SEQ; reset 0
  head : Nat := 0                  -- R377 MBX_STAT.HEAD; reset 0
  detached : List Cmd := []        -- R377 MBX_STAT.DETACHED; reset none
  served : Nat := 0                -- R377 MBX_CNT.SERVED; reset 0
  lost : Nat := 0                  -- R377 MBX_CNT.LOST; reset 0
  slot : SMap Byte := []           -- R377 request slot of 4 KiB, by offset; reset 0 DESIGN CHOICE
  posted : Option (List Byte) := none -- R378 the copy of a post accepted and not yet served; reset none
  postClk : Nat := 0               -- R379 the clk of the last accepted post; reset 0
  reply : Option Reply := none     -- R377 reply slot; reset none
  ring : SMap Reply := []          -- R377 done ring of 16 entries; reset none
  pba : BitVec 64 := 0             -- R369 pending bits; reset 0
  quote : List Byte := []          -- R451 the quote still pending; reset none
  quoteOff : Nat := 0              -- R451 its next offset; reset 0
  l2 : Option (BitVec 16) := none  -- R429 an L2 that waits for its abort tick, with its cause; reset none
  mgmt : Option (Nat × BitVec 16) := none -- R457 of the management side (16): CMD and SEQ of its message that waits for service; reset none
deriving DecidableEq, Repr

/-- A host port (R353, R373). -/
structure HPort where
  rate : Nat := 0          -- R373 PCI_PSTAT.RATE; reset 0
  width : Nat := 0         -- R373 PCI_PSTAT.WIDTH; reset 0
  flit : Bool := false     -- R373 PCI_PSTAT.FLIT; reset 0
  up : Bool := false       -- R373 PCI_PSTAT.UP; reset 0
  perst : Bool := false    -- R476 PERST# is held; reset 0 (pull-up)
  downCnt : Nat := 0       -- R373 PCI_PCNT.DOWN; reset 0
  parkFull : Nat := 0      -- R373 PCI_PCNT.PARKFULL; reset 0
  ridWide : Nat := 0       -- R373 PCI_PCNT.RIDWIDE; reset 0
  vfEnable : Bool := false -- R354 VF Enable; reset 0
  numVfs : Nat := 0        -- R354 NumVFs; reset 0
deriving DecidableEq, Repr

/-- A posted window write that has not landed (R255, R362, R366). -/
structure HeldWrite where
  port : Nat := 0
  fn : Nat := 0
  ctx : Nat := 0
  ca : Nat := 0
  data : List Byte := []
  rid : Nat := 0
  ro : Bool := false
  ep : Bool := false
  parked : Bool := false          -- R362 it takes a place in the park
  flags : List Nat := []          -- R366 the flag ranges it lands in
  wide : Bool := false            -- R368 it waits for every write of its port
deriving DecidableEq, Repr

/-- A grant of a lottery arbiter (R307, R310, R311): the holder, whether the age limit forced it, the clk of its draw, what its transfer
belongs to, and whether the holder has withdrawn. It starts in the clk after its draw. -/
structure Grant where
  who : Nat
  forced : Bool
  clk : Nat
  tx : ReqTx := .other
  gone : Bool := false
  insn : Option Nat := none  -- R110, R157 the sequence number of the holder's instruction at a tile's ME or VC
deriving DecidableEq, Repr

/-- A lottery arbiter (R306-R312). -/
structure Arb where
  grant : Option Grant := none         -- R307 the grant held; reset none
  was : SMap Nat := []                 -- R307 the loss counts before the latest draw; reset 0
  loss : SMap Nat := []                -- R307 loss counts; reset 0
  restart : Nat := 0                   -- R313 RESTART; reset 0
  aged : Nat := 0                      -- R313 AGED; reset 0
deriving DecidableEq, Repr

/-- A link port (R315-R321, R349). -/
structure LPort where
  st : Nat := 0              -- R349 LNK_PSTAT.STATE; reset DOWN
  lanesOk : BitVec 8 := 0    -- R349 LANES_OK; reset 0
  peerSlot : Nat := 0xF      -- R349 PEER_SLOT; reset 0xF
  peerLid : Nat := 0xF       -- R349 PEER_LID; reset 0xF
  lat : Nat := 0             -- R349 LAT; reset 0
  crcRetry : Nat := 0        -- R349 CRC_RETRY; reset 0
  fecCorr : Nat := 0         -- R349 FEC_CORR; reset 0
  retrain : Nat := 0         -- R349 RETRAIN; reset 0
  markerMiss : Nat := 0      -- R349 MARKER_MISS; reset 0
  notPosted : Nat := 0       -- R349 NOT_POSTED; reset 0
  txSeq : Nat := 0           -- R317 next LSEQ to send; reset 0
  rxSeq : Nat := 0           -- R318 next LSEQ expected; reset 0
  sent : Nat := 0            -- R318 flits sent since the replay window opened; reset 0
  replays : Nat := 0         -- R318 replays within 2^24 flits; reset 0
  replay : List Flit := []   -- R318 replay buffer, at most 512, oldest first; reset empty
  rx : List Flit := []       -- R317 the flits of transfers not yet whole, in order; reset none
deriving DecidableEq, Repr

/-- A scalar message that has arrived before its own reduction, or for it (R333). -/
structure Scalar where
  ctx : Nat := 0
  lid : Nat := 0
  tag : Nat := 0
  step : Nat := 0            -- R36 the step it was sent in
  vals : List F32 := []
deriving DecidableEq, Repr

/-- The board registers and the verdicts (R324-R349). -/
structure Board where
  lid : Nat := 0xE                    -- R349 LNK_BOARD.LID; reset 0xE standalone
  slot : Nat := 0xF                   -- R349 LNK_BOARD.SLOT; reset SLOT_ID, 0xF unpowered (R489)
  nact : Nat := 0                     -- R349 NACT; reset 0
  spareOk : Bool := false             -- R349 SPARE_OK; reset 0
  auto : Bool := false                -- R349 AUTO; reset 0
  mcmp : Nat := 0                     -- R349 MCMP; reset 0
  mcmpEn : Bool := false              -- R349 MCMPEN; reset 0
  epoch : BitVec 32 := 0              -- R349 LNK_BOARD.EPOCH; reset 0
  part : SMap (BitVec 8) := []        -- R349 LNK_PART; reset 0
  alive : BitVec 9 := 0               -- R349 LNK_HB.ALIVE; reset 0
  failed : BitVec 9 := 0              -- R349 LNK_HB.FAILED; reset 0
  phase : Nat := 0                    -- R349 LNK_TKO.PHASE; reset idle
  flid : Nat := 0                     -- R349 LNK_TKO.FLID; reset 0
  progress : Nat := 0                 -- R349 LNK_TKO.PROGRESS; reset 0
  takeovers : Nat := 0                -- R349 LNK_BCNT.TAKEOVERS; reset 0
  verdictLost : Nat := 0              -- R349 LNK_BCNT.VERDICT_LOST; reset 0
  markers : List Marker := []         -- R326 the peers' markers of the current tick; reset none
  own : Option Marker := none         -- R324 the marker this module sent at the current tick; reset none
  unseen : SMap Nat := []             -- R328 consecutive ticks without a peer's marker; reset 0
  held : Option Verdict := none       -- R326 the verdict held for the next tick; reset none
  applied : Option Verdict := none    -- R326 the verdict of the current tick, less the parts applied; reset none
  recent : List Verdict := []         -- R327 the master's last 16 verdicts; reset none
  missing : List Nat := []            -- R327 the ticks whose verdict this module lacks; reset none
  again : SMap Nat := []              -- R324 markers and verdicts of the current beat asked for again, by port; reset none
  ignored : List Nat := []            -- R324 ports whose marker of the current tick was ignored and counted; reset none
  missBeats : Nat := 0                -- R327 beats since; reset 0
  fail : Bool := false                -- R434 FAIL is set in the markers; reset 0
  remapAt : Option (Nat × List Nat × Nat) := none -- R323 a remap to come: tick, slot of each logical ID, spare slot; reset none
  ks : SMap Nat := []                 -- R470 the active modules' last reported k; reset 0
  scalars : List Scalar := []         -- R333 scalar messages held; reset none
  sourcesMissing : Bool := false      -- R342 a takeover waits for SOURCED data; reset 0
  opens : Nat := 0                    -- MODEL count of CTX_OPENs (argument of a free value of R349); reset 0 DESIGN CHOICE
  tkoSel : Bool := false              -- R343 the board's SEL that the takeover's streams brought; reset 0
deriving DecidableEq, Repr

/-- The beat generator (R18-R24). -/
structure Beat where
  now : Nat := 0                -- R9 clk since power was applied (wider than any register); reset 0
  tickClk : Nat := 0            -- R18 the clk of the latest tick; reset 0
  tick : Nat := 0               -- R48 GLB_TICK; reset 0
  periodEff : Nat := 12000      -- R48 BEAT_STAT.PERIOD_EFF; reset 0x2EE0
  nextPeriod : Nat := 12000     -- R20 the length announced for the next beat; reset 0x2EE0
  holdover : Bool := false      -- R48 HOLDOVER; reset 0
  stretched : Bool := false     -- R48 STRETCHED; reset 0
  skew : Int := 0               -- R48 SKEW; reset 0
  measured : Bool := false      -- R21 a marker of the master has been taken since the latest tick; reset 0
  later : Option Nat := none    -- R20 the length that a marker ahead of its tick announces; reset none
  calm : Nat := 0               -- R23, R24 consecutive beats in step, or pulses in the window; reset 0
  pulse : Option Nat := none    -- R24 the clk in the beat of a BEAT_IN pulse taken for the coming tick; reset none
  nextStretched : Bool := false -- R40 the length announced for the next beat is lengthened; reset 0
  beatOut : Nat := 0            -- R490 pulses driven on BEAT_OUT; reset 0
  retries : List Nat := []      -- R40 contexts whose retry lengthens the beat; reset none
deriving DecidableEq, Repr

/-- RW-S registers, their shadows, arming and integrity (R405-R416). -/
structure CfgSt where
  eff : List (Nat × Word) := []      -- R405 values in effect that differ from reset, by BAR0 offset; reset none
  shadow : List (Nat × Word) := []   -- R405 shadow writes not yet applied; reset none
  shadowNew : List (Nat × Word) := [] -- R408 the shadow writes of this clk, which no strobe of it applies; reset none
  strobe : BitVec 16 := 0            -- R407 groups whose shadows apply in the next clk; reset 0
  armNext : BitVec 16 := 0           -- R408 groups armed for the next tick; reset 0
  armAt : List (Nat × BitVec 16 × BitVec 16) := [] -- R408 groups armed for a named tick, and those the maltster armed; latest first; reset none
  armM : BitVec 16 := 0              -- R415 groups the maltster armed for the next tick; reset 0
  due : BitVec 16 := 0               -- R408 groups that the current tick applies, not yet applied; reset 0
  dueM : BitVec 16 := 0              -- R415 those of them that the maltster armed; reset 0
  maltster : List Nat := []          -- R405, R415 offsets that the maltster has written in this clk; reset empty
  mismatch : BitVec 16 := 0          -- R417 CFG_INTEG.MISMATCH; reset 0
  consec : SMap Nat := []            -- R436 consecutive failed compares of a group; reset 0
  badAcc : Nat := 0                  -- R417 BADACC; reset 0
  mismatchCnt : Nat := 0             -- R417 MISMATCH_CNT; reset 0
  strobes : Nat := 0                 -- R417 STROBES; reset 0
deriving DecidableEq, Repr

/-- The hub (R300-R305, R313). -/
structure Hub where
  mode : Nat := 0                  -- R300 HUB_STATE.MODE; reset START
  qstate : SMap Nat := []          -- R300 QSTATE; reset NORMAL
  chgTick : Nat := 0               -- R313 CHG_TICK; reset 0
  retrainCnt : Nat := 0            -- R313 RETRAIN_CNT; reset 0
  bypassCnt : Nat := 0             -- R313 BYPASS_CNT; reset 0
  bypassBeats : Nat := 0           -- R313 BYPASS_BEATS; reset 0
  starts : List (Nat × Nat) := []  -- R303 (quadrant, clk) of the retrainings; reset none
  fails : SMap Nat := []           -- R303 consecutive failed trainings; reset 0
  trained : List Nat := []         -- R302 bridges whose training succeeded, waiting for the next tick; reset none
  sides : SMap Nat := []           -- R301, R305 the ring sides that each die uses, one bit a side; reset none
  carried : Bool := false          -- R313 a ring side carried traffic in this beat; reset 0
  lfsrClk : Nat := 0               -- R308 the clk in which every LFSR was loaded; reset 0
  lfsrSeed : Nat := 1              -- R308 the SEED they were loaded from; reset 1
deriving DecidableEq, Repr

/-- The counters of a stack or BULK channel (R270). -/
structure RasUnit where
  ce : Nat := 0            -- R270 CE; reset 0
  ue : Nat := 0            -- R270 UE; reset 0
  fret : Nat := 0          -- R270 FRET; reset 0
  ret : Nat := 0           -- R270 PCRET or BKRET; reset 0
deriving DecidableEq, Repr

/-- What met an uncorrectable word (R264): the patrol, a tile's transfer, or a function's window access. -/
inductive UeConsumer where
  | patrol
  | xfer (tile : Nat) (stream : Nat) (seq : Nat)
  | window (fn : Nat)
deriving DecidableEq, Repr

/-- What 0x2002 reports of an uncorrectable word (R264): its place, which gives unit and device address, its context address if it is mapped,
and its consumer. -/
structure UeReport where
  place : RasPlace
  ca : Option Nat
  consumer : UeConsumer
deriving DecidableEq, Repr

/-- Memory reliability (R262-R269). -/
structure Ras where
  stk : SMap RasUnit := []        -- R270 STK_RAS, STK_PCRET; reset 0
  ch : SMap RasUnit := []         -- R270 CH_RAS, CH_BKRET; reset 0
  scrCe : Nat := 0                -- R270 SCR_RAS.CE; reset 0
  scrUe : Nat := 0                -- R270 SCR_RAS.UE; reset 0
  netCe : Nat := 0                -- R270 NET_RAS.CE; reset 0
  netUe : Nat := 0                -- R270 NET_RAS.UE; reset 0
  rowCe : SMap Nat := []          -- R263 corrected counts of rows and lines; reset 0
  rowsLeft : SMap Nat := []       -- R266 spare rows left of a pseudo-channel; reset 64
  linesLeft : SMap Nat := []      -- R268 spare lines left of a scratchpad or pool; reset 32
  scrOut : List Nat := []         -- R268 scratchpads and pools out of spare lines, logged; reset none
  retBank : List Nat := []        -- R266 BANK frames out of service; reset none
  retBulk : List Nat := []        -- R267 BULK frames out of service; reset none
  displaced : SMap Nat := []      -- R239, R266 reserved BANK frames, and 2^25 + spanning BULK frames, whose content lies in a frame of BANK's spare; reset none
  ue : Option UeReport := none    -- R264 the latest uncorrectable word as reported; reset none
  patrolClk : SMap Nat := []      -- R263 when the latest patrol of SCRATCH, BANK and BULK ended; reset 0
deriving DecidableEq, Repr

/-- Migration and the tracker (R251-R261, R270). -/
structure Mig where
  moves : List Move := []         -- R251 moves queued and in progress; reset none
  order : Nat := 0                -- R251 requests made; reset 0
  decay : Nat := 0                -- R252 beats since the last halving of HEAT; reset 0
  high : Nat := 0                 -- R270 TRK_STAT.HIGH; reset 0
  waits : Nat := 0                -- R270 TRK_CNT.WAITS; reset 0
  freed : List Nat := []          -- R260 the contexts of the transfers' tags freed in this clk; reset none
  freedM : List Nat := []         -- R260 the contexts (16: none) of the moves' tags freed in this clk; reset none
  maps : Nat := 0                 -- MODEL count of MEM_MAPs (argument of the free values of R243); reset 0 DESIGN CHOICE
  nextId : Nat := 1               -- MODEL number of the next transfer; reset 1 DESIGN CHOICE
deriving DecidableEq, Repr

/-- A superblock of the cellar (R273). st: 0 free, 1 open, 2 filled, 3 system area, 4 dissolved, 5 to be dissolved once its streams have left. -/
structure Superblock where
  st : Nat := 0
  erase : Nat := 0            -- R276 erase count
  used : Nat := 0             -- R275 data positions taken
  live : Nat := 0             -- R287 live units
  gone : List Nat := []       -- R283 channels on which it has no member
deriving DecidableEq, Repr

/-- A spare multi-plane block (R285). -/
structure SpareBlock where
  ch : Nat
  die : Nat
  block : Nat
  erase : Nat
deriving DecidableEq, Repr

/-- A stream of the frame map (R275). -/
structure CelStream where
  ext : List (Nat × Nat × Nat) := []   -- (superblock, first data position, units), at most two
  len : Nat := 0
  wseq : Nat := 0
  day : Nat := 0                        -- R286 when it was written, in clk
  written : Bool := false               -- R277 every unit, parity and journal record is programmed
  par : Nat := 0                        -- R277 parity units that its data positions complete
  lost : List Nat := []                 -- R281 its lost units
  walk : Bool := false                  -- R278 its directory cannot be read: its headers are walked
deriving DecidableEq, Repr

/-- A sealed checkpoint (R391, R454). -/
structure Ckpt where
  ctx : Nat := 0
  ckid : Word := 0
  lid : Nat := 0
  gen : Nat := 1
  boardId : Word := 0
  salt : Word := 0
  step : Nat := 0
  sel : Bool := false
  frames : List Nat := []
  parts : List (Nat × List Byte) := []   -- each record's context address and slot
deriving DecidableEq, Repr

/-- The superblocks of a new part: the system area (R274), and the lowest free one of each group open (R276). -/
def newSbs : SMap Superblock :=
  (List.range 8).map (fun k => (k, { st := 3 })) ++ [8, 1024, 2048, 3072, 4096].map (fun k => (k, { st := 1 }))

/-- The cellar (R272-R296). -/
structure Cellar where
  sbs : SMap Superblock := newSbs    -- R273, R274, R276 superblocks; reset per part: 0 to 7 system, one open in each group, the others free, erase count 0 DESIGN CHOICE
  frames : SMap CelStream := []      -- R275 frame map; reset empty DESIGN CHOICE
  journal : SMap CelStream := []     -- R274, R275 the frame map as checkpoints and journal in the system area hold it; reset empty DESIGN CHOICE
  retryTables : SMap (List Nat) := [] -- R274, R280 entries 1 to 7 of each die's retry table, by 5 × channel + die; reset per part: none DESIGN CHOICE
  wseq : Nat := 0                    -- R275 write sequence numbers given; reset 0
  credit : Int := 0x800 * 1048576    -- R295 CEL_CREDIT; reset DEPTH in KiB
  frac : Nat := 0                    -- R290 the refill's remainder; reset 0
  throttled : Bool := false          -- R295 THROTTLED; reset 0
  rebuilding : List (Nat × Nat) := [] -- R283 dies being rebuilt; reset none
  readOnly : Bool := false           -- R295 READONLY; reset 0
  dead : List (Nat × Nat) := []      -- R295 DIE_FAIL, DIE_OK: failed dies (channel, die); reset per part: none DESIGN CHOICE
  spares : List SpareBlock := []     -- R285, R295 spare multi-plane blocks (CEL_CH.SPARE); reset per part: none DESIGN CHOICE
  members : List (Nat × Nat × Nat × Nat) := [] -- R285 members replaced: (superblock, channel, die, block); reset per part: none DESIGN CHOICE
  hostKib : Nat := 0                 -- R295 HOST_GIB, in KiB; reset per part: 0 DESIGN CHOICE
  nandKib : Nat := 0                 -- R295 NAND_GIB, in KiB; reset per part: 0 DESIGN CHOICE
  daily : List (Nat × Nat) := []     -- R295 WRITTEN7: (day, KiB charged) of the last days; reset none
  nandDaily : List (Nat × Nat) := [] -- R292 (day, KiB programmed) of the last days; reset none
  retries : Nat := 0                 -- R295 RETRIES; reset 0
  rebuilds : Nat := 0                -- R295 REBUILDS; reset 0
  lost : Nat := 0                    -- R295 LOST; reset 0
  blkRet : Nat := 0                  -- R295 BLK_RET; reset 0
  lastLife : Nat := 100              -- R292 the last LIFE_PCT reported; reset 100
  refresh : List (Nat × Nat) := []   -- R286, R289 frames scheduled for refresh with their write sequence numbers, oldest first; reset none
  patrolClk : Nat := 0               -- R286 when the latest patrol ended; reset 0
  dirs : List Nat := []              -- R278 cached directories, newest first; reset none
  ckpts : List Ckpt := []            -- R391 sealed checkpoints held; reset none
  step9 : List (Nat × Nat × Nat) := [] -- R283 blocks of a die that reached step 9: (channel, die, block); reset none
  logged : List (Nat × Nat) := []    -- R296 units logged 0x7001 in this patrol period: (frame, unit); reset none
deriving DecidableEq, Repr

/-- An event entry (R423, Table 18-2). -/
structure Event where
  seq : Nat := 0
  code : BitVec 16 := 0
  ctx : Option Nat := none
  fn : Nat := 31
  level : Nat := 0
  tick : Nat := 0
  unitKind : Nat := 0
  unitNo : Nat := 0
  info : BitVec 96 := 0
deriving DecidableEq, Repr

/-- The event log and the recovery registers (R423-R442). -/
structure Evt where
  next : Nat := 1                 -- R423 EVT_HEAD.NEXT; reset per part: 1 (R423: numbers start at 1)
  log : List Event := []          -- R423 the ring, newest first, at most 65,536; reset empty
  nor : List Event := []          -- R426 persistent ring in the boot NOR, at most 32,768; reset empty
  cls : SMap Nat := []            -- R442 EVT_CLS; reset 0
  hubEpoch : BitVec 32 := 1       -- R437 EVT_EPOCH.HUB; reset 1
  rstLevel : Nat := 0             -- R442 EVT_RST.LEVEL; reset per part: 0 DESIGN CHOICE
  rstCode : BitVec 16 := 0        -- R442 EVT_RST.CODE; reset per part: 0 DESIGN CHOICE
  l3Cnt : Nat := 0                -- R442 EVT_RST.L3_CNT; reset per part: 0 DESIGN CHOICE
  l4Cnt : Nat := 0                -- R442 EVT_RST.L4_CNT; reset per part: 0 DESIGN CHOICE
  reqL4 : Bool := false           -- R442 EVT_ALERT.REQ_L4; reset 0
  l4Code : BitVec 16 := 0         -- R427 L4_CODE; reset 0
  l3Times : List Nat := []        -- R433 the clks of the L3s; reset none
  wdog : Bool := false            -- R435 the watchdog has expired since the last L3; reset 0
  wdogTicks : Nat := 0            -- R435 ticks since it expired; reset 0
  since : Nat := 0                -- R427 the clk at which the last L3 or L4 completed; reset 0
  norRecord : List Byte := []     -- R427 the fault record's copy in the boot NOR; reset none
  fromNor : Bool := false         -- R427 after an L4, until the record is first written again; reset 0
deriving DecidableEq, Repr

/-- Where an L3 stands (R428, R472, R478). -/
inductive L3State where
  | none
  | heldReset       -- MOD_RST# holds the core
  | heldTrip        -- the compute dies wait to cool
  | heldBoth        -- both
deriving DecidableEq, Repr

/-- The state of the other bundle slot (R398). -/
inductive SlotState where
  | empty | staged | fallback
deriving DecidableEq, Repr

/-- A staging in progress (R398). -/
structure Staging where
  owner : Nat := 0      -- function index, 16 for the management side
  total : Nat := 0
  bytes : List Byte := []
  clk : Nat := 0        -- when the last chunk came
deriving DecidableEq, Repr

/-- A bundle with no defaults, no quota limits and the POLICY values that the spec names (Table 16-6). -/
def Bundle.reset : Bundle :=
  { version := 0, gen := 1, variantMask := 0xF, wellFormed := true, adoptAB := false, adoptBA := false,
    timeout := 0x1000, modKeep := false, probS := 600, probSteps := 1000, auto := false,
    linkMap := [], regDefaults := [], quota := [] }

/-- Boot, bundles and security (R397-R400, R444-R458). -/
structure Boot where
  active : Bundle := Bundle.reset        -- R398 the active bundle; reset per part DESIGN CHOICE
  other : Bundle := Bundle.reset         -- R398 the bundle in the other slot
  otherSt : SlotState := .empty          -- R398 EMPTY, STAGED or the fallback; reset empty
  probation : Bool := false              -- R399 the active bundle is in probation; reset 0
  probSince : Nat := 0                   -- R399 when probation began, in clk
  probCommits : Nat := 0                 -- R399 steps committed in probation
  staging : Option Staging := none       -- R398 a staging in progress; reset none
  ctr : Nat := 0                         -- R448 anti-rollback counter; reset per part: 0 DESIGN CHOICE
  ctrSeq : Nat := 0                      -- R448 write sequence number of its record, the newer of the two
  ctrOld : Nat := 0                      -- R448 the CTR of the older record, one sequence number below; reset per part: 0 DESIGN CHOICE
  activeSig : Bool := true               -- R446 the active bundle's signature verifies; reset per part: 1 DESIGN CHOICE
  otherSig : Bool := true                -- R446 the other slot's signature verifies; reset per part: 1 DESIGN CHOICE
  pufFail : Bool := false                -- R445 R failed its check; reset 0
  recovery : Bool := false               -- R447 recovery mode; reset 0
  ctrLost : Bool := false                -- R449 neither record verifies; reset 0
  test : Bool := false                   -- R458 TEST is entered; reset 0
  rootHeld : Bool := false               -- R444 R and its keys are held; reset 0
  boots : Nat := 0                       -- MODEL count of boots (argument of the PUF and DRBG); reset 0 DESIGN CHOICE
  draws : Nat := 0                       -- R444 draws taken from the DRBG; reset 0
  kb : Option (BitVec 256) := none       -- R453 the board key; reset none
  boardId : Word := 0                    -- R453 BOARD_ID; reset 0
  fwDig : BitVec 512 := 0                -- R446 FWDIG; reset 0
  bundleDig : BitVec 512 := 0            -- R446 BUNDLEDIG; reset 0
  bundleBytes : List Byte := []          -- R397 the active bundle's bytes before its signature; reset none
  otherBytes : List Byte := []           -- R397 the other slot's bytes; reset none
deriving DecidableEq, Repr

/-- Power, heat and the wake budget (R420, R460-R472). -/
structure Pwr where
  powered : Bool := false       -- R463 the rails are up and the ROM has run; reset 0
  coreRails : Bool := false     -- R462 the compute-die, SRAM, HBM4 and link-die rails; reset 0
  pwrOk : Bool := false         -- R479 PWR_OK; reset 0
  vin : Nat := 0                -- R420 PWR_STAT.VIN in 10 mV; reset 0
  pin : Nat := 0                -- R420 PWR_STAT.PIN in W; reset 0
  tj : Nat := 0                 -- R420 PWR_STAT.TJ_MAX in 0.1 degC; reset 0
  tcool : Nat := 0              -- R420 PWR_STAT.TCOOL in 0.1 degC; reset 0
  vinRange : Bool := false      -- R461 VIN_RANGE; reset 0
  k : Nat := 0                  -- R469 stretch level; reset 0
  base : Nat := 12000           -- R469 base period B; reset 12,000
  clkOk : Bool := true          -- R475 LREF and the core PLL are in lock; reset 1
  peak : Bool := false          -- R471 admission is stopped; reset 0
  peakTick : Nat := 0           -- R471 the tick of the beat in which the stop began; reset 0
  peakEnd : Bool := false       -- R471 PIN has fallen in that beat, and the stop ends with it; reset 0
  coolLogged : Bool := false    -- R472 0x9007 logged; reset 0
  queue : List Nat := []        -- R466 queued wake requests by wake index, ascending; reset none
  granted : Nat := 0            -- R466 PWR_WAKE_STAT.GRANTED; reset 0
  waiting : Nat := 0            -- R466 PWR_WAKE_STAT.WAITING; reset 0
  l3 : L3State := .none         -- R472, R478 an L3 under way; reset none
deriving DecidableEq, Repr

/-- What the part sends: to peers on a port, to a host, or on the management side. -/
inductive Msg where
  | marker (image : List Byte)
  | verdict (image : List Byte)
  | again (p : Nat)
  | nak (p : Nat) (lseq : Nat)
  | notPosted (p : Nat) (tag : Nat)
  | flit (p : Nat) (f : Flit)
  | takeover (lid : Nat) (c : Nat)
  | msix (fn : Nat) (vec : Nat)
  | windowData (fn : Nat) (data : List Byte) (ep : Bool)
  | windowUR (fn : Nat)
  | windowCA (fn : Nat)
  | hostWrite (fn : Nat) (bus : Nat) (data : List Byte) (ro : Bool)
  | hostRead (fn : Nat) (bus : Nat) (len : Nat)
  | mgmt (r : Reply)
deriving DecidableEq, Repr

/-- A scratch byte that changed in this clk (R51): its key, what it held before, and the transfer that changed it, 0 for none. -/
structure OldByte where
  key : Nat
  byte : Byte
  owner : Nat
deriving DecidableEq, Repr

/-- The RT-1440. -/
structure State where
  variant : Variant := .h8               -- R2, R4 the part as assembled; reset -8H DESIGN CHOICE
  beat : Beat := {}                      -- R18 beat generator
  cfg : CfgSt := {}                      -- R405 RW-S registers
  rwi : List (Nat × Word) := []          -- R412 RW-I registers in effect that differ from reset, by BAR0 offset; reset none
  rwiNew : List (Nat × Word) := []       -- R412 RW-I registers written in this clk, in effect from the next; reset none
  old : List OldByte := []               -- R51 scratch bytes changed in this clk, as they stood before it; reset none
  hub : Hub := {}                        -- R300 hub
  arbs : SMap Arb := []                  -- R306 arbiters, by arbiter number (R308)
  tiles : SMap Tile := []                -- R50 96 tiles
  ctxs : SMap Ctx := []                  -- R355 16 contexts
  fns : SMap Fn := []                    -- R354 16 functions
  hports : SMap HPort := []              -- R353 host ports A and B
  units : SMap UnitSt := []              -- R437 units by wake index and beyond
  mem : List Host.Cell := []             -- R235 bytes of SCRATCH, BANK, BULK and CELLAR; an unlisted byte reads 0
  poison : List Nat := []                -- R264 poisoned 16-byte words, rising; reset none
  hdrs : SMap Word := []                 -- R219 slot headers by 4 KiB slot of a device address, packed ones in CELLAR; reset 0 (PLAIN)
  hdrPoison : List Nat := []             -- R231, R264 slots whose header is poisoned, rising; reset none
  place : SMap PEntry := []              -- R241 placement table by LGN; reset unused
  mig : Mig := {}                        -- R251 migration engine and tracker
  ras : Ras := {}                        -- R262 S4 counters and retirement
  xfers : List Xfer := []                -- R46 tracked transfers, oldest first; reset none
  upds : List Upd := []                  -- R188 updates; reset none
  contribs : List Contrib := []          -- R181 contributions not yet combined; reset none
  rsigs : List RSig := []                -- R69 remote signals in flight, oldest first; reset none
  heldWrites : List HeldWrite := []      -- R362 posted window writes not landed, oldest first; reset none
  ports : SMap LPort := []               -- R315 link ports
  board : Board := {}                    -- R323 board
  cel : Cellar := {}                     -- R272 cellar
  evt : Evt := {}                        -- R423 event log and recovery
  boot : Boot := {}                      -- R397 bundles and security
  pwr : Pwr := {}                        -- R420 power
  outbox : List Msg := []                -- what the part has sent, oldest first; reset none
  pending : List Instr := []             -- MODEL queue of the commands that wait, first in first out; reset empty
deriving DecidableEq, Repr

/-- The part right after reset (R409, and the Reset columns of the register tables): every field at its default above.
Power has not been applied; POWER_ON runs the power-up order of R463. -/
def State.reset : State := {}

end Sys2Proof.Machine
end

