-- ==== Sys2Proof/Machine/Regs.lean ====
section
/-! DEFINITION. The RW-S and RW-I registers of BAR0 (R11, R405, R406, R412): which offsets they have, which bits are
fields, their reset values and strobe groups; the value in effect; the variant's fitted units (R4). -/

namespace Sys2Proof.Machine

/-! ### Fitted units (R2, R4, Table 00-3) -/

/-- GLB_CAP (Table 00-3). -/
def capWord : Variant → Nat
  | .h8 => 0x1060122037FFFFFF
  | .h6 => 0x1160122037FF3F3F
  | .n8 => 0x1260120033FFFFFF
  | .s8 => 0x13601220350FFFFF

/-- GLB_CAP.VARIANT. -/
def variantNo : Variant → Nat
  | .h8 => 0
  | .h6 => 1
  | .n8 => 2
  | .s8 => 3

/-- Stack Bn is fitted. -/
def stackFitted (v : Variant) (n : Nat) : Bool := bitOf (bits (capWord v) 0 8) n
/-- Port Pn is fitted. -/
def portFitted (v : Variant) (n : Nat) : Bool := n < 8 && bitOf (bits (capWord v) 16 8) n
/-- The cellar is fitted. -/
def cellarFitted (v : Variant) : Bool := bitOf (capWord v) 26
/-- The fitted stacks, ascending (R238). -/
def stacksOf (v : Variant) : List Nat := (List.range 8).filter (stackFitted v)
/-- The fitted link ports. -/
def portsOf (v : Variant) : List Nat := (List.range 8).filter (portFitted v)

/-! ### RW-S registers -/

/-- Strobe group, mask of the RW-S bits and reset value of an RW-S register (Table 17-2 and the tables it names). -/
structure RwsInfo where
  group : Nat
  mask : Nat
  reset : Nat
deriving DecidableEq, Repr

/-- BAR0 offset of LNK_REMAP (Table 13-6). -/
def offLnkRemap : Nat := 0x1080008

/-- The RW-S register at a BAR0 offset; `modKeep` is the bundle's MOD_KEEP (R420). Registers of absent units are none
(R7). -/
def rwsInfo (v : Variant) (modKeep : Bool) (off : Nat) : Option RwsInfo :=
  if off = 0x100 then some ⟨0, 0x0FFFFFFF, 0x00102EE0⟩
  else if off = 0x200008 then some ⟨1, 1, b2n modKeep⟩
  else if off = 0x200010 then some ⟨1, 0xFFFF, 0x00C0⟩
  else if off = 0x400008 then some ⟨2, 0x1FF, 0x108⟩
  else if off = 0x400100 then some ⟨2, 0xFF, 0x40⟩
  else if off = 0x400108 then some ⟨2, 0xFFFFFFFF, 1⟩
  else if off = offLnkRemap then some ⟨3, 0xFFFFFFFFF, 0xFFFFFFFFF⟩
  else if 0x1000000 ≤ off ∧ off < 0x1800000 then
    if portFitted v ((off - 0x1000000) / 0x100000) then
      if off % 0x100000 = 8 then some ⟨3, 0xFFFF0003, 0x00400003⟩
      else if 0x1000 ≤ off % 0x100000 ∧ off % 0x100000 < 0x1200 ∧ off % 8 = 0 then some ⟨3, 0x7FFFFFFFFF, 0⟩
      else none
    else none
  else if off = 0x1810008 ∨ off = 0x1810108 then some ⟨4, 7, 1⟩
  else if off = 0x801000 then some ⟨5, 0xFFFFFFFFFF, 0x8 + 0x4 * 2 ^ 4 + 0x100 * 2 ^ 8 + 0x80 * 2 ^ 24 + 0x10 * 2 ^ 34 + 2 ^ 39⟩
  else if off = 0x801010 then some ⟨5, 0xFFFFFFFF, 0x80102020⟩
  else if off = 0x801028 then some ⟨5, 0xFFFFFFFF, 0x180C2010⟩
  else if off = 0x1C00000 then
    if cellarFitted v then some ⟨6, 0xFFFFFFFFFFFF, 0x0C840 * 2 ^ 28 + 0x0B4 * 2 ^ 16 + 0x8507⟩ else none
  else if off = 0x1C00008 then
    if cellarFitted v then some ⟨6, 0x1FFFFFFFFFFFF, 2 ^ 48 + 0x800 * 2 ^ 24 + 0x4600⟩ else none
  else if off = 0x3801010 then some ⟨7, 0xFFFF03, 0x030003⟩
  else none

/-- The offsets of group n's registers on a part, ascending (R413). -/
def groupRegs (v : Variant) (n : Nat) : List Nat :=
  if n = 0 then [0x100]
  else if n = 1 then [0x200008, 0x200010]
  else if n = 2 then [0x400008, 0x400100, 0x400108]
  else if n = 3 then
    (portsOf v).flatMap (fun p =>
      [0x1000008 + 0x100000 * p] ++ (List.range 64).map (fun k => 0x1001000 + 0x100000 * p + 8 * k) ++
        (if p = 0 then [offLnkRemap] else []))
  else if n = 4 then [0x1810008, 0x1810108]
  else if n = 5 then [0x801000, 0x801010, 0x801028]
  else if n = 6 then (if cellarFitted v then [0x1C00000, 0x1C00008] else [])
  else if n = 7 then [0x3801010]
  else []

/-- The information of an RW-S register on this part. -/
def State.rws (s : State) (off : Nat) : Option RwsInfo := rwsInfo s.variant s.boot.active.modKeep off

/-- Reset value of an RW-S register (0 for none). -/
def State.rwsReset (s : State) (off : Nat) : Nat :=
  match s.rws off with
  | some i => i.reset
  | none => 0

/-- The value in effect of an RW-S register (R405): what the hardware uses and reads return. -/
def State.eff (s : State) (off : Nat) : Nat := (smGet (BitVec.ofNat 64 (s.rwsReset off)) s.cfg.eff off).toNat

/-- The shadow of an RW-S register as a strobe in this clk finds it: the pending write, else the value in effect. -/
def State.shadowOf (s : State) (off : Nat) : Nat :=
  match s.cfg.shadow.find? (fun p => p.1 = off) with
  | some p => p.2.toNat
  | none => s.eff off

/-- The shadow of an RW-S register with this clk's writes (R408). -/
def State.shadowNow (s : State) (off : Nat) : Nat :=
  match s.cfg.shadowNew.find? (fun p => p.1 = off) with
  | some p => p.2.toNat
  | none => s.shadowOf off

/-- Group n's CRC over values in effect (R413). A group with no fields present reads 0. -/
def State.cfgCrc (s : State) (n : Nat) : Nat :=
  let regs := groupRegs s.variant n
  if regs = [] then 0 else crc32c (regs.flatMap (fun off => toBytes 4 off ++ toBytes 8 (s.eff off)))

/-! ### Fields of the values in effect -/

/-- BEAT_CTL.PERIOD, at least 2,048 (R19). -/
def State.period (s : State) : Nat := max 2048 (bits (s.eff 0x100) 0 16)
/-- BEAT_CTL.STRETCH. -/
def State.stretch (s : State) : Nat := bits (s.eff 0x100) 16 8
/-- BEAT_CTL.SOURCE. -/
def State.source (s : State) : Nat := bits (s.eff 0x100) 24 2
/-- BEAT_CTL.ENABLE. -/
def State.beatEnable (s : State) : Bool := bitOf (s.eff 0x100) 26
/-- BEAT_CTL.BEAT_OUT_EN. -/
def State.beatOutEn (s : State) : Bool := bitOf (s.eff 0x100) 27
/-- PWR_CFG.MOD_KEEP. -/
def State.modKeep (s : State) : Bool := bitOf (s.eff 0x200008) 0
/-- PWR_WAKE_BUDGET.AMPS, at least 10 (R420). -/
def State.wakeAmps (s : State) : Nat := max 10 (bits (s.eff 0x200010) 0 16)
/-- HUB_CFG.RETRAIN_MAX. -/
def State.retrainMax (s : State) : Nat := bits (s.eff 0x400008) 0 8
/-- HUB_CFG.RING_EN. -/
def State.ringEn (s : State) : Bool := bitOf (s.eff 0x400008) 8
/-- ARB_AGE_LIMIT.LIMIT. -/
def State.ageLimit (s : State) : Nat := bits (s.eff 0x400100) 0 8
/-- ARB_SEED.SEED. -/
def State.arbSeed (s : State) : Nat := bits (s.eff 0x400108) 0 32
/-- MIG_CFG (Table 10-6). -/
def State.migCfg (s : State) : Nat := s.eff 0x801000
/-- TRK_CFG. -/
def State.trkCfg (s : State) : Nat := s.eff 0x801010
/-- TIER_RAS_CFG. -/
def State.rasCfg (s : State) : Nat := s.eff 0x801028
/-- CEL_CFG. -/
def State.celCfg (s : State) : Nat := s.eff 0x1C00000
/-- CEL_WRITE_BUDGET. -/
def State.celBudget (s : State) : Nat := s.eff 0x1C00008
/-- EVT_CFG. -/
def State.evtCfg (s : State) : Nat := s.eff 0x3801010
/-- LNK_PCFG of port p. -/
def State.lnkPcfg (s : State) (p : Nat) : Nat := s.eff (0x1000008 + 0x100000 * p)
/-- LNK_SLOT_k of port p. -/
def State.lnkSlot (s : State) (p k : Nat) : Nat := s.eff (0x1001000 + 0x100000 * p + 8 * k)
/-- LNK_REMAP.PORT_L: the port that reaches logical ID L; 0xF none. -/
def State.portOfLid (s : State) (l : Nat) : Nat := bits (s.eff offLnkRemap) (4 * l) 4
/-- LNK_REMAP.SPORT. -/
def State.sparePort (s : State) : Nat := bits (s.eff offLnkRemap) 32 4
/-- PCI_PCFG_x. -/
def State.pciPcfg (s : State) (x : Nat) : Nat := s.eff (0x1810008 + 0x100 * x)

/-! ### RW-I registers (R412) -/

/-- Mask and reset value of an RW-I register. -/
structure RwiInfo where
  mask : Nat
  reset : Nat
deriving DecidableEq, Repr

/-- The RW-I register at a BAR0 offset. MSI-X entries reset masked, as PCIe has it (PRESUMED, log entry 12). -/
def rwiInfo (v : Variant) (off : Nat) : Option RwiInfo :=
  if off % 8 ≠ 0 then none
  else if 0x2000000 ≤ off ∧ off < 0x3800000 then
    if off % 0x40000 = 0x10 then some ⟨0xFFFFFF, 0x040808⟩ else none
  else if 0x401000 ≤ off ∧ off < 0x4010B0 then
    if v = .s8 ∧ (off - 0x401000) / 0x10 = 7 then none
    else if off % 0x10 = 0 then
      (if v = .s8 then some ⟨0xFFFF00FFFFFFFFFF, 0x0404000808080808⟩ else some ⟨0xFFFFFFFFFFFFFFFF, 0x0404080808080808⟩)
    else some ⟨0xFFFFFFFF, 0x01080802⟩
  else if 0x1800000 ≤ off ∧ off < 0x1810000 then
    if off % 0x1000 = 8 then some ⟨0x3FFFF * 2 ^ 30, 0⟩
    else if 0x100 ≤ off % 0x1000 ∧ off % 0x1000 < 0x200 then
      (if off % 0x10 = 0 then some ⟨0xFFFFFFFFFFC0, 0⟩ else some ⟨0x1FFFFFFFFFF, 0⟩)
    else none
  else if 0x100200 ≤ off ∧ off < 0x100280 then some ⟨0x1FFFFFFFF, 0⟩
  else if 0x1820000 ≤ off ∧ off < 0x1830000 then
    if off % 0x1000 < 0x400 then
      (if off % 0x10 = 0 then some ⟨0xFFFFFFFFFFFFFFFF, 0⟩ else some ⟨0x1FFFFFFFF, 0x100000000⟩)
    else none
  else none

/-- The reset value of an RW-I register. -/
def State.rwiReset (s : State) (off : Nat) : Nat :=
  match rwiInfo s.variant off with
  | some i => i.reset
  | none => 0

/-- The value in effect of an RW-I register. -/
def State.rwiGet (s : State) (off : Nat) : Nat := (smGet (BitVec.ofNat 64 (s.rwiReset off)) s.rwi off).toNat

/-- The value of an RW-I register as the latest write leaves it. -/
def State.rwiNow (s : State) (off : Nat) : Nat :=
  match s.rwiNew.find? (fun p => p.1 = off) with
  | some p => p.2.toNat
  | none => s.rwiGet off

/-- Write an RW-I register, its reserved bits aside (R10): the value takes effect in the next clk (R412). -/
def State.rwiSet (s : State) (off x : Nat) : State :=
  match rwiInfo s.variant off with
  | none => s
  | some i => { s with rwiNew := (off, BitVec.ofNat 64 (x &&& i.mask)) :: s.rwiNew.filter (fun p => p.1 != off) }


/-- Tickets of stream `st` of tile t (R65). -/
def State.tileTickets (s : State) (t st : Nat) : Nat := bits (s.rwiGet (0x2000010 + 0x40000 * t)) (8 * st) 8
/-- Tickets of requester n at hub port p (Table 12-6). -/
def State.hubTickets (s : State) (p n : Nat) : Nat :=
  if n < 8 then bits (s.rwiGet (0x401000 + 0x10 * p)) (8 * n) 8
  else bits (s.rwiGet (0x401008 + 0x10 * p)) (8 * (n - 8)) 8
/-- WIN_BASE.BASE × 2^30 of function f: a request received after a write of it, in the same clk too, meets the new base (R359). -/
def State.winBase (s : State) (f : Nat) : Nat := s.rwiNow (0x1800008 + 0x1000 * f)
/-- WIN_FLAGA_n of function f. -/
def State.winFlagA (s : State) (f n : Nat) : Nat := s.rwiGet (0x1800100 + 0x1000 * f + 0x10 * n)
/-- WIN_FLAGB_n of function f. -/
def State.winFlagB (s : State) (f n : Nat) : Nat := s.rwiGet (0x1800108 + 0x1000 * f + 0x10 * n)
/-- CFG_REF_n. -/
def State.cfgRef (s : State) (n : Nat) : Nat := s.rwiGet (0x100200 + 8 * n)
/-- The groups whose CFG_REF_n.EN is 1. -/
def State.refsOn (s : State) : Nat := (List.range 16).foldl (fun a n => if bitOf (s.cfgRef n) 32 then a + 2 ^ n else a) 0
/-- What was written to RW-I registers takes effect; MISMATCH of a group whose EN it clears clears with it (R412, R414). -/
def State.rwiTake (s : State) : State :=
  let s : State := { s with rwi := s.rwiNew.foldr (fun p m => smSet (BitVec.ofNat 64 (s.rwiReset p.1)) m p.1 p.2) s.rwi, rwiNew := [] }
  { s with cfg := { s.cfg with mismatch := s.cfg.mismatch &&& BitVec.ofNat 16 s.refsOn } }
/-- Vector v of function f is masked (R369). -/
def State.vecMasked (s : State) (f v : Nat) : Bool := bitOf (s.rwiGet (0x1820008 + 0x1000 * f + 0x10 * v)) 32

end Sys2Proof.Machine
end

