-- ==== Sys2Proof/Machine/Ops.lean ====
section
/-! DEFINITION. The named operations over the state that every command shares: the parts of the state by number, the
steps in flight, the event log (R422-R427), MSI-X (R369), requests for an abort (R35, R88), and the outbox. -/

namespace Sys2Proof.Machine

/-! ### Parts of the state by number -/

/-- Tile t. -/
def State.tile (s : State) (t : Nat) : Tile := smGet {} s.tiles t
/-- Tile t changed by f. -/
def State.modTile (s : State) (t : Nat) (f : Tile → Tile) : State := { s with tiles := smMod {} s.tiles t f }
/-- Context c. -/
def State.ctx (s : State) (c : Nat) : Ctx := smGet {} s.ctxs c
/-- Context c changed by f. -/
def State.modCtx (s : State) (c : Nat) (f : Ctx → Ctx) : State := { s with ctxs := smMod {} s.ctxs c f }
/-- The steps of context c changed by f. -/
def State.modStep (s : State) (c : Nat) (f : StepSt → StepSt) : State := s.modCtx c (fun x => { x with step := f x.step })
/-- Function f. -/
def State.fn (s : State) (f : Nat) : Fn := smGet {} s.fns f
/-- Function f changed by g. -/
def State.modFn (s : State) (f : Nat) (g : Fn → Fn) : State := { s with fns := smMod {} s.fns f g }
/-- Host port x. -/
def State.hport (s : State) (x : Nat) : HPort := smGet {} s.hports x
/-- Host port x changed by f. -/
def State.modHport (s : State) (x : Nat) (f : HPort → HPort) : State := { s with hports := smMod {} s.hports x f }
/-- Unit u (numbers as unitKey gives). -/
def State.unit (s : State) (u : Nat) : UnitSt := smGet {} s.units u
/-- Unit u changed by f. -/
def State.modUnit (s : State) (u : Nat) (f : UnitSt → UnitSt) : State := { s with units := smMod {} s.units u f }
/-- Link port p. -/
def State.port (s : State) (p : Nat) : LPort := smGet {} s.ports p
/-- Link port p changed by f. -/
def State.modPort (s : State) (p : Nat) (f : LPort → LPort) : State := { s with ports := smMod {} s.ports p f }
/-- Arbiter a. -/
def State.arb (s : State) (a : Nat) : Arb := smGet {} s.arbs a
/-- Arbiter a changed by f. -/
def State.modArb (s : State) (a : Nat) (f : Arb → Arb) : State := { s with arbs := smMod {} s.arbs a f }

/-- The units of tile t serve nobody: its in-flight instructions are gone. -/
def State.freeUnits (s : State) (t : Nat) : State :=
  { s with arbs := smMap {} s.arbs (fun a x => if (a - 16) / 3 = t ∧ 16 ≤ a then { x with grant := none } else x) }

/-- The number under which State.units holds a unit: the wake index of R466 for those that wake. -/
def unitKey : UnitId → Nat
  | .stack n => n
  | .kiln n => 8 + n
  | .tile t => 16 + t
  | .port p => 112 + p
  | .channel c => 128 + c
  | .cond n => 160 + n
  | .tset k => 192 + k
  | .context c => 224 + c
  | .function f => 256 + f

/-- Stream number: 0 F, 1 B, 2 U (R81). -/
def streamNo : Stream → Nat
  | .F => 0
  | .B => 1
  | .U => 2

/-- The stream of a number. -/
def streamOf : Nat → Stream
  | 0 => .F
  | 1 => .B
  | _ => .U

/-- The sequencer of a stream. -/
def Tile.seq (x : Tile) : Stream → Seq
  | .F => x.seqF
  | .B => x.seqB
  | .U => x.seqU

/-- A tile with one sequencer changed. -/
def Tile.modSeq (x : Tile) (st : Stream) (f : Seq → Seq) : Tile :=
  match st with
  | .F => { x with seqF := f x.seqF }
  | .B => { x with seqB := f x.seqB }
  | .U => { x with seqU := f x.seqU }

/-- The sequencer of tile t's stream st. -/
def State.seq (s : State) (t : Nat) (st : Stream) : Seq := (s.tile t).seq st
/-- That sequencer changed by f. -/
def State.modSeq (s : State) (t : Nat) (st : Stream) (f : Seq → Seq) : State := s.modTile t (fun x => x.modSeq st f)

/-- The context that owns tile t, by its tile set (R13, R356). -/
def State.tileCtx (s : State) (t : Nat) : Option Nat :=
  (List.range 16).find? (fun c => (s.ctx c).st != .closed && bitOf (s.ctx c).tsets.toNat (t / 4))

/-- The context that function f owns (R355). -/
def State.fnCtx (s : State) (f : Nat) : Option Nat :=
  (List.range 16).find? (fun c =>
    (s.ctx c).st == .isOpen && match (s.ctx c).owner with
      | some o => o.val == f
      | none => false)

/-- The tiles of context c (R13, R356), ascending. -/
def State.ctxTiles (s : State) (c : Nat) : List Nat := (List.range 96).filter (fun t => bitOf (s.ctx c).tsets.toNat (t / 4))

/-- The tiles that take part in context c's program (R389). -/
def State.progTiles (s : State) (c : Nat) : List Nat :=
  match (s.ctx c).prog with
  | some p => p.tiles
  | none => []

/-- A stream has passed SYNC.COMMIT_POINT of step n. -/
def Seq.passedCommit (q : Seq) (n : Nat) : Bool := q.plen == 0 || decide (n < q.stepNo) || (q.stepNo == n && q.committed)

/-- Every stream of every participating tile has passed its commit point of step n. -/
def State.allCommitted (s : State) (c n : Nat) : Bool :=
  (s.progTiles c).all (fun t => [Stream.F, .B, .U].all (fun st => (s.seq t st).passedCommit n))

/-- No update of step n is outstanding, parked or being re-run (R202). -/
def State.shardsDone (s : State) (c n : Nat) : Bool := s.upds.all (fun u => u.ctx != c || u.step != n || u.stage == .done)

/-- Function f exists (R354). -/
def State.fnExists (s : State) (f : Nat) : Bool :=
  f < 16 && (f % 8 == 0 || ((s.hport (f / 8)).vfEnable && decide (f % 8 ≤ (s.hport (f / 8)).numVfs)))

/-- The clk within the beat (R18). -/
def State.clk (s : State) : Nat := s.beat.now - s.beat.tickClk

/-- This module's logical ID for sums and combining: a standalone module counts as 0 (DEDUCED, log entry 13). -/
def State.ownLid (s : State) : Nat := if s.board.lid = 0xE then 0 else s.board.lid

/-- The module is standalone (R349). -/
def State.standalone (s : State) : Bool := s.board.lid == 0xE
/-- The module is the spare (R349). -/
def State.isSpare (s : State) : Bool := s.board.lid == 0xF

/-- The logical IDs taking part in context c (R349 LNK_PART); a standalone module alone. -/
def State.participants (s : State) (c : Nat) : List Nat :=
  if s.standalone then [0] else bitList 8 (smGet 0 s.board.part c).toNat

/-- Send a message. -/
def State.send (s : State) (m : Msg) : State := { s with outbox := s.outbox ++ [m] }

/-! ### Steps in flight (R25, R27) -/

/-- The steps in flight: the one that waits to commit, then the open one. -/
def StepSt.flight (k : StepSt) : List Nat :=
  (if k.pending then [k.stepNo - 1] else []) ++ (if k.opened then [k.stepNo] else [])

/-- The step that opens next. -/
def StepSt.nextStep (k : StepSt) : Nat := if k.waitOpen then k.stepNo else k.stepNo + 1

/-- The earliest step that an abort takes: the lowest of the steps its causes name; a cause that names none, or an abort that only a
peer asked for, takes the earliest in flight (DEDUCED, log entry 26). -/
def StepSt.abortFrom (k : StepSt) : Option Nat :=
  match k.flight with
  | [] => none
  | n :: _ =>
    let named := (k.causes.filterMap (·.step)).filter (fun m => k.flight.contains m)
    if k.causes.isEmpty || k.causes.any (fun x => x.step == none) then some n else some (named.foldl min (named.headD n))

/-- The steps that an abort takes (R28). -/
def StepSt.abortSteps (k : StepSt) : List Nat :=
  match k.abortFrom with
  | some lo => k.flight.filter (fun n => decide (lo ≤ n))
  | none => []

/-- The beat number of a step in flight (R25). -/
def StepSt.beatOf (k : StepSt) (step : Nat) : Nat :=
  if k.opened && step == k.stepNo then k.beatNo
  else if k.pending && step + 1 == k.stepNo then k.pendBeat else 0

/-- The part is powered, its clock runs (R475) and no L3 holds it. -/
def State.live (s : State) : Bool := s.pwr.powered && s.pwr.clkOk && s.pwr.l3 == .none

/-- The effect f where the part is powered and no L3 holds it; a part without power does nothing (log entry 5). -/
def whenLive (s : State) (f : State → State) : State := if s.live then f s else s

/-! ### MSI-X (R369) -/

/-- Raise a vector of a function: pending while masked, discarded while the port is down (R370). -/
def State.msix (s : State) (f vec : Nat) : State :=
  if !s.fnExists f || !(s.hport (f / 8)).up then s
  else if s.vecMasked f vec then s.modFn f (fun x => { x with pba := x.pba ||| BitVec.ofNat 64 (2 ^ vec) })
  else s.send (.msix f vec)

/-- Send the pending vectors of function f that are no longer masked. -/
def State.flushPba (s : State) (f : Nat) : State :=
  (List.range 64).foldl (fun s v =>
    if bitOf (s.fn f).pba.toNat v && !s.vecMasked f v then
      (s.modFn f (fun x => { x with pba := x.pba &&& ~~~ BitVec.ofNat 64 (2 ^ v) })).msix f v
    else s) s

/-- The functions whose MSI-X table has been written in this clk. -/
def State.msixWritten (s : State) : List Nat :=
  (List.range 16).filter (fun f => s.rwiNew.any (fun p => decide (0x1820000 + 0x1000 * f ≤ p.1) && decide (p.1 < 0x1821000 + 0x1000 * f)))

/-! ### The event log (R423-R426) -/

/-- Whether function f may read an entry (R424). -/
def State.mayRead (s : State) (f : Nat) (e : Event) : Bool :=
  f % 8 == 0 || e.fn == f || (match e.ctx with
    | some c => s.fnCtx f == some c
    | none => false)

/-- Whether an entry raises vector 1 of function f (R424). -/
def State.raisesVec1 (s : State) (f : Nat) (e : Event) : Bool :=
  s.mayRead f e &&
    (f % 8 != 0 || e.fn == f || decide (16 ≤ e.fn) || (match e.ctx with
      | some c => s.fnCtx f == some c
      | none => false))

/-- Write an entry: the next number, the ring of 65,536, the class counter, the persistent ring (R426) and vector 1. -/
def State.logEvent (s : State) (code : Nat) (ctx : Option Nat) (fn level unitKind unitNo info : Nat) : State :=
  let e : Event := { seq := s.evt.next, code := BitVec.ofNat 16 code, ctx := ctx, fn := fn, level := level,
                     tick := s.beat.tick % 2 ^ 32, unitKind := unitKind, unitNo := unitNo, info := BitVec.ofNat 96 info }
  let cl := code / 4096
  let s := { s with evt := { s.evt with
      next := s.evt.next + 1, log := (e :: s.evt.log).take 65536,
      nor := if 2 ≤ level ∨ 8 ≤ cl then (e :: s.evt.nor).take 32768 else s.evt.nor,
      cls := smMod 0 s.evt.cls cl (fun n => satAdd (2 ^ 48 - 1) n 1) } }
  (List.range 16).foldl (fun s f => if s.raisesVec1 f e then s.msix f 1 else s) s

/-- A device event: up to three fields of 32 bits (Table 18-3). -/
def State.logDev (s : State) (code : Nat) (ctx : Option Nat) (info : Nat := 0) : State :=
  s.logEvent code ctx 31 0 0 0 info

/-- A tile event: stream, PC, sequence number and the rule's own field (Table 18-3). -/
def State.logTile (s : State) (code : Nat) (ctx : Option Nat) (t : Nat) (st : Stream) (pc seq x : Nat) : State :=
  s.logEvent code ctx 31 0 1 t
    (streamNo st + 2 ^ 8 * (pc % 2 ^ 24) + 2 ^ 32 * (seq % 2 ^ 32) + 2 ^ 64 * (x % 2 ^ 32))

/-- A recovery level is taken (R428). -/
def State.logLevel (s : State) (level : Nat) (ctx : Option Nat) (fn cause : Nat) : State :=
  s.logEvent 0xA031 ctx fn level 0 0 cause

/-! ### Requests for an abort (R35, R88) -/

/-- Insert a cause in the order of R88: first in time, then no tile before the lowest tile, then F, B, U. -/
def insertCause (l : List Cause) (x : Cause) : List Cause :=
  match l with
  | [] => [x]
  | y :: r => if x.clk < y.clk ∨ x.clk = y.clk ∧ x.place < y.place then x :: y :: r else y :: insertCause r x

/-- Ask for an abort of a step of context c. A cause that concerns no step in flight asks for nothing (DEDUCED, log
entry 14). -/
def State.requestAbort (s : State) (c code : Nat) (step : Option Nat) (place : Nat) (retry : Bool) : State :=
  let k := (s.ctx c).step
  let live := match step with
    | some n => k.flight.contains n
    | none => !k.flight.isEmpty
  let x : Cause := ⟨BitVec.ofNat 16 code, step, s.beat.now, place, retry⟩
  if live then s.modStep c (fun k => { k with causes := insertCause k.causes x }) else s

/-- The place of a stream in the order of R88. -/
def placeOf (t : Nat) (st : Stream) : Nat := 1 + 4 * t + streamNo st

/-- Every context with a step in flight asks for an abort. -/
def State.abortAll (s : State) (code : Nat) (retry : Bool) : State :=
  (List.range 16).foldl (fun s c => s.requestAbort c code none 0 retry) s

/-- The hub's epoch advances; at its wrap it takes 1 and marks every unit shut down with its state kept (R437). -/
def State.advanceEpoch (s : State) : State :=
  if s.evt.hubEpoch.toNat = 2 ^ 32 - 1 then
    { s with evt := { s.evt with hubEpoch := 1 },
             units := smMap {} s.units (fun _ u => if u.kept then { u with wrap := true } else u) }
  else { s with evt := { s.evt with hubEpoch := s.evt.hubEpoch + 1 } }

end Sys2Proof.Machine
end

