-- ==== Sys2Proof/Machine/Mem.lean ====
section
/-! DEFINITION. Memory: one byte map over SCRATCH, BANK, BULK and CELLAR, S4 poison by 16-byte word (R264), and the
translation of context addresses through regions and the placement table (R235-R246). -/

namespace Sys2Proof.Machine

/-! ### The byte map -/

/-- A byte and whether it comes from a poisoned word. -/
abbrev MByte := Byte × Bool

/-- The canonical form of memory: addresses strictly rising, no entry equal to what an unlisted address reads as. -/
abbrev Memory.wf (m : List Host.Cell) : Bool := smWf (0 : Byte) m

/-- The byte at a memory key; an unlisted byte reads 0 (R245; DESIGN CHOICE for SCRATCH, log entry 4). -/
def memRead (m : List Host.Cell) (a : Nat) : Byte := smGet 0 m a

/-- The map with a byte written. -/
def memWrite (m : List Host.Cell) (a : Nat) (b : Byte) : List Host.Cell := smSet 0 m a b

/-- The map with bytes written from address a upward. -/
def memWriteList (m : List Host.Cell) (a : Nat) : List Byte → List Host.Cell
  | [] => m
  | b :: r => memWriteList (memWrite m a b) (a + 1) r

/-- The map with the bytes lo ≤ a < hi at 0. -/
def memZero (m : List Host.Cell) (lo hi : Nat) : List Host.Cell := smErase m lo hi

/-- The n bytes from key a. -/
def State.rd (s : State) (a n : Nat) : List Byte := (List.range n).map (fun i => memRead s.mem (a + i))

/-- The little-endian number in the n bytes from key a. -/
def State.rdNat (s : State) (a n : Nat) : Nat := ofBytes (s.rd a n)

/-- Whether any 16-byte word of the n bytes from key a is poisoned. -/
def State.poisoned (s : State) (a n : Nat) : Bool := s.poison.any (fun w => decide (a / 16 ≤ w) && decide (16 * w < a + n))

/-- Write bytes from key a. A poisoned word all of whose bytes are written becomes good; one of which fewer bytes are
written stays poisoned (R264). -/
def State.wr (s : State) (a : Nat) (l : List Byte) : State :=
  { s with mem := memWriteList s.mem a l,
           poison := s.poison.filter (fun w => !(decide (a ≤ 16 * w) && decide (16 * w + 16 ≤ a + l.length))) }

/-- Write bytes whose source was poisoned: every destination word becomes poisoned (R265). -/
def State.wrPoison (s : State) (a : Nat) (l : List Byte) : State :=
  { s with mem := memWriteList s.mem a l,
           poison := setAddRange s.poison (a / 16) ((a + l.length + 15) / 16 - a / 16) }

/-- Zero the bytes lo ≤ a < hi and clear their poison. -/
def State.zero (s : State) (lo hi : Nat) : State :=
  { s with mem := memZero s.mem lo hi, poison := s.poison.filter (fun w => !(decide (lo ≤ 16 * w) && decide (16 * w < hi))) }

/-! ### A read and a write in one clk (R51) -/

/-- Memory as it stood before this clk's changes of scratch. -/
def State.memBefore (s : State) : List Host.Cell := s.old.foldl (fun m o => memWrite m o.key o.byte) s.mem

/-- The state as an instruction or a transfer of this clk reads it: bytes that another one changed in the clk read as before (R51). -/
def State.asBefore (s : State) : State := { s with mem := s.memBefore, old := [] }

/-- The bytes in which two canonical memories differ, as they stand in the first; `fuel` is at least the sum of their lengths. -/
def memDiff : Nat → List Host.Cell → List Host.Cell → List Host.Cell
  | 0, _, _ => []
  | _ + 1, [], b => b.map (fun p => (p.1, 0))
  | _ + 1, a, [] => a
  | n + 1, p :: r, q :: t =>
    if p.1 < q.1 then p :: memDiff n r (q :: t)
    else if q.1 < p.1 then (q.1, 0) :: memDiff n (p :: r) t
    else if p.2 = q.2 then memDiff n r t else p :: memDiff n r t

/-- The scratch bytes in which memory b differs from memory a, as they stand in a. Scratch keys lie below 2^32. -/
def changedBytes (a b : List Host.Cell) : List Host.Cell :=
  (memDiff (a.length + b.length + 1) a b).filter (fun p => decide (p.1 < 2 ^ 32))

/-- What was done on `s.asBefore` came to r: of the bytes that read as before, those it did not change hold again what the clk's earlier
changes left; its own changes are noted, for `owner`. -/
def State.afterAll (s r : State) (owner : Nat) : State :=
  let ch := changedBytes s.memBefore r.mem
  let hidden := s.old.filter (fun o => !ch.any (fun p => p.1 == o.key))
  { r with
      mem := hidden.foldl (fun m o => memWrite m o.key (memRead s.mem o.key)) r.mem,
      old := s.old ++ (ch.filter (fun p => !s.old.any (fun o => o.key == p.1))).map (fun p => OldByte.mk p.1 p.2 owner) }

/-- Write bytes of scratch outside such work: reads of the clk still see the bytes that changed as they were (R51). -/
def State.wrClk (s : State) (a : Nat) (l : List Byte) : State :=
  let new (i : Nat) : Bool := decide (a + i < 2 ^ 32) && memRead s.mem (a + i) != l.getD i 0 && !s.old.any (fun o => o.key == a + i)
  { s.wr a l with old := s.old ++ ((List.range l.length).filter new).map (fun i => OldByte.mk (a + i) (memRead s.mem (a + i)) 0) }

/-- The bytes that a transfer changed are visible: it is consumed (R60). -/
def State.visible (s : State) (owner : Nat) : State := { s with old := s.old.filter (fun o => o.owner != owner) }

/-! ### Keys -/

/-- The scratch window's first address (R53). -/
def scratchBase : Nat := 0xFFF000000000
/-- The first address past the scratch window (R53, R235). -/
def scratchTop : Nat := 0xFFF0D0000000
/-- Memory key of scratch unit address su (R54). -/
def suKey (su : Nat) : Nat := 32 * su
/-- Memory key of local scratch offset o of tile t (R54). -/
def localKey (t o : Nat) : Nat := 32 * (t * 0x100000 + o)
/-- Memory key of a byte of a frame: its device address (R237). -/
def daKey (tier frame b : Nat) : Nat := tier * 2 ^ 46 + frame * 2 ^ 21 + b
/-- The bytes of a granule, and of a frame. -/
def granule : Nat := 2 ^ 21

/-- Whether the byte at offset o of the scratch window is populated (R53). -/
def scratchPopulated (o : Nat) : Bool :=
  if o < 0xC0000000 then decide (o % 0x2000000 < 0x1400000)
  else decide (o < 0xD0000000) && decide ((o - 0xC0000000) % 0x4000000 < 0x2000000)

/-- Whether context c may reach the byte at offset o of the scratch window (R55, R56): a scratchpad of its own tiles, or
a die-pool piece it owns. -/
def State.scratchOwned (s : State) (c o : Nat) : Bool :=
  if o < 0xC0000000 then bitOf (s.ctx c).tsets.toNat (o / 0x2000000 / 4)
  else bitOf (((s.ctx c).pools.getD ((o - 0xC0000000) / 0x4000000) 0).toNat) ((o - 0xC0000000) % 0x4000000 / 0x100000)

/-- Whether every byte of a scratch extent is populated and owned by context c. Extents lie within one unit. -/
def State.scratchOk (s : State) (c o n : Nat) : Bool :=
  n == 0 || ((List.range ((n + 0xFFFFF) / 0x100000 + 1)).all (fun i =>
    let b := min (o + i * 0x100000) (o + n - 1)
    scratchPopulated b && s.scratchOwned c b))

/-- Whether the extent of n bytes at offset o of the scratch window overlaps tile t's cask arena (R164, R166). -/
def State.inArena (s : State) (t o n : Nat) : Bool :=
  let k := (s.tile t).cask
  n != 0 && k.aunits != 0 && decide (o < localKey t k.abase + 65536 * k.aunits) && decide (localKey t k.abase < o + n)

/-- Whether an ME or VC operand extent of tile t lies where R55 allows: the tile's own scratchpad, or pieces of its die
pool that its context owns, outside the tile's arena. -/
def State.unitOk (s : State) (t c o n : Nat) : Bool :=
  n == 0 || !s.inArena t o n && ((List.range ((n + 0xFFFFF) / 0x100000 + 1)).all (fun i =>
    let b := min (o + i * 0x100000) (o + n - 1)
    scratchPopulated b &&
      (decide (b / 0x2000000 = t) && decide (b < 0xC0000000) ||
        decide (0xC0000000 ≤ b) && decide ((b - 0xC0000000) / 0x4000000 = t / 24) && s.scratchOwned c b)))

/-! ### Regions and placement -/

/-- The placement entry of a logical granule. -/
def State.pent (s : State) (lgn : Nat) : PEntry := smGet {} s.place lgn
/-- The placement entry changed by f. -/
def State.modPent (s : State) (lgn : Nat) (f : PEntry → PEntry) : State := { s with place := smMod {} s.place lgn f }

/-- The region of context c that holds granule g (R236). -/
def State.regionOf (s : State) (c g : Nat) : Option Region :=
  (s.ctx c).regions.find? (fun r => decide (r.gbase ≤ g) && decide (g < r.gbase + r.gcnt))

/-- The logical granule number of granule g of a region (R236). -/
def Region.lgn (r : Region) (g : Nat) : Nat := r.lgn0 + (g - r.gbase)

/-- Where a context address leads. -/
inductive Where where
  | unmapped
  | scratch (key : Nat)
  | host (bus : Nat)
  | mem (lgn : Nat) (key : Nat)
deriving DecidableEq, Repr

/-- The translation of context address ca of context c (R235, R242, R363). -/
def State.translate (s : State) (c ca : Nat) : Where :=
  if scratchBase ≤ ca then (if ca < scratchTop then .scratch (ca - scratchBase) else .unmapped)
  else match s.regionOf c (ca / granule) with
    | none => .unmapped
    | some r =>
      if r.host then .host (r.bus.getD (ca / granule - r.gbase) 0 + ca % granule)
      else .mem (r.lgn (ca / granule))
             (daKey (s.pent (r.lgn (ca / granule))).tier (s.pent (r.lgn (ca / granule))).loc (ca % granule))

/-- The logical granules that the extent of n bytes from ca touches, in order; none where it leaves mapped memory. -/
def State.lgnsOf (s : State) (c ca n : Nat) : Option (List Nat) :=
  if n = 0 then some [] else
  (List.range ((ca + n - 1) / granule - ca / granule + 1)).foldr (fun i acc =>
    match acc, s.regionOf c (ca / granule + i) with
    | some l, some r => if r.host then none else some (r.lgn (ca / granule + i) :: l)
    | _, _ => none) (some [])

/-- Whether every byte of the extent has backing: a region, or populated scratch that the context owns (R246, R56). -/
def State.mappedOk (s : State) (c ca n : Nat) : Bool :=
  if n = 0 then true
  else if scratchBase ≤ ca then decide (ca + n ≤ scratchTop) && s.scratchOk c (ca - scratchBase) n
  else decide (ca + n ≤ scratchBase) &&
    (List.range ((ca + n - 1) / granule - ca / granule + 1)).all (fun i => (s.regionOf c (ca / granule + i)).isSome)

/-- Whether the byte at ca lies in a host region. -/
def State.isHost (s : State) (c ca : Nat) : Bool :=
  decide (ca < scratchBase) && (match s.regionOf c (ca / granule) with
    | some r => r.host
    | none => false)

/-! ### Dies and the hub (R13, R238, R301, R304) -/

/-- QSTATE of quadrant q. -/
def State.qst (s : State) (q : Nat) : Nat := smGet 0 s.hub.qstate q

/-- A quadrant's die sends its hub traffic over the ring: RETRAIN or OUT (R301). -/
def State.onRing (s : State) (q : Nat) : Bool := s.qst q == 1 || s.qst q == 2

/-- The ring sides of die q, one bit each: side n joins dies n and n + 1 modulo 4 (R297). -/
def ownSides (q : Nat) : Nat := 2 ^ q ||| 2 ^ ((q + 3) % 4)

/-- The ring sides by which a die in bypass reaches a NORMAL neighbour (R301). -/
def State.openSides (s : State) (q : Nat) : Nat :=
  if !s.onRing q || !s.ringEn then 0
  else (if s.qst ((q + 1) % 4) = 0 then 2 ^ q else 0) ||| (if s.qst ((q + 3) % 4) = 0 then 2 ^ ((q + 3) % 4) else 0)

/-- How a request of die q reaches the hub: its bridge, a ring side and the neighbour's bridge, or not at all. -/
inductive HubRoute where
  | bridge
  | side (n : Nat)
  | cut
deriving DecidableEq, Repr

/-- The route of a request of die q to destination address a: with two sides, bit 12 of the address alternates between them (R301): 1 takes the
higher-numbered one (DESIGN CHOICE, log entry 106). A response returns by the side of its request. -/
def State.hubRoute (s : State) (q a : Nat) : HubRoute :=
  if s.qst q = 0 then .bridge
  else
    match bitList 4 (smGet 0 s.hub.sides q &&& ownSides q) with
    | [] => .cut
    | [n] => .side n
    | n :: m :: _ => if bitOf a 12 then .side m else .side n

/-- The stack of a BANK frame (R238). -/
def bankStack (v : Variant) (f : Nat) : Nat := (stacksOf v).getD (f % (stacksOf v).length) 0

/-- A frame whose stack's die cannot reach the hub is out of service (R304). -/
def State.frameCut (s : State) (tier f : Nat) : Bool := tier == 1 && s.hubRoute (bankStack s.variant f / 2) 0 == .cut

/-- The byte at ca cannot be reached: a transaction for it through the hub fails (R304). -/
def State.caCut (s : State) (c ca : Nat) : Bool :=
  match s.translate c ca with
  | .mem lgn _ => s.frameCut (s.pent lgn).tier (s.pent lgn).loc
  | _ => false

/-- The byte a read of ca gives: 0 in a FRESH granule (R245), and 0 where nothing backs it. -/
def State.rdCaByte (s : State) (c ca : Nat) : Byte :=
  match s.translate c ca with
  | .scratch k => memRead s.mem k
  | .mem lgn k => if (s.pent lgn).fresh then 0 else memRead s.mem k
  | _ => 0

/-- Whether the 16-byte word that holds ca reads poisoned: it is, or the request for it fails (R304; DEDUCED, log entry 107). -/
def State.caPoison (s : State) (c ca : Nat) : Bool :=
  match s.translate c ca with
  | .scratch k => s.poisoned k 1
  | .mem lgn k => s.caCut c ca || !(s.pent lgn).fresh && s.poisoned k 1
  | _ => false

/-- The n bytes from ca. -/
def State.rdCa (s : State) (c ca n : Nat) : List Byte := (List.range n).map (fun i => s.rdCaByte c (ca + i))

/-- Whether any byte of the extent is poisoned. -/
def State.rdCaPoison (s : State) (c ca n : Nat) : Bool := (List.range n).any (fun i => s.caPoison c (ca + i))

/-- The pieces of an extent, cut at granule ends: pairs of first byte and length. -/
def granulePieces (ca n : Nat) : List (Nat × Nat) :=
  if n = 0 then [] else
  (List.range ((ca + n - 1) / granule - ca / granule + 1)).map (fun i =>
    let lo := max ca ((ca / granule + i) * granule)
    (lo, min (ca + n) ((ca / granule + i + 1) * granule) - lo))

/-- Set the POISON bit of the granule's entry (R264). -/
def State.markPoison (s : State) (lgn : Nat) : State := s.modPent lgn (fun e => { e with poison := true })

/-- The zero fill of a FRESH granule's frame: it holds zero, and FRESH clears (R245). -/
def State.zeroFill (s : State) (lgn : Nat) : State :=
  (s.zero (daKey (s.pent lgn).tier (s.pent lgn).loc 0) (daKey (s.pent lgn).tier (s.pent lgn).loc granule)).modPent lgn
    (fun e => { e with fresh := false, filling := false })

/-- Write bytes at ca of context c where they have backing in SCRATCH, BANK or BULK; poison travels when asked. The
granule is no longer FRESH: its frame was zero before (R245). A write that fails is dropped (R304). -/
def State.wrCaPiece (s : State) (c ca : Nat) (l : List Byte) (poison : Bool) : State :=
  match s.translate c ca with
  | .scratch k => if poison then s.wrPoison k l else s.wr k l
  | .mem lgn k =>
    if s.caCut c ca then s else
    let s := if (s.pent lgn).fresh then s.zeroFill lgn else s
    if poison then (s.wrPoison k l).markPoison lgn else s.wr k l
  | _ => s

/-- Write bytes from ca upward, piece by granule. -/
def State.wrCa (s : State) (c ca : Nat) (l : List Byte) (poison : Bool := false) : State :=
  (granulePieces ca l.length).foldl (fun s p => s.wrCaPiece c p.1 ((l.drop (p.1 - ca)).take p.2) poison) s

end Sys2Proof.Machine
end

