-- ==== Sys2Proof/Machine/Operands.lean ====
section
/-! DEFINITION. Operand forms: what each operation's word may hold (Table 03-5), descriptor pointers (R72), descriptors
and their checks (R76-R79), and the semaphore, scratch and context-address operands. -/

namespace Sys2Proof.Machine

/-- What Table 03-5 gives an operation: class, code, the streams it may stand in (bit 0 F, 1 B, 2 U), whether OPA points
at a descriptor, and the bits of OPA, OPB and OPC that are not reserved. -/
structure OpInfo where
  cls : Nat
  op : Nat
  streams : Nat
  desc : Bool
  mA : Nat
  mB : Nat
  mC : Nat
deriving DecidableEq, Repr

/-- The bits of a descriptor pointer that are not reserved (Table 03-4). -/
def descMask : Nat := 0x070FFFFF

def opNop : OpInfo := ⟨0, 0, 7, false, 0, 0, 0⟩
def opJump : OpInfo := ⟨0, 1, 7, false, 0, 0, 0xFFFFFF⟩
def opCall : OpInfo := ⟨0, 2, 7, false, 0, 0, 0xFFFFFF⟩
def opRet : OpInfo := ⟨0, 3, 7, false, 0, 0, 0⟩
def opLoop : OpInfo := ⟨0, 4, 7, false, 0, 0xFFFFFF, 0xFFFFFF⟩
def opPrefetch : OpInfo := ⟨0, 5, 7, false, 0, 0x1FF, 0xFFFFFF⟩
def opWaitBeat : OpInfo := ⟨1, 0, 7, false, 0, 0, 0xFFFFFFFF⟩
def opCommitPoint : OpInfo := ⟨1, 1, 7, false, 0, 0, 0⟩
def opSemSet : OpInfo := ⟨1, 2, 7, false, 0, 0xFF, 0xFFFF⟩
def opSemSignal : OpInfo := ⟨1, 3, 7, false, 0, 0xFF, 0xFFFF⟩
def opSemWait : OpInfo := ⟨1, 4, 7, false, 0, 0xFF, 0xFFFF⟩
def opSemRemote : OpInfo := ⟨1, 5, 7, false, 0, 0x7FFF, 0xFFFF⟩
def opDmaRead : OpInfo := ⟨2, 0, 7, true, descMask, 0, 0⟩
def opDmaWrite : OpInfo := ⟨2, 1, 7, true, descMask, 0, 0⟩
def opDmaCopy : OpInfo := ⟨2, 2, 7, true, descMask, 0, 0⟩
def opDmaFill : OpInfo := ⟨2, 3, 7, true, descMask, 0, 0xFFFFFFFF⟩
def opDmaWait : OpInfo := ⟨2, 4, 7, true, descMask, 0, 0⟩
def opMm : OpInfo := ⟨3, 0, 3, true, descMask, 0, 0⟩
def opMmOvw : OpInfo := ⟨3, 1, 3, true, descMask, 0, 0⟩
def opMmDrain : OpInfo := ⟨3, 2, 3, true, descMask, 0xFFFFF, 0⟩
def opAccZero : OpInfo := ⟨3, 3, 3, false, 0, 1, 0⟩
def opChainRun : OpInfo := ⟨4, 0, 7, true, descMask, 0, 0⟩
def opChainRunAcc : OpInfo := ⟨4, 1, 7, true, descMask, 1, 0⟩
def opLinkSend : OpInfo := ⟨5, 0, 6, true, descMask, 0, 0⟩
def opRecvPost : OpInfo := ⟨5, 1, 6, true, descMask, 0, 0⟩
def opLinkWait : OpInfo := ⟨5, 2, 6, true, descMask, 0, 0⟩
def opScalarReduce : OpInfo := ⟨5, 3, 4, true, descMask, 0, 0⟩
def opKilnUpdate : OpInfo := ⟨6, 0, 4, true, descMask, 0, 0⟩
def opKilnWait : OpInfo := ⟨6, 1, 4, true, descMask, 0, 0⟩
def opCaskPut : OpInfo := ⟨7, 0, 3, true, descMask, 0, 0⟩
def opCaskGet : OpInfo := ⟨7, 1, 2, true, descMask, 0, 0⟩
def opCaskRelease : OpInfo := ⟨7, 2, 2, true, descMask, 0, 0⟩

/-- The operations of Table 03-5. -/
def opTable : List OpInfo :=
  [opNop, opJump, opCall, opRet, opLoop, opPrefetch, opWaitBeat, opCommitPoint, opSemSet, opSemSignal, opSemWait, opSemRemote] ++
  [opDmaRead, opDmaWrite, opDmaCopy, opDmaFill, opDmaWait, opMm, opMmOvw, opMmDrain, opAccZero, opChainRun, opChainRunAcc] ++
  [opLinkSend, opRecvPost, opLinkWait, opScalarReduce, opKilnUpdate, opKilnWait, opCaskPut, opCaskGet, opCaskRelease]

/-- The word's CLASS and OP are an operation's (R71). -/
def OpInfo.isOf (k : OpInfo) (w : Insn) : Bool := k.cls == w.cls.toNat && k.op == w.op.toNat

/-- Table 03-5 lists the word's CLASS and OP (R73). -/
def opListed (w : Insn) : Bool := opTable.any (·.isOf w)

/-- Whether the word holds a non-zero reserved bit, or the operation is not listed for the stream (R75, R85). -/
def illegalWord (k : OpInfo) (st : Stream) (w : Insn) : Bool :=
  w.rsv || !bitOf k.streams (streamNo st) ||
  (w.opa.toNat &&& k.mA) != w.opa.toNat || (w.opb.toNat &&& k.mB) != w.opb.toNat || (w.opc.toNat &&& k.mC) != w.opc.toNat

/-- LSEL of a descriptor pointer (Table 03-4). -/
def lsel (w : Insn) : Nat := bits w.opa.toNat 24 3
/-- DOFF of a descriptor pointer. -/
def doff (w : Insn) : Nat := bits w.opa.toNat 0 20

/-! ### Descriptors (R76-R79) -/

/-- The end of a scratchpad in local scratch offsets (R54). -/
def scratchEnd : Nat := 655360

/-- Lines of a descriptor by its header: DLEN + 1 (Table 03-6). -/
def descLines (h : Nat) : Nat := bits h 16 2 + 1

/-- The 64-bit header of the descriptor at local offset o of tile t. -/
def State.descHeader (s : State) (t o : Nat) : Nat := s.rdNat (localKey t o) 8

/-- The effective pointer of OPA (R72): the first descriptor's offset, stepped by the index of the selected loop. -/
def State.descPtr (s : State) (t : Nat) (w : Insn) (loops : List LoopLevel) : Nat :=
  if lsel w = 0 then doff w
  else doff w + (loops.getD (lsel w - 1) {}).idx * 2 * descLines (s.descHeader t (doff w))

/-- A fault: its code and XINFO. -/
structure DFault where
  code : Nat
  xinfo : Nat
deriving DecidableEq, Repr

/-- Whether an address lies in the scratch window. -/
def inScratch (ca : Nat) : Bool := decide (scratchBase ≤ ca) && decide (ca < scratchTop)

/-- One operand row at a context address, of an instruction of tile t: 0x4012 for scratch that the context may not reach or that
overlaps the tile's cask arena, 0x2004 for an address no region covers
(R55, R56, R166, R246). -/
def State.rowReach (s : State) (t c ca n : Nat) : Option DFault :=
  if inScratch ca then (if s.mappedOk c ca n && !s.inArena t (ca - scratchBase) n then none else some ⟨0x4012, 0⟩)
  else if s.mappedOk c ca n then none else some ⟨0x2004, 0⟩

/-- Whether the extent of n bytes at offset o of the scratch window meets the directory of a tile's cask, which the device alone writes
(R166). -/
def State.inDirectory (s : State) (o n : Nat) : Bool :=
  n != 0 && s.tiles.any (fun p => p.2.cask.aunits != 0 && decide (o < localKey p.1 p.2.cask.abase + 65536) &&
    decide (localKey p.1 p.2.cask.abase < o + n))

/-- One destination row at a context address: as any operand row, and outside every cask's directory (DEDUCED, log entry 95). -/
def State.rowWrite (s : State) (t c ca n : Nat) : Option DFault :=
  if inScratch ca && s.inDirectory (ca - scratchBase) n then some ⟨0x4012, 0⟩ else s.rowReach t c ca n

/-- The first fault of a list of checks. -/
def firstFault : List (Option DFault) → Option DFault
  | [] => none
  | some f :: _ => some f
  | none :: r => firstFault r

/-- Lowest byte offset among the failing fields: pairs of a byte offset and whether the field there fails. -/
def lowestFail : List (Nat × Bool) → Option Nat
  | [] => none
  | (b, bad) :: r =>
    match lowestFail r with
    | none => if bad then some b else none
    | some x => if bad then some (min b x) else some x

/-- The descriptor at local offset o of tile t, as a number of 512 × lines bits. -/
def State.descBits (s : State) (t o : Nat) : Nat := s.rdNat (localKey t o) (64 * descLines (s.descHeader t o))

/-- DCHK of a descriptor: CRC-16 of its bytes with bits [39:24] taken as zero (R77). -/
def descCrc (d lines : Nat) : Nat := crc16 (toBytes (64 * lines) (setBits d 24 16 0))

/-- The checks of R79 up to the body, in their order. `ops` are the DOP values allowed; `step0` is the first descriptor's
offset where the pointer is stepped. -/
def State.descCheck (s : State) (t o : Nat) (cls : Nat) (ops : List Nat) (step0 : Option Nat) : Option DFault :=
  let first := step0.getD o
  if first % 2 = 1 ∨ o % 2 = 1 ∨ scratchEnd < first + 2 ∨ scratchEnd < o + 2 ∨ scratchEnd < o + 2 * descLines (s.descHeader t o) then
    some ⟨0x4012, 0⟩
  else
    let h := s.descHeader t o
    let d := s.descBits t o
    if bits h 0 4 ≠ cls ∨ !ops.contains (bits h 4 8) then some ⟨0x4011, 0⟩
    else if bits h 12 4 ≠ 1 then some ⟨0x4011, 1⟩
    else if bits h 18 6 ≠ 0 then some ⟨0x4011, 2⟩
    else if bits h 41 7 ≠ 0 then some ⟨0x4011, 5⟩
    else if bitOf h 40 ∧ bits h 24 16 ≠ descCrc d (descLines h) then some ⟨0x4011, 3⟩
    else match step0 with
      | some f => if descLines (s.descHeader t f) ≠ descLines h then some ⟨0x4011, 2⟩ else none
      | none => none

/-- A body fault at the lowest failing field (R79). -/
def bodyFault (l : List (Nat × Bool)) : Option DFault := (lowestFail l).map (fun b => ⟨0x4011, b⟩)

/-- The field of a descriptor at bits [lo+n-1 : lo]. -/
def dfield (d lo n : Nat) : Nat := bits d lo n

/-- Reserved fields of a body: (lowest bit, width). A non-zero one fails at its first byte (R10). -/
def rsvFields (d : Nat) (l : List (Nat × Nat)) : List (Nat × Bool) := l.map (fun p => (p.1 / 8, dfield d p.1 p.2 != 0))

end Sys2Proof.Machine
end

