-- ==== Sys2Proof/Machine/Flags.lean ====
section
/-! DEFINITION. The numeric counts (R132-R134), completion records (R80-R82), and the semaphores with the order of R68
and the replay of R37. -/

namespace Sys2Proof.Machine

/-! ### Counts (Table 05-6) -/

/-- The sum of two sets of counts. -/
def Counts.plus (a b : Counts) : Counts :=
  ⟨a.inv + b.inv, a.sat + b.sat, a.flush + b.flush, a.ovf + b.ovf, a.cmp + b.cmp⟩

/-- The tile counters add the exact counts, saturating at 2^48 − 1 (R133). -/
def Tile.addCounts (x : Tile) (c : Counts) : Tile :=
  let m := 2 ^ 48 - 1
  { x with invCnt := satAdd m x.invCnt c.inv, satCnt := satAdd m x.satCnt c.sat, flushCnt := satAdd m x.flushCnt c.flush,
           ovfCnt := satAdd m x.ovfCnt c.ovf, cmpCnt := satAdd m x.cmpCnt c.cmp }

/-! ### The exception locator (R107, R108) -/

/-- One invalid operation of clk `now`: captured while VALID is 0, else it sets MORE. The locator remembers the first of the latest clk
with one, for a re-arm of that clk (R108). -/
def XLoc.capture (l : XLoc) (now : Nat) (e : XCap) : XLoc :=
  let first := match l.late with
    | some p => p.1 != now
    | none => true
  let l := if first then { l with late := some (now, e), lateMore := false } else { l with lateMore := true }
  if l.valid then { l with more := true } else { l with cap := e, valid := true, more := false }

/-- A completed read of TILE_XLOC1 in clk `now` re-arms the locator; an invalid operation of that clk is captured after it (R107, R108). -/
def XLoc.rearm (l : XLoc) (now : Nat) : XLoc :=
  match l.late with
  | some (k, e) => if k = now then { l with cap := e, valid := true, more := l.lateMore } else { l with valid := false, more := false }
  | none => { l with valid := false, more := false }

/-! ### Completion records -/

/-- The 256 bits of a completion record (Table 03-7); each count saturates at 0xFFFF (R81, R134). -/
def recordBits (st : Stream) (crlog2 used : Nat) (x : InFlight) : Nat :=
  let sat (n : Nat) : Nat := min n 0xFFFF
  x.seq % 2 ^ 32 + x.status.toNat * 2 ^ 32 + streamNo st * 2 ^ 48 + b2n x.retry * 2 ^ 50 +
  (1 - x.seq / 2 ^ crlog2 % 2) * 2 ^ 51 + x.cls * 2 ^ 52 + x.op * 2 ^ 56 + min used 0xFFFFFFFF * 2 ^ 64 +
  x.step % 2 ^ 32 * 2 ^ 96 + sat x.counts.inv * 2 ^ 128 + sat x.counts.sat * 2 ^ 144 + sat x.counts.flush * 2 ^ 160 +
  sat x.counts.ovf * 2 ^ 176 + sat x.counts.cmp * 2 ^ 192 + sat x.xinfo * 2 ^ 208 + x.pc % 2 ^ 24 * 2 ^ 224

/-- Where a stream's record of sequence number n goes: slot n mod 2^CRLOG2 of its ring (R80). -/
def recordKey (t : Nat) (q : Seq) (n : Nat) : Nat := localKey t (q.crbase + n % 2 ^ q.crlog2)

/-- Write the completion record of an instruction if REC is set (R80, R82). -/
def State.writeRecord (s : State) (t : Nat) (st : Stream) (x : InFlight) (used : Nat) : State :=
  if x.rcd then
    let q := s.seq t st
    s.wrClk (recordKey t q x.seq) (toBytes 32 (recordBits st q.crlog2 used x))
  else s

/-! ### Program faults (R85, R86) -/

/-- The codes that the maltster retries (Table 02-4, R265). -/
def retryable (code : Nat) : Bool := code == 0x4001 || code == 0x4004 || code == 0x2002

/-- A program fault of tile t's stream st (R86): the stream stops, the code is logged and recorded, the step aborts. -/
def State.progFault (s : State) (t : Nat) (st : Stream) (x : InFlight) (code xinfo used : Nat) : State :=
  let c := s.tileCtx t
  let x := { x with status := BitVec.ofNat 16 code, xinfo := xinfo }
  let s := s.modSeq t st (fun q => { q with faulted := true, faultCode := BitVec.ofNat 16 code, held := false, waiting := false })
  let s := s.logTile code c t st x.pc x.seq 0
  let s := s.writeRecord t st x used
  match c with
  | some c => s.requestAbort c code (some x.step) (placeOf t st) (retryable code)
  | none => s

/-! ### Semaphores (R67-R70) -/

/-- The value of semaphore n of tile t. -/
def State.sem (s : State) (t n : Nat) : Nat := (smGet 0 (s.tile t).sems n).toNat

/-- The place of an operation within its clk (R68): every SEM_SET, the higher stream last; then the signals; then the
waits in stream order. -/
def SemOp.rank (o : SemOp) : Nat :=
  match o.act with
  | .set => o.stream
  | .signal => 4
  | .wait => 5 + o.stream

/-- Whether operation a comes before or with b. -/
def SemOp.before (a b : SemOp) : Bool := decide (a.clk < b.clk ∨ a.clk = b.clk ∧ a.rank ≤ b.rank)

/-- Insert an operation at its place. -/
def insertOp (l : List SemOp) (o : SemOp) : List SemOp := l.takeWhile (·.before o) ++ [o] ++ l.dropWhile (·.before o)

/-- The value a semaphore takes by one operation (R67, R70, R37: a wait leaves it at zero at the least). -/
def replaySem (v : Nat) (o : SemOp) : Nat :=
  match o.act with
  | .set => o.v
  | .signal => satAdd 0xFFFF v o.v
  | .wait => v - o.v

/-- The values before this clk's operations. -/
def Tile.clkStart (x : Tile) (now : Nat) : SMap (BitVec 16) := if x.semOps.any (·.clk == now) then x.semStart else x.sems
/-- This clk's operations. -/
def Tile.clkOps (x : Tile) (now : Nat) : List SemOp := x.semOps.filter (·.clk == now)

/-- The operations of this clk become `ops`: semaphore n takes the value that they give in the order of R68. -/
def Tile.setOps (x : Tile) (now n : Nat) (ops : List SemOp) : Tile :=
  let start := x.clkStart now
  { x with sems := smSet 0 x.sems n (BitVec.ofNat 16 ((ops.filter (·.n == n)).foldl replaySem (smGet 0 start n).toNat)),
           semStart := start, semOps := ops }

/-- An operation takes place, and every snapshot notes it (R37). -/
def Tile.putOp (x : Tile) (o : SemOp) : Tile :=
  let y := x.setOps o.clk o.n (insertOp (x.clkOps o.clk) o)
  { y with snaps := x.snaps.map (fun p => { p with ops := insertOp p.ops o }) }

/-- Whether an operation is a SEM_WAIT of this clk on semaphore n. -/
def SemOp.waitOf (now n : Nat) (o : SemOp) : Bool := o.act == .wait && o.n == n && o.clk == now

/-- The tests on semaphore n that passed in this clk are to be held again, because another operation of the clk comes before them: the
streams wait as they did. -/
def Tile.holdTests (x : Tile) (now n : Nat) : Tile :=
  let back (y : InFlight) : InFlight := match y.wait with
    | .passed m v k => if m = n ∧ k = now then { y with wait := .sem n v } else y
    | _ => y
  let go (q : Seq) : Seq := { q with inflight := q.inflight.map back }
  let y := x.setOps now n ((x.clkOps now).filter (fun o => !o.waitOf now n))
  { y with snaps := x.snaps.map (fun p => { p with ops := p.ops.filter (fun o => !o.waitOf now n) }),
           seqF := go x.seqF, seqB := go x.seqB, seqU := go x.seqU }

/-- The SEM_WAIT that a stream waits in, if any: its sequence number, semaphore, value and step. -/
def Seq.semWait (q : Seq) : Option (Nat × Nat × Nat × Nat) :=
  q.inflight.findSome? (fun x => match x.wait with
    | .sem n v => some (x.seq, n, v, x.step)
    | _ => none)

/-- A SEM_WAIT holds the stream: it waits, or has passed in this clk (R67). -/
def Seq.semHeld (q : Seq) (now : Nat) : Bool :=
  q.inflight.any (fun x => match x.wait with
    | .sem _ _ => true
    | .passed _ _ k => k == now
    | _ => false)

/-- An in-flight instruction changed by its sequence number. -/
def Seq.modFl (q : Seq) (seq : Nat) (f : InFlight → InFlight) : Seq :=
  { q with inflight := q.inflight.map (fun x => if x.seq = seq then f x else x) }

/-- Serve one stream's waiting SEM_WAIT if its test passes: test and subtraction in one clk (R67). -/
def Tile.serveSem (now : Nat) (x : Tile) (st : Stream) : Tile :=
  match (x.seq st).semWait with
  | none => x
  | some (seq, n, v, step) =>
    if v ≤ (smGet 0 x.sems n).toNat then
      (x.putOp { n := n, act := .wait, v := v, step := some step, clk := now, stream := streamNo st }).modSeq st (fun q =>
        { q.modFl seq (fun y => { y with wait := .passed n v now }) with waiting := false })
    else (x.modSeq st (fun q => { q with waiting := true }))

/-- Waiting SEM_WAITs are served in stream order F, B, U (R68). -/
def Tile.serveSems (now : Nat) (x : Tile) : Tile := ((x.serveSem now .F).serveSem now .B).serveSem now .U

/-- The tests on semaphore n in this clk, held in the order of R68 after every set and signal of the clk. -/
def Tile.testSems (x : Tile) (now n : Nat) : Tile := (x.holdTests now n).serveSems now

/-- A set or a signal takes place, and the tests of its clk are held after it (R68). -/
def Tile.semOp (x : Tile) (o : SemOp) : Tile := ((x.holdTests o.clk o.n).putOp o).serveSems o.clk

/-- SEM_SET of a stream writes a value (R67). -/
def State.semSet (s : State) (t : Nat) (st : Stream) (n v step : Nat) : State :=
  s.modTile t (fun x => x.semOp { n := n, act := .set, v := v, step := some step, clk := s.beat.now, stream := streamNo st })

/-- A signal adds a value and saturates at 0xFFFF (R67, R70). -/
def State.semAdd (s : State) (t n v : Nat) (step : Option Nat) (src : Option (Nat × Stream)) : State :=
  s.modTile t (fun x => x.semOp { n := n, act := .signal, v := v, step := step, clk := s.beat.now, src := src })

/-- The signals to semaphore n in this clk. -/
def Tile.signalsOf (x : Tile) (now n : Nat) : List SemOp := (x.clkOps now).filter (fun o => o.act == .signal && o.n == n)

/-- Whether the sum of this clk's signals carries semaphore n past 0xFFFF, from the value that the clk's sets leave (R68, R70). -/
def Tile.semOver (x : Tile) (now n : Nat) : Bool :=
  let sets := (x.clkOps now).filter (fun o => o.act == .set && o.n == n)
  decide (0xFFFF < (x.signalsOf now n).foldl (fun a o => a + o.v) (sets.foldl replaySem (smGet 0 (x.clkStart now) n).toNat))

/-- A stream faults with 0x4013: a signal of step `step` that it sent carried a semaphore past 0xFFFF (R70). -/
def State.semFault (s : State) (t : Nat) (st : Stream) (step : Option Nat) : State :=
  let q := s.seq t st
  if q.faulted then s
  else s.progFault t st { seq := q.seqNo, pc := q.pc, clk := s.beat.now, step := step.getD q.stepNo, retry := q.retry } 0x4013 0 0

/-- Every stream whose signal is in a sum past 0xFFFF faults, but for the one at work (R70; DEDUCED for a sum of several, log entry
46). -/
def State.semFaults (s : State) (t n : Nat) (own : Option (Nat × Stream)) : State :=
  if (s.tile t).semOver s.beat.now n then
    (((s.tile t).signalsOf s.beat.now n).filter (fun o => o.src != own)).foldl (fun s o => match o.src with
      | some (t', st) => s.semFault t' st o.step
      | none => s) s
  else s

/-- The semaphores of a tile at an abort of the steps from lo on (R37). -/
def Tile.restoreSems (x : Tile) (lo : Nat) : Tile :=
  match x.snaps.find? (fun p => p.step == lo) with
  | none => x
  | some p =>
    let kept := p.ops.filter (fun o => match o.step with
      | none => true
      | some n => decide (n < lo))
    let vals := kept.foldl (fun (m : SMap (BitVec 16)) o => smSet 0 m o.n (BitVec.ofNat 16 (replaySem (smGet 0 m o.n).toNat o))) p.vals
    { x with sems := vals, semStart := [], semOps := [], snaps := x.snaps.filter (fun q => decide (q.step < lo)) }

end Sys2Proof.Machine
end

