-- ==== Sys2Proof/Machine/Codec.lean ====
section
/-! DEFINITION. Exponent compression (R215-R230): stream formats, canonical codes, building a grist table, coding a
block and decoding it with its checks. -/

namespace Sys2Proof.Machine

/-! ### Stream formats (Table 09-1) -/

/-- Is the code a stream format. -/
def sfOk (f : Nat) : Bool := f < 5 || f == 0xA
/-- Element width of a stream format; bytes for 0xA. -/
def sfW (f : Nat) : Nat := if f = 0 then 32 else if f = 1 ∨ f = 2 then 16 else 8
/-- Exponent bits. -/
def sfE (f : Nat) : Nat := if f = 0 ∨ f = 1 then 8 else if f = 2 ∨ f = 4 then 5 else if f = 3 then 4 else 0
/-- Elements in a full block. -/
def sfFull (f : Nat) : Nat := 32768 / sfW f
/-- Symbol of an element: its exponent field (R215). -/
def sfSym (f x : Nat) : Nat := bits x (sfW f - 1 - sfE f) (sfE f)
/-- Raw part of an element: its sign bit, then its mantissa bits (R215). -/
def sfRaw (f x : Nat) : Nat :=
  let m := sfW f - 1 - sfE f
  bits x (sfW f - 1) 1 * 2 ^ m + bits x 0 m
/-- The element of a symbol and a raw part. -/
def sfJoin (f sym raw : Nat) : Nat :=
  let m := sfW f - 1 - sfE f
  bits raw m 1 * 2 ^ (sfW f - 1) + sym * 2 ^ m + bits raw 0 m

/-! ### Grist tables (R221-R225) -/

/-- LEN[s] of a table; an EMPTY table has no codes. -/
def Grist.len (g : Grist) (s : Nat) : Nat := if g.ready then smGet 0 g.lens s else 0

/-- Byte i of the LEN part of the table image (Table 09-3). -/
def Grist.lenByte (g : Grist) (i : Nat) : Byte := BitVec.ofNat 8 (smGet 0 g.lens (2 * i) + 16 * smGet 0 g.lens (2 * i + 1))

/-- TCHK: CRC-16 over byte 0, then bytes 8 to 135 of the image. -/
def Grist.tchk (g : Grist) : Nat := crc16 (BitVec.ofNat 8 g.tfmt :: (List.range 128).map g.lenByte)

/-- The 136-byte image (Table 09-3). -/
def Grist.image (g : Grist) : List Byte :=
  toBytes 2 g.tfmt ++ toBytes 2 g.tchk ++ toBytes 4 0 ++ (List.range 128).map g.lenByte

/-- The coded symbols in ascending (LEN, s), with their lengths. -/
def Grist.order (g : Grist) : List (Nat × Nat) :=
  (List.range 12).flatMap (fun i => ((g.lens.filter (fun p => p.2 == i + 1)).map (fun p => (i + 1, p.1))))

/-- Canonical codes from the lengths (R224): (length, code, symbol). -/
def codesAux (l : List (Nat × Nat)) (code prev : Nat) : List (Nat × Nat × Nat) :=
  match l with
  | [] => []
  | (n, s) :: r => (n, code * 2 ^ (n - prev), s) :: codesAux r (code * 2 ^ (n - prev) + 1) n

/-- The codes of a READY table. -/
def Grist.codes (g : Grist) : List (Nat × Nat × Nat) := if g.ready then codesAux g.order 0 0 else []

/-- Σ 2^(12 − LEN) over the coded symbols (R223, R225). -/
def kraft (lens : SMap Nat) : Nat := lens.foldl (fun a p => if p.2 = 0 then a else a + 2 ^ (12 - p.2)) 0

/-- A node of the build: weight, key, and the leaves below it with their depths. -/
structure BNode where
  weight : Nat
  key : Nat
  leaves : List (Nat × Nat)
deriving DecidableEq, Repr

/-- Insert a node in ascending (weight, key). -/
def insertNode (l : List BNode) (x : BNode) : List BNode :=
  match l with
  | [] => [x]
  | y :: r => if x.weight < y.weight ∨ x.weight = y.weight ∧ x.key < y.key then x :: y :: r else y :: insertNode r x

/-- Merge the two least nodes until one remains (R223). -/
def mergeNodes (fuel j : Nat) (l : List BNode) : List (Nat × Nat) :=
  match fuel, l with
  | k + 1, x :: y :: r =>
    mergeNodes k (j + 1) (insertNode r ⟨x.weight + y.weight, 256 + j, (x.leaves ++ y.leaves).map (fun p => (p.1, p.2 + 1))⟩)
  | _, x :: _ => x.leaves
  | _, [] => []

/-- The symbol with the largest LEN below 12, the highest on ties (R223). -/
def longest (lens : SMap Nat) : Option Nat :=
  (lens.foldl (fun (a : Option (Nat × Nat)) p =>
    if p.2 = 0 ∨ 12 ≤ p.2 then a
    else match a with
      | none => some (p.2, p.1)
      | some (n, s) => if n ≤ p.2 then some (p.2, p.1) else some (n, s)) none).map (·.2)

/-- Lengthen codes until the Kraft sum fits 4,096 (R223). -/
def limitLens (fuel : Nat) (lens : SMap Nat) : SMap Nat :=
  match fuel with
  | 0 => lens
  | k + 1 =>
    if kraft lens ≤ 4096 then lens
    else match longest lens with
      | none => lens
      | some s => limitLens k (smMod 0 lens s (· + 1))

/-- Build a table in format cfmt from its counters (R223). -/
def Grist.build (g : Grist) (cfmt : Nat) : Grist :=
  let used := g.cnt.filter (fun p => p.1 < 2 ^ sfE cfmt ∧ 0 < p.2 ∧ cfmt ≠ 0xA)
  let leaves := match used with
    | [] => []
    | [p] => [(p.1, 1)]
    | _ => mergeNodes used.length 0 (used.foldl (fun (l : List BNode) (p : Nat × Nat) => insertNode l ⟨p.2, p.1, [(p.1, 0)]⟩) [])
  let lens := leaves.foldl (fun (m : SMap Nat) (p : Nat × Nat) => smSet 0 m p.1 (min 12 p.2)) []
  { g with ready := true, tfmt := cfmt, lens := limitLens 4096 lens }

/-- Count the symbols of elements, each counter saturating at 2^32 − 1 (R222). Bytes have no symbol. -/
def Grist.count (g : Grist) (f : Nat) (elems : List Nat) : Grist :=
  if f = 0xA then g
  else { g with cnt := elems.foldl (fun m x => smMod 0 m (sfSym f x) (satAdd (2 ^ 32 - 1) · 1)) g.cnt }

/-- The table of an image, if TABLE_LOAD accepts it (R225). -/
def gristOfImage (img : List Byte) (cnt : SMap Nat) : Option Grist :=
  let lens : SMap Nat := (List.range 256).foldl (fun m s =>
    smSet 0 m s (bits (img.getD (8 + s / 2) 0).toNat (4 * (s % 2)) 4)) []
  let tfmt := bits (img.getD 0 0).toNat 0 4
  let g : Grist := { ready := true, tfmt := tfmt, lens := lens, cnt := cnt }
  let resv := bits (img.getD 0 0).toNat 4 4 + (img.getD 1 0).toNat + ofBytes ((img.drop 4).take 4)
  if img.length = 136 ∧ sfOk tfmt ∧ resv = 0 ∧ lens.all (fun p => p.2 ≤ 12 && p.1 < 2 ^ sfE tfmt && tfmt != 0xA) ∧
     kraft lens ≤ 4096 ∧ ofBytes ((img.drop 2).take 2) = g.tchk then some g else none

/-! ### Payload bits (R217) -/

/-- The low n bits of x, most significant first. -/
def msbBits (n x : Nat) : List Bool :=
  match n with
  | 0 => []
  | k + 1 => bitOf x k :: msbBits k x

/-- A number from bits, most significant first. -/
def ofMsb (l : List Bool) : Nat := l.foldl (fun a b => 2 * a + b2n b) 0

/-- Bits packed into bytes, payload bit j in bit 7 − (j mod 8) of byte j div 8, zero padded. -/
def packMsb (fuel : Nat) (l : List Bool) : List Byte :=
  match fuel with
  | 0 => []
  | k + 1 => if l.isEmpty then []
             else BitVec.ofNat 8 (ofMsb ((l.take 8) ++ List.replicate (8 - (l.take 8).length) false)) :: packMsb k (l.drop 8)

/-- The bits of bytes. -/
def unpackMsb (l : List Byte) : List Bool := l.flatMap (fun b => msbBits 8 b.toNat)

/-! ### Coding a block (R216-R218) -/

/-- A 64-bit block header (Table 09-2). -/
def mkHeader (ty table efmt ecount len ttag crc : Nat) : Nat :=
  ty + table * 2 ^ 2 + efmt * 2 ^ 8 + ecount * 2 ^ 12 + len * 2 ^ 25 + ttag * 2 ^ 36 + crc * 2 ^ 48

/-- Pad to whole 32-byte units. -/
def pad32 (l : List Byte) : List Byte := l ++ List.replicate ((32 - l.length % 32) % 32) 0

/-- Code one block of data with table number t of contents g (R218): header and payload. An EMPTY table codes in bytes
(DEDUCED, log entry 15). -/
def encodeBlock (g : Grist) (t : Nat) (data : List Byte) : Nat × List Byte :=
  let f := if g.ready then g.tfmt else 0xA
  let w := sfW f
  let elems := unpackBytes (w / 8) data
  let n := elems.length
  let full := ceilDiv (n * w) 256
  let codes := g.codes
  let raw := sfW f - sfE f
  let codeOf (x : Nat) : Option (Nat × Nat) := (codes.find? (fun c => c.2.2 = sfSym f x)).map (fun c => (c.1, c.2.1))
  let csum := elems.foldl (fun (a : Option Nat) x => match a, codeOf x with
    | some k, some c => some (k + c.1)
    | _, _ => none) (some 0)
  if data.all (· = 0) then (mkHeader 3 0 f n 0 0 0, [])
  else match (if f = 0xA then none else csum) with
    | some k =>
      if ceilDiv (n * raw + k) 256 ≤ full - 1 then
        let bs := elems.flatMap (fun x => msbBits raw (sfRaw f x)) ++
                  elems.flatMap (fun x => match codeOf x with
                    | some c => msbBits c.1 c.2
                    | none => [])
        let p := pad32 (packMsb bs.length bs)
        (mkHeader 1 t f n (p.length / 32) (g.tchk % 4096) (crc16 p), p)
      else
        let p := pad32 data
        (mkHeader 2 0 f n full 0 (crc16 p), p)
    | none =>
      let p := pad32 data
      (mkHeader 2 0 f n full 0 (crc16 p), p)

/-- A list cut into pieces of n. -/
def chunksAux {α : Type} (fuel n : Nat) (l : List α) : List (List α) :=
  match fuel with
  | 0 => []
  | k + 1 => if l.isEmpty then [] else l.take n :: chunksAux k n (l.drop n)

/-- A list cut into pieces of n elements, the last perhaps shorter. -/
def chunks {α : Type} (n : Nat) (l : List α) : List (List α) := chunksAux l.length n l

/-- A stream in packed form: each block's header, then its payload (R219). -/
def packStream (g : Grist) (t : Nat) (data : List Byte) : List Byte :=
  (chunks 4096 data).flatMap (fun b => toBytes 8 (encodeBlock g t b).1 ++ (encodeBlock g t b).2)

/-! ### Decoding a block (R229, R230) -/

/-- TYPE of a header. -/
def hType (h : Nat) : Nat := bits h 0 2
/-- EFMT of a header. -/
def hEfmt (h : Nat) : Nat := bits h 8 4
/-- ECOUNT of a header. -/
def hCount (h : Nat) : Nat := bits h 12 13
/-- LEN of a header. -/
def hLen (h : Nat) : Nat := bits h 25 8
/-- CRC of a header. -/
def hCrc (h : Nat) : Nat := bits h 48 16

/-- Whether a header keeps the rules of Table 09-2; `plain` where PLAIN is allowed. -/
def headerOk (plain : Bool) (h : Nat) : Bool :=
  let ty := hType h
  let f := hEfmt h
  let full := ceilDiv (hCount h * sfW f) 256
  sfOk f && decide (1 ≤ hCount h) && decide (hCount h ≤ sfFull f) && bits h 33 3 == 0 &&
  (ty != 0 || plain && f == 0xA) && (ty != 1 || f != 0xA) && (ty == 1 || bits h 2 6 == 0) &&
  (ty == 1 || bits h 36 12 == 0) && (ty != 3 || hLen h == 0 && hCrc h == 0) &&
  ((ty != 0 && ty != 2) || hLen h == full) && (ty != 1 || decide (1 ≤ hLen h) && decide (hLen h + 1 ≤ full))

/-- What reading one code came to. -/
inductive SymOut where
  | sym (s : Nat) (rest : List Bool)
  | past
  | bad
deriving DecidableEq, Repr

/-- Read one code: `v` are the n bits read so far. -/
def readSym (codes : List (Nat × Nat × Nat)) (l : List Bool) (v n : Nat) : SymOut :=
  match l with
  | [] => .past
  | b :: r =>
    let v' := 2 * v + b2n b
    match codes.find? (fun c => c.1 = n + 1 ∧ c.2.1 = v') with
    | some c => .sym c.2.2 r
    | none => if codes.any (fun c => n + 1 < c.1 && c.2.1 / 2 ^ (c.1 - (n + 1)) == v') then readSym codes r v' (n + 1) else .bad

/-- Read n codes: the symbols and the bits left, or the damage code. -/
def readSyms (codes : List (Nat × Nat × Nat)) (n : Nat) (l : List Bool) : Except Nat (List Nat × List Bool) :=
  match n with
  | 0 => .ok ([], l)
  | k + 1 =>
    match readSym codes l 0 0 with
    | .past => .error 0x3001
    | .bad => .error 0x3003
    | .sym s r =>
      match readSyms codes k r with
      | .ok (ss, r') => .ok (s :: ss, r')
      | .error e => .error e

/-- Numbers of n bits as the bytes of elements. -/
def elemBytes (w : Nat) (l : List Nat) : List Byte := l.flatMap (toBytes (w / 8))

/-- The fill of a damaged block (R230). -/
def damageFill (h : Nat) (badHeader : Bool) : List Byte :=
  if badHeader then List.replicate 4096 0xFF
  else if hEfmt h = 0xA then List.replicate (hCount h) 0xFF
  else elemBytes (sfW (hEfmt h)) (List.replicate (hCount h) (((fmtOf (hEfmt h)).map (·.nanCode)).getD 0))

/-- Decode a block: its bytes and the damage code, if any (R229, R230). `plain` where Table 09-2 allows PLAIN: in the cellar's packed form.
A slot's PLAIN header is not checked, and its reader does not decode it. -/
def decodeBlock (tables : Nat → Grist) (plain : Bool) (h : Nat) (payload : List Byte) : List Byte × Option Nat :=
  if !headerOk plain h then (damageFill h true, some 0x3006)
  else
    let f := hEfmt h
    let n := hCount h
    let w := sfW f
    let pay := payload.take (hLen h * 32)
    if hType h = 3 then (List.replicate (n * w / 8) 0, none)
    else if hType h = 1 then
      let g := tables (bits h 2 6)
      if !g.ready || g.tfmt != f || g.tchk % 4096 != bits h 36 12 then (damageFill h false, some 0x3005)
      else if crc16 pay ≠ hCrc h then (damageFill h false, some 0x3004)
      else
        let limit := hLen h * 256
        let raw := w - sfE f
        if n * raw > limit then (damageFill h false, some 0x3001)
        else
          let bs := unpackMsb pay
          match readSyms g.codes n (bs.drop (n * raw)) with
          | .error e => (damageFill h false, some e)
          | .ok (syms, rest) =>
            if ceilDiv (limit - rest.length) 256 < hLen h then (damageFill h false, some 0x3002)
            else (elemBytes w ((List.range n).map (fun i => sfJoin f (syms.getD i 0) (ofMsb ((bs.drop (i * raw)).take raw)))), none)
    else if crc16 pay ≠ hCrc h then (damageFill h false, some 0x3004)
    else (pay.take (n * w / 8), none)

/-- Decode the cellar's packed stream of whole blocks. After a bad header every later byte is damaged (R230). `left` are the
uncompressed bytes still to deliver; the damage codes are listed by block. -/
def unpackStreamAux (tables : Nat → Grist) (fuel : Nat) (l : List Byte) (left : Nat) : List Byte × List (Option Nat) :=
  match fuel with
  | 0 => ([], [])
  | k + 1 =>
    if left = 0 then ([], [])
    else
      let h := ofBytes (l.take 8)
      let r := decodeBlock tables true h (l.drop 8)
      let want := min left 4096
      if r.2 = some 0x3006 ∨ l.length < 8 then
        (List.replicate left 0xFF, List.replicate (ceilDiv left 4096) (some 0x3006))
      else
        let rest := unpackStreamAux tables k (l.drop (8 + hLen h * 32)) (left - want)
        ((r.1 ++ List.replicate (want - r.1.length) 0).take want ++ rest.1, r.2 :: rest.2)

/-- The `size` uncompressed bytes of a packed stream and the damage of its blocks. -/
def unpackStream (tables : Nat → Grist) (l : List Byte) (size : Nat) : List Byte × List (Option Nat) :=
  unpackStreamAux tables (size / 4096 + 1) l size

end Sys2Proof.Machine
end

