-- ==== Sys2Proof/Machine/Cellar.lean ====
section
/-! DEFINITION. The cellar (R272-R296): superblocks and streams, the write budget, reads through the retry ladder, die
failure, bad blocks, patrol, refresh, compaction and wear levelling. -/

namespace Sys2Proof.Machine

/-! ### Geometry (R272, R273) -/

/-- Bytes of a page, of a unit (one page of each of the four planes) and of an LDPC codeword's data (Table 11-1). -/
def nandPage : Nat := 16384
def nandUnit : Nat := 4 * nandPage
def nandCodeword : Nat := 2048
/-- Codewords of a unit. -/
def unitCodewords : Nat := nandUnit / nandCodeword
/-- Rows (units of a multi-plane block), and rows of a word line. -/
def sbRows : Nat := 2048
def wordLineRows : Nat := 3
/-- The number of superblocks. -/
def sbCount : Nat := 5120
/-- The die and multi-plane block that superblock k takes on channel c unless R285 has replaced that member (R273). -/
def sbDie (k c : Nat) : Nat := (k / 1024 + c) % 5

/-- Superblock k. -/
def Cellar.sb (x : Cellar) (k : Nat) : Superblock := smGet {} x.sbs k
/-- Superblock k changed by f. -/
def Cellar.modSb (x : Cellar) (k : Nat) (f : Superblock → Superblock) : Cellar := { x with sbs := smMod {} x.sbs k f }
/-- The stream of a logical frame. -/
def Cellar.stream (x : Cellar) (frame : Nat) : CelStream := smGet {} x.frames frame

/-- The width of a superblock: its members. -/
def Superblock.width (b : Superblock) : Nat := 32 - b.gone.length
/-- Data positions of a row, and of the superblock. -/
def Superblock.rowData (b : Superblock) : Nat := b.width - 1
def Superblock.cap (b : Superblock) : Nat := b.rowData * sbRows

/-- The channels of superblock k's members, ascending. -/
def Cellar.channels (x : Cellar) (k : Nat) : List Nat := (List.range 32).filter (fun c => !(x.sb k).gone.contains c)
/-- The die and block of superblock k's member on channel c (R273, R285). -/
def Cellar.memberAt (x : Cellar) (k c : Nat) : Nat × Nat :=
  match x.members.find? (fun m => m.1 == k && m.2.1 == c) with
  | some m => m.2.2
  | none => (sbDie k c, k % 1024)
/-- Superblock k's member on channel c lies on a failed die. -/
def Cellar.memberDead (x : Cellar) (k c : Nat) : Bool := x.dead.contains (c, (x.memberAt k c).1)

/-- The row of data position d of superblock k, and the channel on which it lies: row i's parity is on the member at position i mod W, its data
on the others in ascending channel order. -/
def Cellar.posPlace (x : Cellar) (k d : Nat) : Nat × Nat :=
  let b := x.sb k
  let row := d / b.rowData
  let i := d % b.rowData
  (row, (x.channels k).getD (if i < row % b.width then i else i + 1) 0)

/-- The superblock and data position of unit u of a frame's stream. -/
def Cellar.unitPos (x : Cellar) (frame u : Nat) : Option (Nat × Nat) :=
  ((x.stream frame).ext.foldl (fun (a : Nat × Option (Nat × Nat)) e =>
    (a.1 + e.2.2, if a.1 ≤ u ∧ u < a.1 + e.2.2 then some (e.1, e.2.1 + (u - a.1)) else a.2)) (0, none)).2

/-- The NAND place of unit u of a frame: superblock, row, channel, die, multi-plane block. -/
structure UnitPlace where
  sb : Nat
  row : Nat
  ch : Nat
  die : Nat
  block : Nat
deriving DecidableEq, Repr

/-- Where unit u of a frame lies. -/
def Cellar.unitPlace (x : Cellar) (frame u : Nat) : Option UnitPlace :=
  (x.unitPos frame u).map (fun p =>
    let q := x.posPlace p.1 p.2
    let m := x.memberAt p.1 q.2
    ⟨p.1, q.1, q.2, m.1, m.2⟩)

/-! ### Streams (R275) -/

/-- The header of slot j's block in packed form: a PLAIN slot is a block of ECOUNT 4,096, EFMT 0xA and LEN 128, with its CRC (R219). -/
def State.packedHdr (s : State) (tier frame j : Nat) : Nat :=
  let k := daKey tier frame (4096 * j)
  let h := (smGet 0 s.hdrs (k / 4096)).toNat
  if h = 0 then mkHeader 0 0 0xA 4096 128 0 (crc16 (s.rd k 4096)) else h

/-- Bytes of slot j's block in packed form: its header and its payload. -/
def State.packedLen (s : State) (tier frame j : Nat) : Nat :=
  let h := (smGet 0 s.hdrs (daKey tier frame (4096 * j) / 4096)).toNat
  if h = 0 then 4104 else 8 + 32 * hLen h

/-- The offset of every slot's block header in the stream of a granule held in a frame, and the stream's length. -/
def State.blockOffsets (s : State) (tier frame : Nat) : List Nat × Nat :=
  (List.range 512).foldl (fun a j => (a.1 ++ [a.2], a.2 + s.packedLen tier frame j)) ([], 2048)

/-- The stream length of a granule held in a frame. -/
def State.streamLen (s : State) (tier frame : Nat) : Nat := (s.blockOffsets tier frame).2

/-- The slot directory: entry j holds the offset of slot j's header in 8-byte units. -/
def State.celDirectory (s : State) (tier frame : Nat) : List Nat := (s.blockOffsets tier frame).1.map (· / 8)

/-- The stream of a granule held in a frame: its directory, then its 512 blocks in packed form. -/
def State.celStream (s : State) (tier frame : Nat) : List Byte :=
  (s.celDirectory tier frame).flatMap (toBytes 4) ++
  (List.range 512).flatMap (fun j =>
    toBytes 8 (s.packedHdr tier frame j) ++ s.rd (daKey tier frame (4096 * j)) (32 * hLen (s.packedHdr tier frame j)))

/-- Its units of 64 KiB. -/
def streamUnits (len : Nat) : Nat := ceilDiv len nandUnit

/-- Unit u of the stream of a frame, the last one padded with zero bytes. -/
def State.celUnit (s : State) (frame u : Nat) : List Byte :=
  let l := ((s.celStream 3 frame).drop (u * nandUnit)).take nandUnit
  l ++ List.replicate (nandUnit - l.length) 0

/-- The XOR of units. -/
def xorBytes (l : List (List Byte)) : List Byte :=
  (List.range nandUnit).map (fun i => l.foldl (fun a u => a ^^^ u.getD i 0) 0)

/-- The stream units that lie in a row of superblock k: frame and unit. -/
def Cellar.rowUnits (x : Cellar) (k row : Nat) : List (Nat × Nat) :=
  let n := (x.sb k).rowData
  x.frames.flatMap (fun f => ((List.range (streamUnits f.2.len)).filter (fun u => match x.unitPos f.1 u with
    | some p => p.1 == k && p.2 / n == row
    | none => false)).map (fun u => (f.1, u)))

/-- The parity unit of a row: the XOR of its data units, of which those of no stream are zero (R273, R277). -/
def State.rowParity (s : State) (k row : Nat) : List Byte := xorBytes ((s.cel.rowUnits k row).map (fun p => s.celUnit p.1 p.2))

/-! ### Open superblocks and placing (R275-R277) -/

/-- Superblock k is in service and holds, or may hold, granules. -/
def Cellar.inUse (x : Cellar) (k : Nat) : Bool := decide (8 ≤ k) && (x.sb k).st != 4

/-- Free superblocks (R295 SB_FREE). -/
def Cellar.freeCount (x : Cellar) : Nat := (List.range sbCount).countP (fun k => decide (8 ≤ k) && (x.sb k).st == 0)

/-- The free superblock of group g with the lowest erase count, the lowest k on a tie (R276). -/
def Cellar.nextFree (x : Cellar) (g : Nat) : Option Nat :=
  (List.range 1024).foldl (fun (a : Option Nat) i =>
    let k := 1024 * g + i
    if k < 8 ∨ (x.sb k).st ≠ 0 then a
    else match a with
      | none => some k
      | some j => if (x.sb k).erase < (x.sb j).erase then some k else a) none

/-- The open superblock of group g. -/
def Cellar.openSb (x : Cellar) (g : Nat) : Option Nat := (x.sbs.find? (fun p => p.1 / 1024 == g && p.2.st == 1)).map (·.1)

/-- Every group keeps an open superblock, while it has a free one (R276). -/
def Cellar.keepOpen (x : Cellar) : Cellar :=
  (List.range 5).foldl (fun x g => match x.openSb g, x.nextFree g with
    | none, some k => x.modSb k (fun b => { b with st := 1 })
    | _, _ => x) x

/-- Units queued for group g: those of streams not yet programmed (R276). -/
def Cellar.queued (x : Cellar) (g : Nat) : Nat :=
  x.frames.foldl (fun a p => if p.2.written then a else p.2.ext.foldl (fun b e => if e.1 / 1024 = g then b + e.2.2 else b) a) 0

/-- What a placement gives: the cellar, the extents, and the parity units of the rows that it fills. -/
structure CelPlaced where
  cel : Cellar
  ext : List (Nat × Nat × Nat)
  par : Nat

/-- Take n data positions of superblock k, which is filled once it has none left. -/
def Cellar.takeIn (x : Cellar) (k n : Nat) : CelPlaced :=
  let b := x.sb k
  let u := b.used + n
  ⟨x.modSb k (fun b => { b with st := if b.cap ≤ u then 2 else 1, used := u, live := b.live + n }), [(k, b.used, n)], u / b.rowData - b.used / b.rowData⟩

/-- Place n units in group g: in its open superblock, and what is left in the next one opened (R275). -/
def Cellar.placeIn (x : Cellar) (g n : Nat) : Option CelPlaced :=
  match x.openSb g with
  | none => none
  | some k =>
    let room := (x.sb k).cap - (x.sb k).used
    if n ≤ room then
      let p := x.takeIn k n
      some { p with cel := p.cel.keepOpen }
    else
      let p := x.takeIn k room
      let y := p.cel.keepOpen
      match y.openSb g with
      | none => none
      | some j =>
        let q := y.takeIn j (n - room)
        some ⟨q.cel.keepOpen, p.ext ++ q.ext, p.par + q.par⟩

/-- Place n units in the open superblock with the fewest units queued, the lowest group on a tie (R276); in another group where that one has
no superblock left. -/
def Cellar.placeUnits (x : Cellar) (n : Nat) : Option CelPlaced :=
  let order := (List.range 5).foldl (fun (l : List Nat) g =>
    (l.takeWhile (fun h => x.queued h ≤ x.queued g)) ++ [g] ++ (l.dropWhile (fun h => x.queued h ≤ x.queued g))) []
  order.findSome? (fun g => x.placeIn g n)

/-- The units of extents become dead (R287). -/
def Cellar.killExt (x : Cellar) (l : List (Nat × Nat × Nat)) : Cellar :=
  l.foldl (fun x e => x.modSb e.1 (fun b => { b with live := b.live - e.2.2 })) x

/-- The frame leaves the map, and the journal records it: its units become dead (R275, R287). -/
def Cellar.dropFrame (x : Cellar) (frame : Nat) : Cellar :=
  { (x.killExt (x.stream frame).ext) with
      frames := smSet {} x.frames frame {}, journal := smSet {} x.journal frame {},
      refresh := x.refresh.filter (fun p => p.1 != frame), dirs := x.dirs.filter (· ≠ frame) }

/-! ### Life, margin and counts (R286, R292, R293, R295) -/

/-- Whole days since power-on. -/
def State.dayNo (s : State) : Nat := s.beat.now / 51840000000000

/-- Add KiB to the entry of today (R292, R295); eight days are kept. -/
def addDaily (l : List (Nat × Nat)) (day k : Nat) : List (Nat × Nat) :=
  match l with
  | (d, n) :: r => if d = day then (d, n + k) :: r else ((day, k) :: l).take 8
  | [] => [(day, k)]

/-- Count units programmed, parity among them, in KiB (R286, R295). -/
def State.countNand (s : State) (units : Nat) : State :=
  { s with cel := { s.cel with nandKib := s.cel.nandKib + 64 * units, nandDaily := addDaily s.cel.nandDaily s.dayNo (64 * units) } }

/-- Superblocks in service. -/
def Cellar.inService (x : Cellar) : Nat := sbCount - x.sbs.countP (fun p => p.2.st == 4)
/-- PE_AVG: the mean erase count, rounded down. -/
def Cellar.peAvg (x : Cellar) : Nat := (x.sbs.foldl (fun a p => if p.2.st = 4 then a else a + p.2.erase) 0) / max 1 x.inService
/-- PE_MAX. -/
def Cellar.peMax (x : Cellar) : Nat := x.sbs.foldl (fun a p => if p.2.st = 4 then a else max a p.2.erase) 0
/-- PE_MIN. -/
def Cellar.peMin (x : Cellar) : Nat :=
  (List.range sbCount).foldl (fun a k => if (x.sb k).st = 4 then a else min a (x.sb k).erase) x.peMax
/-- LIFE_PCT. -/
def Cellar.lifePct (x : Cellar) : Nat := 100 - ceilDiv (100 * x.peAvg) 3000
/-- Data positions in service. -/
def Cellar.positions (x : Cellar) : Nat :=
  sbCount * 63488 - x.sbs.foldl (fun a p => a + (63488 - if p.2.st = 4 then 0 else p.2.cap)) 0
/-- SB_MARGIN, at least 0. -/
def Cellar.sbMargin (x : Cellar) : Nat := x.positions / 63488 - 4433

/-- Report life and read-only after wear or loss (R292, R293). -/
def State.celCheck (s : State) : State :=
  let s := if s.cel.lifePct ≤ 10 ∧ s.cel.lifePct < s.cel.lastLife then
      { (s.logDev 0x7007 none s.cel.lifePct) with cel := { s.cel with lastLife := s.cel.lifePct } } else s
  if s.cel.sbMargin = 0 ∧ !s.cel.readOnly then
    { (s.logDev 0x7008 none 0) with cel := { s.cel with readOnly := true } } else s

/-! ### The write budget (R290, R291) -/

/-- DEPTH in KiB. -/
def State.celDepth (s : State) : Int := (bits s.celBudget 24 24 * 1048576 : Nat)
/-- ENFORCE. -/
def State.celEnforce (s : State) : Bool := bitOf s.celBudget 48

/-- Set THROTTLED from the credit; each time it sets is logged (R290). -/
def State.celThrottle (s : State) : State :=
  let t := decide (s.cel.credit ≤ 0)
  let u := { s with cel := { s.cel with throttled := t } }
  if t && !s.cel.throttled then u.logDev 0x7006 none 0 else u

/-- Charge a host-visible write of n granules when it starts (R290). -/
def State.celCharge (s : State) (n : Nat) : State :=
  State.celThrottle { s with cel := { s.cel with
    credit := s.cel.credit - 2048 * n, hostKib := s.cel.hostKib + 2048 * n, daily := addDaily s.cel.daily s.dayNo (2048 * n) } }

/-- Whether a move into CELLAR may start (R290, R293). -/
def State.celMoveOk (s : State) : Bool := cellarFitted s.variant && !s.cel.readOnly && (!s.celEnforce || decide (0 < s.cel.credit))

/-- Whether a checkpoint write may start (R290, R293). -/
def State.celCkptOk (s : State) : Bool :=
  cellarFitted s.variant && !s.cel.readOnly && (!s.celEnforce || decide (-s.celDepth < s.cel.credit))

/-- Refill the credit for the clk passed (R290): DAILY GiB a day of 51,840,000,000,000 clk, up to DEPTH. -/
def State.celRefill (s : State) (clk : Nat) : State :=
  if !cellarFitted s.variant then s else
  let x := s.cel.frac + clk * (max 1 (bits s.celBudget 0 24)) * 1048576
  State.celThrottle { s with cel := { s.cel with
    credit := min s.celDepth (s.cel.credit + (x / 51840000000000 : Nat)), frac := x % 51840000000000 } }

/-! ### Writing and rewriting streams -/

/-- Place the stream of a granule that moves, or is sealed, into a frame: its units are queued to be programmed (R275).
None where the array has no superblock left. -/
def State.celStart (s : State) (frame len : Nat) : Option State :=
  match (s.cel.dropFrame frame).placeUnits (streamUnits len) with
  | none => none
  | some p =>
    let x := p.cel
    let st : CelStream := { ext := p.ext, len := len, wseq := x.wseq + 1, day := s.beat.now, par := p.par }
    some { s with cel := { x with wseq := x.wseq + 1, frames := smSet {} x.frames frame st } }

/-- Write the stream of a frame to new data positions and enter it in the map and the journal (R286, R289); the old units become dead, and what
was lost of it is so no longer: it was delivered poisoned and is written so (R281). A stream whose first write has not ended is placed anew. -/
def State.celRewrite (s : State) (frame : Nat) : State :=
  let st := s.cel.stream frame
  match s.cel.placeUnits (streamUnits st.len) with
  | none => s
  | some p =>
    let x := p.cel.killExt st.ext
    let st := { st with ext := p.ext, par := p.par, day := s.beat.now, lost := [], walk := false }
    let x := { x with frames := smSet {} x.frames frame st, journal := if st.written then smSet {} x.journal frame st else x.journal,
                      refresh := x.refresh.filter (fun q => q.1 != frame), dirs := x.dirs.filter (· ≠ frame) }
    let s := { s with cel := x }
    if st.written then s.countNand (streamUnits st.len + p.par) else s

/-- The frames with units in superblock k. -/
def Cellar.framesIn (x : Cellar) (k : Nat) : List Nat :=
  (x.frames.filter (fun p => p.2.ext.any (fun e => e.1 == k))).map (·.1)

/-- Write every live stream of superblock k elsewhere: it takes no new units meanwhile. -/
def State.celEmpty (s : State) (k : Nat) : State :=
  let s := { s with cel := (s.cel.modSb k (fun b => { b with st := if b.st = 1 then 2 else b.st })).keepOpen }
  (s.cel.framesIn k).foldl State.celRewrite s

/-- Erase superblock k: it is free again (R287). -/
def Cellar.eraseSb (x : Cellar) (k : Nat) : Cellar :=
  (x.modSb k (fun b => { b with st := if k < 8 then 3 else 0, erase := b.erase + 1, used := 0, live := 0 })).keepOpen

/-- Fill the remaining data positions of a partly filled row with zero units and program its parity: the units programmed (R277). -/
def Cellar.padRow (x : Cellar) (k : Nat) : Cellar × Nat :=
  let b := x.sb k
  let gap := (b.rowData - b.used % b.rowData) % b.rowData
  if gap = 0 then (x, 0) else (x.modSb k (fun b => { b with used := b.used + gap, st := if b.cap ≤ b.used + gap then 2 else b.st }), gap + 1)

/-- CELLAR_WRITE_DONE: every unit of the stream, its rows' parity and the journal record are programmed (R277). Streams are written in the order
of their sequence numbers (R294). When the write queue is empty every partly filled row is filled with zero units. -/
def doCellarWriteDone (frame : Nat) (s : State) : State :=
  let st := s.cel.stream frame
  if st.ext = [] ∨ st.written ∨ s.cel.frames.any (fun p => !p.2.written && decide (p.2.wseq < st.wseq)) then s else
  let st := { st with written := true }
  let x := { s.cel with frames := smSet {} s.cel.frames frame st, journal := smSet {} s.cel.journal frame st }
  let idle := x.frames.all (fun p => p.2.written)
  let y := if idle then (x.sbs.filter (fun p => p.2.st == 1)).foldl (fun (a : Cellar × Nat) p =>
      let r := a.1.padRow p.1
      (r.1, a.2 + r.2)) (x, 0) else (x, 0)
  State.celCheck (State.countNand { s with cel := y.1.keepOpen } (streamUnits st.len + st.par + y.2))

/-- CELLAR_WRITE_DONE. -/
def execCellarWriteDone (frame : Nat) (s : State) : Host.Outcome State Fault Refusal :=
  .next (whenLive s (doCellarWriteDone frame))

/-! ### Reads (R278, R280, R281) -/

/-- The logical granule whose frame is `frame` of a tier. -/
def State.lgnAt (s : State) (tier frame : Nat) : Option Nat :=
  (s.place.find? (fun p => p.2.tier == tier && p.2.loc == frame)).map (·.1)

/-- Deliver slots of a frame poisoned (R281): every 16-byte word of each takes the poison pattern. -/
def State.poisonSlots (s : State) (frame : Nat) (slots : List Nat) : State :=
  let s := slots.foldl (fun s j => { s with poison := setAddRange s.poison (daKey 3 frame (4096 * j) / 16) 256 }) s
  match s.lgnAt 3 frame with
  | some l => s.markPoison l
  | none => s

/-- An extent of a stream has a byte in a lost codeword of unit u. -/
def inLost (u cw lo n : Nat) : Bool :=
  (List.range ((lo + n - 1) / nandCodeword - lo / nandCodeword + 1)).any (fun i =>
    let w := lo / nandCodeword + i
    w / unitCodewords == u && bitOf cw (w % unitCodewords))

/-- The slots of a frame that lost codewords of unit u take: those whose block has a byte there, and every block after one whose header has. -/
def State.lostSlots (s : State) (frame u cw : Nat) : List Nat :=
  ((List.range 512).foldl (fun (a : List Nat × Nat × Bool) j =>
    let n := s.packedLen 3 frame j
    (if a.2.2 || inLost u cw a.2.1 n then a.1 ++ [j] else a.1, a.2.1 + n, a.2.2 || inLost u cw a.2.1 8)) ([], 2048, false)).1

/-- The runs of a rising list: first and last number of each. -/
def runsOf : List Nat → List (Nat × Nat)
  | [] => []
  | n :: r => match runsOf r with
    | (a, b) :: t => if a = n + 1 then (n, b) :: t else (n, n) :: (a, b) :: t
    | [] => [(n, n)]

/-- UNIT of a NAND channel and die, those of unit u of a frame. -/
def Cellar.unitCode (x : Cellar) (frame u : Nat) : Nat :=
  match x.unitPlace frame u with
  | some p => p.ch + 256 * p.die
  | none => 0

/-- A unit is lost (R281): the slots of the codewords that were not recovered are delivered poisoned; each run of slots is logged. A directory
that is lost is walked round (R278). -/
def State.celLost (s : State) (frame u cw : Nat) : State :=
  let slots := s.lostSlots frame u cw
  let s := s.poisonSlots frame slots
  let un := s.cel.unitCode frame u
  let s := { s with cel := { s.cel with
    lost := satAdd (2 ^ 32 - 1) s.cel.lost 1,
    frames := smMod {} s.cel.frames frame (fun st => { st with lost := setAdd st.lost u, walk := st.walk || (u == 0 && bitOf cw 0) }),
    dirs := if u = 0 ∧ bitOf cw 0 then s.cel.dirs.filter (· ≠ frame) else s.cel.dirs } }
  (runsOf slots).foldl (fun s r => s.logEvent 0x7003 none 31 0 8 un (frame + 2 ^ 32 * r.1 + 2 ^ 64 * r.2)) s

/-- A die fails (R283): every row that now has units of two failed dies is lost (R284). -/
def State.dieFail (s : State) (c d : Nat) : State :=
  if s.cel.dead.contains (c, d) then s else
  let s := { s with cel := { s.cel with dead := s.cel.dead ++ [(c, d)], rebuilding := s.cel.rebuilding ++ [(c, d)],
                                        spares := s.cel.spares.filter (fun b => b.ch != c || b.die != d) } }
  let s := s.logEvent 0x7005 none 31 0 8 (c + 256 * d) 0
  let x := s.cel
  let hit := x.frames.flatMap (fun f => ((List.range (streamUnits f.2.len)).filter (fun u => f.2.written && !f.2.lost.contains u &&
    (match x.unitPlace f.1 u with
      | some p => x.memberDead p.sb p.ch && decide (2 ≤ (x.channels p.sb).countP (x.memberDead p.sb))
      | none => false))).map (fun u => (f.1, u)))
  hit.foldl (fun s p => s.celLost p.1 p.2 (2 ^ 32 - 1)) s

/-- Schedule a refresh of a frame, with its write sequence number (R286, R289). -/
def Cellar.schedule (x : Cellar) (frame : Nat) : Cellar :=
  if x.refresh.any (fun p => p.1 == frame) then x else { x with refresh := x.refresh ++ [(frame, (x.stream frame).wseq)] }

/-- Unit u of a frame is delivered at a step of the ladder (R280): counted, logged from RETRY_LOG on once per patrol period, and from REFRESH_STEP
on its frame scheduled for refresh. -/
def State.celDeliver (s : State) (frame u step : Nat) : State :=
  let x := s.cel
  let x := if 1 ≤ step ∧ step ≤ 8 then { x with retries := satAdd (2 ^ 32 - 1) x.retries 1 } else x
  let x := if step = 9 then { x with rebuilds := satAdd (2 ^ 32 - 1) x.rebuilds 1 } else x
  let x := if bits s.celCfg 8 4 ≤ step ∨ step = 9 then x.schedule frame else x
  let log1 := decide (bits s.celCfg 12 4 ≤ step) && decide (1 ≤ step) && !x.logged.contains (frame, u)
  let x := if log1 then { x with logged := x.logged ++ [(frame, u)] } else x
  let un := s.cel.unitCode frame u
  let s := { s with cel := x }
  let s := if log1 then s.logEvent 0x7001 none 31 0 8 un (frame + 2 ^ 32 * u) else s
  if step = 9 then s.logEvent 0x7002 none 31 0 8 un (frame + 2 ^ 32 * u) else s

/-- A unit's multi-plane block has reached step 9 in this patrol period: the 16th of its die fails the die (R283). -/
def State.celStep9 (s : State) (p : UnitPlace) : State :=
  let k := (p.ch, p.die, p.block)
  let s := if s.cel.step9.contains k then s else { s with cel := { s.cel with step9 := s.cel.step9 ++ [k] } }
  if 16 ≤ s.cel.step9.countP (fun q => q.1 == p.ch && q.2.1 == p.die) then s.dieFail p.ch p.die else s

/-- A row's other units are read for a rebuild, each at its step (R280). Those of streams are delivered as any unit; parity and zero units count. -/
def State.celOthers (s : State) (p : UnitPlace) (steps : List (Fin 9)) : State :=
  let chs := (s.cel.channels p.sb).filter (· != p.ch)
  let units := s.cel.rowUnits p.sb p.row
  (List.range chs.length).foldl (fun s i =>
    let n := (steps.getD i 0).val
    match units.find? (fun q => ((s.cel.unitPlace q.1 q.2).map (·.ch)) == some (chs.getD i 0)) with
    | some q => s.celDeliver q.1 q.2 n
    | none => if 1 ≤ n then { s with cel := { s.cel with retries := satAdd (2 ^ 32 - 1) s.cel.retries 1 } } else s) s

/-- An outcome that unit u of a frame can have: it is held, written and not lost; on a failed die it goes through step 9 directly (R283); a
rebuild needs every other unit of the row. -/
def State.celMay (s : State) (frame u : Nat) (out : ReadOutcome) : Bool :=
  let st := s.cel.stream frame
  match s.cel.unitPlace frame u with
  | none => false
  | some p =>
    let others := (s.cel.channels p.sb).filter (· != p.ch)
    st.written && !st.lost.contains u && (match out with
      | .delivered _ => !s.cel.memberDead p.sb p.ch
      | .rebuilt l => l.length == others.length && !others.any (s.cel.memberDead p.sb)
      | .lost cw => cw != 0)

/-- The outcome of one unit read (R280). What a rebuild delivers is the XOR of the row's other units, the unit itself (rebuild_gives in
Laws/Cellar.lean). -/
def State.celOutcome (s : State) (frame u : Nat) (out : ReadOutcome) : State :=
  if !s.celMay frame u out then s else
  match out, s.cel.unitPlace frame u with
  | .delivered n, _ => s.celDeliver frame u n.val
  | .rebuilt l, some p => ((s.celOthers p l).celDeliver frame u 9).celStep9 p
  | .lost cw, some p => (s.celLost frame u cw.toNat).celStep9 p
  | _, none => s

/-- A read of a frame is served in place: its granule rests in CELLAR. A promotion reads the whole stream and needs no directory (R278). -/
def State.celInPlace (s : State) (frame : Nat) : Bool :=
  match s.lgnAt 3 frame with
  | some l => (s.pent l).mstate == 0
  | none => false

/-- CELLAR_READ: a unit of a frame's stream is read (R280). In place the directory's unit comes first unless it is cached or cannot be read; read,
it joins the cache of the 16,384 used last (R278). -/
def doCellarRead (frame u : Nat) (out : ReadOutcome) (s : State) : State :=
  let st := s.cel.stream frame
  if !cellarFitted s.variant || (s.celInPlace frame && u != 0 && !s.cel.dirs.contains frame && !st.walk) then s
  else
    let r := s.celOutcome frame u out
    if s.celMay frame u out && s.celInPlace frame && !(r.cel.stream frame).walk then
      { r with cel := { r.cel with dirs := (frame :: r.cel.dirs.filter (· ≠ frame)).take 16384 } }
    else r

/-- CELLAR_READ. -/
def execCellarRead (frame unit : Nat) (out : ReadOutcome) (s : State) : Host.Outcome State Fault Refusal :=
  .next (whenLive s (doCellarRead frame unit out))

/-! ### Patrol and refresh (R286, R289) -/

/-- The period of CEL_CFG.PATROL days, 0 taken as 1, in clk. -/
def State.celPatrolPeriod (s : State) : Nat := max 1 (bits s.celCfg 0 8) * 51840000000000

/-- CELLAR_PATROL: a period of PATROL days has passed, in which every unit of every live stream was read once: those that `reads` names with
their outcomes, the others at step 0 (R286). Streams older than REFRESH_AGE are scheduled for refresh; the next period's counts start. -/
def doCellarPatrol (reads : List (Nat × Nat × ReadOutcome)) (s : State) : State :=
  if !cellarFitted s.variant || decide (s.beat.now < s.cel.patrolClk + s.celPatrolPeriod) then s else
  let s := reads.foldl (fun s r => s.celOutcome r.1 r.2.1 r.2.2) s
  let age := bits s.celCfg 16 12
  let old := (s.cel.frames.filter (fun p => p.2.written && age != 0 &&
    decide (age * 51840000000000 < s.beat.now - p.2.day))).map (·.1)
  { s with cel := { old.foldl Cellar.schedule s.cel with logged := [], step9 := [], patrolClk := s.beat.now } }

/-- CELLAR_PATROL. -/
def execCellarPatrol (reads : List (Nat × Nat × ReadOutcome)) (s : State) : Host.Outcome State Fault Refusal :=
  .next (whenLive s (doCellarPatrol reads))

/-- CELLAR_REFRESH: the oldest scheduled refresh rewrites the whole stream and updates the frame map (R286, R294); where the frame has been
written again since it was scheduled, or has left the map, the copy is discarded (R289). -/
def doCellarRefresh (frame : Nat) (s : State) : State :=
  match s.cel.refresh with
  | [] => s
  | (f, n) :: r =>
    if f ≠ frame then s
    else
      let st := s.cel.stream frame
      let s := { s with cel := { s.cel with refresh := r } }
      if st.written && st.wseq == n then s.celRewrite frame else s

/-- CELLAR_REFRESH. -/
def execCellarRefresh (frame : Nat) (s : State) : Host.Outcome State Fault Refusal :=
  .next (whenLive s (doCellarRefresh frame))

/-! ### Die failure (R283) -/

/-- CEL_DIE: a die stops answering its channel (R283). -/
def doCelDie (c d : Nat) (s : State) : State := if cellarFitted s.variant then s.dieFail c d else s

/-- CEL_DIE. -/
def execCelDie (ch : Fin 32) (die : Fin 5) (s : State) : Host.Outcome State Fault Refusal :=
  .next (whenLive s (doCelDie ch.val die.val))

/-- The superblocks in service with a member on die d of channel c. -/
def Cellar.onDie (x : Cellar) (c d : Nat) : List Nat :=
  (List.range sbCount).filter (fun k => (x.sb k).st != 4 && !(x.sb k).gone.contains c && (x.memberAt k c).1 == d)

/-- Step 2 of R283: the units of superblock k on channel c are read through step 9 directly. -/
def State.readThrough (s : State) (k c : Nat) : State :=
  let x := s.cel
  let units := x.frames.flatMap (fun f => ((List.range (streamUnits f.2.len)).filter (fun u => f.2.written && !f.2.lost.contains u &&
    (match x.unitPlace f.1 u with
      | some p => p.sb == k && p.ch == c
      | none => false))).map (fun u => (f.1, u)))
  units.foldl (fun s q => s.celDeliver q.1 q.2 9) s

/-- Steps 2 to 4 of R283 for superblock k: its live granules are rewritten elsewhere; emptied, it is erased and re-formed without its member
on channel c. Where they find no room it stays as it is. -/
def State.reformSb (s : State) (k c : Nat) : State :=
  let s := (s.readThrough k c).celEmpty k
  if (s.cel.framesIn k).isEmpty then
    { s with cel := (s.cel.modSb k (fun b => { b with gone := setAdd b.gone c })).eraseSb k }
  else s

/-- CELLAR_REBUILD_DONE: the superblocks of the die that failed first are re-formed; with the last of them REBUILDING clears (R283). -/
def doCellarRebuildDone (s : State) : State :=
  match s.cel.rebuilding with
  | [] => s
  | (c, d) :: r =>
    let s := (s.cel.onDie c d).foldl (fun s k => s.reformSb k c) s
    State.celCheck (if (s.cel.onDie c d).isEmpty then { s with cel := { s.cel with rebuilding := r } } else s)

/-- CELLAR_REBUILD_DONE. -/
def execCellarRebuildDone (s : State) : Host.Outcome State Fault Refusal := .next (whenLive s doCellarRebuildDone)

/-! ### Bad blocks (R285) -/

/-- The spare of a channel that replaces a member: on a die that has not failed, the lowest erase count, then the lowest die and block. -/
def Cellar.pickSpare (x : Cellar) (c : Nat) : Option SpareBlock :=
  (x.spares.filter (fun b => b.ch == c && !x.dead.contains (c, b.die))).foldl (fun (a : Option SpareBlock) b =>
    match a with
    | none => some b
    | some y =>
      if b.erase < y.erase ∨ b.erase = y.erase ∧ (b.die < y.die ∨ b.die = y.die ∧ b.block < y.block) then some b else a) none

/-- A superblock to be dissolved is, once its streams have left: its members but the retired one become spares of their channels. -/
def State.dissolve (s : State) (k : Nat) : State :=
  if (s.cel.sb k).st ≠ 5 ∨ !(s.cel.framesIn k).isEmpty then s
  else
    let x := s.cel
    let free := ((x.channels k).filter (fun c => !x.memberDead k c)).map (fun c =>
      SpareBlock.mk c (x.memberAt k c).1 (x.memberAt k c).2 (x.sb k).erase)
    State.celCheck { s with cel := { (x.modSb k (fun b => { b with st := 4, used := 0, live := 0 })) with
      spares := x.spares ++ free, members := x.members.filter (fun m => m.1 != k) } }

/-- Retire the multi-plane block of superblock k on channel c (R285): a spare replaces it, or the superblock dissolves, its live granules
rewritten elsewhere. -/
def State.retireBlock (s : State) (k c : Nat) : State :=
  let s := { s with cel := { s.cel with blkRet := satAdd (2 ^ 16 - 1) s.cel.blkRet 1 } }
  let s := s.logEvent 0x7004 none 31 0 8 (c + 256 * (s.cel.memberAt k c).1) (s.cel.memberAt k c).2
  match s.cel.pickSpare c with
  | some b =>
    { s with cel := { s.cel with
        spares := s.cel.spares.filter (· != b),
        members := s.cel.members.filter (fun m => m.1 != k || m.2.1 != c) ++ [(k, c, b.die, b.block)] } }
  | none =>
    let x := (s.cel.modSb k (fun b => { b with gone := setAdd b.gone c, st := 5 })).keepOpen
    State.dissolve ((x.framesIn k).foldl State.celRewrite { s with cel := x }) k

/-- The units of a word line of superblock k on channel c that belong to streams being written. -/
def Cellar.lineUnits (x : Cellar) (k c wl : Nat) : List (Nat × Nat) :=
  x.frames.flatMap (fun f => if f.2.written then [] else ((List.range (streamUnits f.2.len)).filter (fun u =>
    match x.unitPlace f.1 u with
    | some p => p.sb == k && p.ch == c && p.row / wordLineRows == wl
    | none => false)).map (fun u => (f.1, u)))

/-- The first n units of extents. -/
def takeExt : Nat → List (Nat × Nat × Nat) → List (Nat × Nat × Nat)
  | _, [] => []
  | n, e :: r => if n = 0 then [] else if n < e.2.2 then [(e.1, e.2.1, n)] else e :: takeExt (n - e.2.2) r

/-- Extents without their first n units. -/
def dropExt : Nat → List (Nat × Nat × Nat) → List (Nat × Nat × Nat)
  | _, [] => []
  | n, e :: r => if e.2.2 ≤ n then dropExt (n - e.2.2) r else (e.1, e.2.1 + n, e.2.2 - n) :: r

/-- A stream whose unit u failed to program is written again from there at its next data positions (R285); where that would make more than
two extents, the whole stream is (DEDUCED, log entry 101). -/
def State.writeAgain (s : State) (frame u : Nat) : State :=
  let st := s.cel.stream frame
  let go (u : Nat) : Option (Nat × CelPlaced) := (s.cel.placeUnits (streamUnits st.len - u)).map (fun p => (u, p))
  match (match go u with
    | some r => if (takeExt u st.ext ++ r.2.ext).length ≤ 2 then some r else go 0
    | none => none) with
  | none => s
  | some (u, p) =>
    let x := p.cel.killExt (dropExt u st.ext)
    { s with cel := { x with frames := smSet {} x.frames frame { st with ext := takeExt u st.ext ++ p.ext, par := st.par + p.par } } }

/-- PROGRAM_FAIL: a program of a word line of superblock k's member on a channel fails (R285): its data are written again at the stream's next
data positions, and its multi-plane block is retired. The stream's write goes on. -/
def doProgramFail (k c wl : Nat) (s : State) : State :=
  if cellarFitted s.variant ∧ ((s.cel.sb k).st = 1 ∨ (s.cel.sb k).st = 2) ∧ (s.cel.channels k).contains c then
    let units := s.cel.lineUnits k c wl
    let s := (units.map (·.1)).eraseDups.foldl (fun s f =>
      s.writeAgain f ((units.filter (fun p => p.1 == f)).foldl (fun a p => min a p.2) (2 ^ 32))) s
    s.retireBlock k c
  else s

/-- PROGRAM_FAIL. -/
def execProgramFail (sb : Nat) (l : LineFail) (s : State) : Host.Outcome State Fault Refusal :=
  .next (whenLive s (doProgramFail sb l.ch.val l.wordLine))

/-- ERASE_FAIL: an erase of superblock sb's member on a channel fails (R285). -/
def doEraseFail (k c : Nat) (s : State) : State :=
  if cellarFitted s.variant ∧ k < sbCount ∧ (s.cel.sb k).live = 0 ∧ (s.cel.sb k).st ≠ 4 ∧ (s.cel.channels k).contains c then s.retireBlock k c else s

/-- ERASE_FAIL. -/
def execEraseFail (sb : Nat) (ch : Fin 32) (s : State) : Host.Outcome State Fault Refusal :=
  .next (whenLive s (doEraseFail sb ch.val))

/-! ### Compaction and wear levelling (R287, R288) -/

/-- The superblock to compact: one that is to be dissolved, else the filled one with the fewest live units, then the lowest erase count, then
the lowest k (R287). -/
def Cellar.compactVictim (x : Cellar) : Option Nat :=
  match x.sbs.find? (fun p => p.2.st == 5) with
  | some p => some p.1
  | none =>
    (x.sbs.foldl (fun (a : Option (Nat × Superblock)) p =>
      if p.2.st ≠ 2 ∨ p.1 < 8 then a
      else match a with
        | none => some p
        | some q => if p.2.live < q.2.live ∨ p.2.live = q.2.live ∧ p.2.erase < q.2.erase then some p else a) none).map (·.1)

/-- Compaction runs while fewer superblocks are free than GC_LOW (R287, R295 COMPACTING). -/
def State.compacting (s : State) : Bool := cellarFitted s.variant && decide (s.cel.freeCount < bits s.celCfg 28 8)

/-- COMPACTION: one superblock's live streams are rewritten and it is erased, or dissolved (R285, R287). -/
def doCompaction (s : State) : State :=
  if !s.compacting then s else
  match s.cel.compactVictim with
  | none => s
  | some k =>
    if (s.cel.sb k).st = 5 then ((s.cel.framesIn k).foldl State.celRewrite s).dissolve k
    else
      let s := s.celEmpty k
      if (s.cel.framesIn k).isEmpty then State.celCheck { s with cel := s.cel.eraseSb k } else s

/-- COMPACTION. -/
def execCompaction (s : State) : Host.Outcome State Fault Refusal := .next (whenLive s doCompaction)

/-- The free superblock with the highest erase count, the lowest k on a tie. -/
def Cellar.mostWornFree (x : Cellar) : Option Nat :=
  (List.range sbCount).foldl (fun (a : Option Nat) k =>
    if k < 8 ∨ (x.sb k).st ≠ 0 then a
    else match a with
      | none => some k
      | some j => if (x.sb j).erase < (x.sb k).erase then some k else a) none

/-- The highest and the lowest erase count of the superblocks that hold granules. -/
def Cellar.wearMax (x : Cellar) : Nat := x.sbs.foldl (fun a p => if x.inUse p.1 then max a p.2.erase else a) 0
def Cellar.wearMin (x : Cellar) : Nat := (List.range sbCount).foldl (fun a k => if x.inUse k then min a (x.sb k).erase else a) x.wearMax

/-- The least worn superblock, where it is filled and holds live streams; the lowest such k where several are (DESIGN CHOICE, log entry 102). -/
def Cellar.leastWorn (x : Cellar) : Option Nat :=
  (x.sbs.find? (fun p => decide (8 ≤ p.1) && p.2.st == 2 && p.2.live != 0 && p.2.erase == x.wearMin)).map (·.1)

/-- Move the live units of superblock k to superblock j, in order; k is erased. -/
def State.moveSb (s : State) (k j : Nat) : State :=
  let x := (s.cel.framesIn k).foldl (fun x f =>
    let st := x.stream f
    let r := st.ext.foldl (fun (a : Cellar × List (Nat × Nat × Nat)) e =>
      if e.1 = k then ((a.1.takeIn j e.2.2).cel.killExt [e], a.2 ++ (a.1.takeIn j e.2.2).ext) else (a.1, a.2 ++ [e])) (x, [])
    let st := { st with ext := r.2, day := s.beat.now }
    { r.1 with frames := smSet {} r.1.frames f st, journal := if st.written then smSet {} r.1.journal f st else r.1.journal }) s.cel
  { s with cel := (x.modSb j (fun b => { b with st := 2 })).eraseSb k }

/-- WEAR_LEVEL: where the erase counts lie further apart than WL_GAP, the least worn superblock's live streams move into the free superblock with
the highest erase count (R288). -/
def doWearLevel (s : State) : State :=
  if !cellarFitted s.variant ∨ s.cel.wearMax - s.cel.wearMin ≤ bits s.celCfg 36 12 then s else
  match s.cel.leastWorn, s.cel.mostWornFree with
  | some k, some j =>
    let n := (s.cel.sb k).live
    let b := s.cel.sb j
    if n ≤ b.cap then State.celCheck (State.countNand (s.moveSb k j) (n + ceilDiv n b.rowData)) else s
  | _, _ => s

/-- WEAR_LEVEL. -/
def execWearLevel (s : State) : Host.Outcome State Fault Refusal := .next (whenLive s doWearLevel)

end Sys2Proof.Machine
end

