-- ==== Sys2Proof/Machine/Place.lean ====
section
/-! DEFINITION. Placement and migration: frames (R238, R244), quotas (R248), heat (R252), moves and victims (R251-R258),
the tracker's tags (R259-R261), memory errors and retirement (R262-R269). -/

namespace Sys2Proof.Machine

/-! ### Frames (R238, R244) -/

/-- BANK frames of a part, the reserved ones included. -/
def bankFrames (v : Variant) : Nat := if v = .h6 then 147456 else 196608
/-- BULK frames that lie on one channel. -/
def bulkFrames : Nat := 524286
/-- CELLAR frames. -/
def celFrames (v : Variant) : Nat := if cellarFitted v then 8388608 else 0

/-- Its pseudo-channel. -/
def bankPc (v : Variant) (f : Nat) : Nat := f / (stacksOf v).length % 64
/-- The channel of a BULK frame for contexts. -/
def bulkCh (f : Nat) : Nat := f % 18
/-- The channels of a BULK frame: a spanning one lies on nine (R238). -/
def bulkChs (f : Nat) : List Nat := if f < bulkFrames then [bulkCh f] else (List.range 9).map (· + 9 * (f - bulkFrames))
/-- The channel of byte b of a BULK frame: each of a spanning frame's channels holds 256 KiB of it raw (R239). -/
def bulkChAt (f b : Nat) : Nat := if f < bulkFrames then bulkCh f else 9 * (f - bulkFrames) + b / 262144
/-- The banks of a package that hold a byte of its part of a frame (R239, R267): 4 GiB raw each; a spanning frame's part is the last 256 KiB. -/
def bulkBanks (f : Nat) : List Nat :=
  let lo := f / 18 * 2359296
  if bulkFrames ≤ f then [15]
  else [lo / 2 ^ 32] ++ (if (lo + 2359295) / 2 ^ 32 = lo / 2 ^ 32 then [] else [(lo + 2359295) / 2 ^ 32])

/-- The frames of a tier that are taken: holding a granule, or reserved by a move. -/
def State.taken (s : State) (tier : Nat) : List Nat :=
  s.place.flatMap (fun p => (if p.2.tier = tier then [p.2.loc] else []) ++
    (if p.2.mstate ≠ 0 ∧ p.2.dtier = tier then [p.2.dloc] else [])) ++
  (if tier = 3 then s.cel.ckpts.flatMap (fun k => k.frames) else [])

/-- The frames of a tier out of service. -/
def State.retired (s : State) (tier : Nat) : List Nat :=
  if tier = 1 then s.ras.retBank else if tier = 2 then s.ras.retBulk else []

/-- Frames for contexts in a tier: TIER_CAP (Table 10-6). It falls as each retired frame leaves service: once no granule lies in it (R269). -/
def State.tierCap (s : State) (tier : Nat) : Nat :=
  let gone (l : List Nat) : Nat := (l.filter (fun f => !(s.taken tier).contains f)).length
  if tier = 1 then bankFrames s.variant - 2048 - gone (s.ras.retBank.filter (fun f => decide (2048 ≤ f)))
  else if tier = 2 then bulkFrames - gone (s.ras.retBulk.filter (fun f => decide (f < bulkFrames)))
  else celFrames s.variant

/-- The number of parts (stacks or channels) over which a tier spreads its frames. -/
def State.lanes (s : State) (tier : Nat) : Nat := if tier = 1 then (stacksOf s.variant).length else if tier = 2 then 18 else 1
/-- The first frame and the end of a tier for contexts. -/
def State.tierRange (s : State) (tier : Nat) : Nat × Nat :=
  if tier = 1 then (2048, bankFrames s.variant) else if tier = 2 then (0, bulkFrames) else (0, celFrames s.variant)

/-- Whether lane k of a tier may take a frame: STKMASK or CHMASK allows it, and the unit is not shutting down (R269),
quarantined (R438) or out of service with its die (R304). -/
def State.laneOk (s : State) (tier mask k : Nat) : Bool :=
  if tier = 1 then
    let n := (stacksOf s.variant).getD k 0
    (mask == 0 || bitOf mask n) && !(s.unit n).draining && !(s.unit n).quar && s.hubRoute (n / 2) 0 != .cut
  else if tier = 2 then (mask == 0 || bitOf mask k) && !(s.unit (128 + k)).draining && !(s.unit (128 + k)).quar
  else true

/-- Free frames of lane k. -/
def State.laneFree (s : State) (tier k : Nat) : Nat :=
  let n := s.lanes tier
  let r := s.tierRange tier
  let cnt (m : Nat) : Nat := (m + n - 1 - k) / n
  cnt r.2 - cnt r.1 - ((s.taken tier ++ s.retired tier).eraseDups.filter (fun f => f % n == k && decide (r.1 ≤ f))).length

/-- The lowest free frame of lane k. -/
def State.lowestFree (s : State) (tier k : Nat) : Option Nat :=
  let n := s.lanes tier
  let r := s.tierRange tier
  let used := s.taken tier ++ s.retired tier
  let j0 := (r.1 + n - 1 - k) / n
  ((List.range (used.length + 1)).map (fun i => n * (j0 + i) + k)).find? (fun f => decide (f < r.2) && !used.contains f)

/-- The frame a granule takes (R244): the allowed stack or channel with the most free frames, the lowest-numbered on a
tie, and in it the lowest free index. -/
def State.pickFrame (s : State) (tier mask : Nat) : Option Nat :=
  let best := (List.range (s.lanes tier)).foldl (fun (a : Option Nat) k =>
    if !s.laneOk tier mask k || s.laneFree tier k == 0 then a
    else match a with
      | none => some k
      | some j => if s.laneFree tier j < s.laneFree tier k then some k else a) none
  match best with
  | none => none
  | some k => s.lowestFree tier k

/-- The mask of a region that governs a tier. -/
def Region.mask (r : Region) (tier : Nat) : Nat := if tier = 1 then r.stkMask.toNat else if tier = 2 then r.chMask.toNat else 0

/-! ### Quotas (R248) -/

/-- The quota to which a granule of a region use is charged in a tier. -/
def Ctx.quota (x : Ctx) (tier use : Nat) : Nat :=
  if tier = 1 then (if use = 1 then x.qBankCask else if use = 2 then x.qLedger else x.qBank - x.qBankCask - x.qLedger)
  else if tier = 2 then (if use = 1 then x.qBulkCask else if use = 2 then 0 else x.qBulk - x.qBulkCask)
  else if use = 0 then x.qCel else 0

/-- The region of a logical granule of context c. -/
def State.regionOfLgn (s : State) (c lgn : Nat) : Option Region :=
  ((s.ctx c).regions ++ (s.ctx c).releasing).find? (fun r => !r.host && decide (r.lgn0 ≤ lgn) && decide (lgn < r.lgn0 + r.gcnt))

/-- The USE of a logical granule's region. -/
def State.useOf (s : State) (c lgn : Nat) : Nat := ((s.regionOfLgn c lgn).map (·.use)).getD 0

/-- Granules of context c charged in a tier (R248): those that lie there, and those in a move to it. -/
def State.charged (s : State) (c tier : Nat) : List Nat :=
  (s.place.filter (fun p => p.2.tier != 0 && p.2.ctx == c && (p.2.tier == tier || p.2.mstate != 0 && p.2.dtier == tier))).map (·.1)

/-- Granules charged in a tier: TIER_USE (Table 10-6). Sealed checkpoints count in CELLAR (R291). -/
def State.tierUse (s : State) (c tier : Nat) : Nat :=
  (s.charged c tier).length +
    (if tier = 3 then s.cel.ckpts.foldl (fun a k => if k.ctx = c then a + k.frames.length else a) 0 else 0)

/-- Whether context c's quota for a use in a tier takes n more granules. -/
def State.quotaRoom (s : State) (c tier use n : Nat) : Bool :=
  let used := (s.charged c tier).countP (fun l => s.useOf c l == use)
  let ck := if tier = 3 then s.tierUse c 3 - (s.charged c 3).length else 0
  decide (used + ck + n ≤ (s.ctx c).quota tier use)

/-! ### The tracker (R259, R260) -/

/-- A transfer waits for its tag. -/
def Xfer.waitsTag (f : Xfer) : Bool := f.asked && !f.tag && !f.done && !f.released

/-- The tags of a transfer: its own, and those of its requests. -/
def Xfer.tags (f : Xfer) : Nat := b2n f.tag + f.req

/-- Tags held for the transfers of context c. -/
def State.xferTags (s : State) (c : Nat) : Nat := s.xfers.foldl (fun a x => if x.ctx = c then a + x.tags else a) 0
/-- Request tags held by moves of context c. -/
def State.moveTags (s : State) (c : Nat) : Nat :=
  s.mig.moves.foldl (fun a m => if (s.pent m.lgn).ctx = c then a + m.tags else a) 0
/-- Tags that transfers hold. -/
def State.xferTagsAll (s : State) : Nat := s.xfers.foldl (fun a x => a + x.tags) 0
/-- Tags that moves hold. -/
def State.moveTagsAll (s : State) : Nat := s.mig.moves.foldl (fun a m => a + m.tags) 0
/-- Tags in use: TRK_STAT.INUSE. -/
def State.tagsInUse (s : State) : Nat := s.xferTagsAll + s.moveTagsAll
/-- Tags of context c that count against CTX_CAP: TIER_TAGS.INUSE. -/
def State.ctxTags (s : State) (c : Nat) : Nat := s.xferTags c + s.moveTags c
/-- CTX_CAP in tags. -/
def State.ctxCap (s : State) : Nat := 256 * bits s.trkCfg 24 8
/-- RSV_MIG in tags. -/
def State.migReserve (s : State) : Nat := 256 * bits s.trkCfg 0 8
/-- The shared remainder of the tags. -/
def State.sharedTags (s : State) : Nat :=
  262144 - 256 * (bits s.trkCfg 0 8 + bits s.trkCfg 8 8 + 2 * bits s.trkCfg 16 8)
/-- Shared tags that serve nobody in this clk: those of transfers, what moves hold above their reserve, and those freed in it (R260). -/
def State.sharedUsed (s : State) : Nat :=
  s.xferTagsAll + s.mig.freed.length + (s.moveTagsAll + s.mig.freedM.length - s.migReserve)
/-- Shared tags free to be taken. -/
def State.sharedFree (s : State) : Nat := s.sharedTags - s.sharedUsed
/-- How many tags context c may still take below its cap. -/
def State.ctxRoom (s : State) (c : Nat) : Nat := s.ctxCap - s.ctxTags c - (s.mig.freed ++ s.mig.freedM).count c
/-- Whether a tile transaction of context c finds a tag. -/
def State.tagFree (s : State) (c : Nat) : Bool := decide (0 < s.sharedFree) && decide (0 < s.ctxRoom c)
/-- The transactions that wait for a shared tag, their context below its cap. -/
def State.tagWaiters (s : State) : Nat := s.xfers.countP (fun f => f.waitsTag && decide (0 < s.ctxRoom f.ctx))
/-- Tags that a move of context c may take: from the reserve first, then the shared ones (R260). -/
def State.moveTagRoom (s : State) (c : Nat) : Nat :=
  min (s.ctxRoom c) (s.migReserve - (s.moveTagsAll + s.mig.freedM.length) + s.sharedFree)
/-- Tags that a request of the link dies into BULK or CELLAR finds: their reserve, then the shared ones; no context's cap holds it (R260). -/
def State.linkTagRoom (s : State) : Nat := 256 * bits s.trkCfg 8 8 + s.sharedFree
/-- Tags that a window read of a host port's function, for context c, finds: the port's reserve, then the shared ones (R260). -/
def State.hostTagRoom (s : State) (c : Nat) : Nat := min (s.ctxRoom c) (256 * bits s.trkCfg 16 8 + s.sharedFree)
/-- A request waits: TRK_CNT.WAITS (R261). -/
def State.countWait (s : State) : State := { s with mig := { s.mig with waits := satAdd (2 ^ 48 - 1) s.mig.waits 1 } }
/-- Tags that transfers held are free from the next clk on (R260). -/
def State.freeTags (s : State) (l : List Xfer) : State :=
  { s with mig := { s.mig with freed := s.mig.freed ++ l.flatMap (fun f => List.replicate f.tags f.ctx) } }
/-- The tracker's arbiter has granted requester n a tag, in a clk before this one (R307). -/
def State.trackerGrant (s : State) (n : Nat) : Bool :=
  match (s.arb 10).grant with
  | some g => g.who == n && decide (g.clk < s.beat.now)
  | none => false
/-- Keep the highest INUSE. -/
def State.markHigh (s : State) : State := { s with mig := { s.mig with high := max s.mig.high s.tagsInUse } }

/-! ### Moves -/

/-- A move of a granule is in progress. -/
def State.moveOf (s : State) (lgn : Nat) : Option Move := s.mig.moves.find? (fun m => m.lgn == lgn && m.started)

/-- A deferred update's moment granule rests in BANK on a stack whose kiln group is not in service (R204). -/
def State.kilnOff (s : State) (cls : Nat) (e : PEntry) : Bool :=
  cls == 2 && e.tier == 1 && !(s.unit (8 + bankStack s.variant e.loc)).active

/-- Queue a request for a move (R251). A request to the tier of the move in progress joins it (R257), and one for a move
already queued joins that. -/
def State.requestMove (s : State) (lgn cls target : Nat) (forPin : Bool := false) (forQuota : Bool := false) : State :=
  let e := s.pent lgn
  if e.tier = 0 ∨ (e.tier = target ∧ e.mstate = 0 ∧ cls ≠ 0 ∧ !s.kilnOff cls e) then s
  else if e.mstate ≠ 0 ∧ e.dtier = target then
    { s with mig := { s.mig with moves := s.mig.moves.map (fun m =>
        if m.lgn = lgn ∧ m.started then { m with forPin := m.forPin || forPin } else m) } }
  else if s.mig.moves.any (fun m => m.lgn == lgn && !m.started && m.target == target) then
    { s with mig := { s.mig with moves := s.mig.moves.map (fun m =>
        if m.lgn = lgn ∧ !m.started ∧ m.target = target then
          { m with cls := min m.cls cls, forPin := m.forPin || forPin, forQuota := m.forQuota || forQuota } else m) } }
  else
    let m : Move := { lgn := lgn, cls := cls, target := target, order := s.mig.order, forPin := forPin, forQuota := forQuota }
    { s with mig := { s.mig with moves := s.mig.moves ++ [m], order := s.mig.order + 1 } }

/-- One access of up to 4 KiB adds 1 to a granule's HEAT; at PROMO a class 4 move is requested (R251, R252). -/
def State.heat1 (s : State) (c lgn n : Nat) : State :=
  let s := s.modPent lgn (fun e => { e with heat := satAdd 15 e.heat n })
  let e := s.pent lgn
  match s.regionOfLgn c lgn with
  | none => s
  | some r =>
    if bitOf s.migCfg 39 && !r.noHeat && decide (bits s.migCfg 0 4 ≤ e.heat) && decide (r.top < e.tier) then
      s.requestMove lgn 4 (e.tier - 1) else s

/-- The HEAT of an access to n bytes from ca: one for each 4 KiB it touches (R252). -/
def State.heatCa (s : State) (c ca n : Nat) : State :=
  if scratchBase ≤ ca then s else
  (granulePieces ca n).foldl (fun s p =>
    match s.translate c p.1 with
    | .mem lgn _ => s.heat1 c lgn ((p.1 + p.2 - 1) / 4096 - p.1 / 4096 + 1)
    | _ => s) s

/-- Whether a granule carries a pin. -/
def PEntry.pinned (e : PEntry) : Bool := e.hpin || e.mpin || decide (0 < e.pcnt)

/-- Where a class 2 move of a moment granule may go: stacks with an active kiln group, within STKMASK if one lies in it
(Table 10-5). -/
def State.kilnMask (s : State) (r : Region) : Nat :=
  let act := (stacksOf s.variant).foldl (fun a n => if (s.unit (8 + n)).active then a + 2 ^ n else a) 0
  if act &&& r.stkMask.toNat = 0 then act else act &&& r.stkMask.toNat

/-- The mask of allowed stacks or channels for a move. -/
def State.moveMask (s : State) (r : Region) (cls tier : Nat) : Nat := if cls = 2 ∧ tier = 1 then s.kilnMask r else r.mask tier

/-- Whether CELLAR may take a new stream. -/
def State.celRoom (s : State) (n : Nat) : Bool := s.celMoveOk && !s.cel.throttled && (s.cel.placeUnits n).isSome

/-- Whether a tier has room for a granule of context c: quota, a frame, and for CELLAR the write budget (R254, R291). -/
def State.room (s : State) (c : Nat) (r : Region) (tier mask : Nat) : Bool :=
  s.quotaRoom c tier r.use 1 && (s.pickFrame tier mask).isSome && (tier != 3 || s.celRoom 33)

/-- A move whose requests take no tags: of a FRESH granule, or within BANK (R259). -/
def State.tagless (s : State) (m : Move) : Bool := (s.pent m.lgn).fresh || ((s.pent m.lgn).tier == 1 && m.target == 1)

/-- A frame that a granule must leave (R269): retired, or on a stack or channel that shuts down. -/
def State.mustLeave (s : State) (tier f : Nat) : Bool :=
  (s.retired tier).contains f || (if tier = 1 then (s.unit (bankStack s.variant f)).draining
    else if tier = 2 then (s.unit (128 + bulkCh f)).draining else false)

/-- Start a move whose room is there (R255): take the lock, reserve DLOC, set DTIER. -/
def State.startMove (s : State) (m : Move) (mask : Nat) : State :=
  let e := s.pent m.lgn
  match s.pickFrame m.target mask with
  | none => s
  | some f =>
    let st := if m.target < e.tier then 1 else if e.tier < m.target then 2 else 3
    let tags := if s.tagless m then 0 else min (max 1 (bits s.migCfg 34 5)) (s.moveTagRoom e.ctx)
    let s := if m.target = 3 ∧ e.fresh = false then (s.celStart f (s.streamLen e.tier e.loc)).getD s else s
    let s := if m.target = 3 then s.celCharge 1 else s
    let s := s.modPent m.lgn (fun e => { e with mstate := st, dtier := m.target, dloc := f })
    let rest := s.mig.moves.filter (fun x => !(x.lgn == m.lgn && x.target == m.target && !x.started))
    State.markHigh { s with mig := { s.mig with moves := rest ++ [{ m with started := true, tags := tags, starved := false }] } }

/-- The victims of R254 in a tier, lowest HEAT first, then lowest LGN. -/
def State.victims (s : State) (c : Nat) (r : Region) (tier mask cls heat : Nat) : List Nat :=
  let lackQ := !s.quotaRoom c tier r.use 1
  let lackF := (s.pickFrame tier mask).isNone
  let ok (p : Nat × PEntry) : Bool :=
    let e := p.2
    match s.regionOfLgn c p.1 with
    | none => false
    | some vr =>
      e.ctx == c && e.tier == tier && e.mstate == 0 && !e.pinned &&
      !(s.mig.moves.any (fun m => m.lgn == p.1 && m.forLgn.isSome)) &&
      (!lackQ || vr.use == r.use) &&
      (!lackF || (if tier = 1 then mask == 0 || bitOf mask (bankStack s.variant e.loc)
                  else if tier = 2 then mask == 0 || bitOf mask (bulkCh e.loc) else true)) &&
      decide (tier < vr.bottom) && !(tier + 1 == 3 && e.poison) &&
      (cls != 4 || decide (e.heat + bits s.migCfg 4 4 ≤ heat))
  (s.place.filter ok).foldl (fun (l : List (Nat × PEntry)) p =>
    l.takeWhile (fun q => q.2.heat ≤ p.2.heat) ++ [p] ++ l.dropWhile (fun q => q.2.heat ≤ p.2.heat)) [] |>.map (·.1)

/-- Room below for a victim: none, or one chained eviction (R254). -/
inductive EvictPlan where
  | direct (v : Nat)
  | chained (v w : Nat)
deriving DecidableEq, Repr

/-- How to make room in a tier: the victim goes to the next tier down, where at most one further eviction makes room for it. -/
def State.evictPlan (s : State) (c : Nat) (r : Region) (tier mask cls heat : Nat) : Option EvictPlan :=
  if 3 ≤ tier then none else
  match s.victims c r tier mask cls heat with
  | [] => none
  | v :: _ =>
    match s.regionOfLgn c v with
    | none => none
    | some vr =>
      if s.room c vr (tier + 1) (vr.mask (tier + 1)) then some (.direct v)
      else if 3 ≤ tier + 1 then none
      else match s.victims c vr (tier + 1) (vr.mask (tier + 1)) cls heat with
        | [] => none
        | w :: _ =>
          match s.regionOfLgn c w with
          | none => none
          | some wr => if s.room c wr (tier + 2) (wr.mask (tier + 2)) then some (.chained v w) else none

/-- What trying a queued move came to. -/
inductive MoveTry where
  | acted (s : State)     -- it started, or an eviction for it did
  | dropped               -- R254: no event
  | waits                 -- the lock, a pin or a slot
  | noTag                 -- R261 a request tag
  | noRoom                -- R254: no victim
deriving DecidableEq, Repr

/-- Start the eviction of a victim for granule `lgn`. -/
def State.startEvict (s : State) (v tier cls lgn : Nat) : State :=
  match s.regionOfLgn (s.pent v).ctx v with
  | none => s
  | some vr => s.startMove { lgn := v, cls := cls, target := tier, order := s.mig.order, forLgn := some lgn } (vr.mask tier)

/-- The sum of the contexts' quotas of a tier. -/
def State.quotaSum (s : State) (tier : Nat) : Nat :=
  (List.range 16).foldl (fun a c => a + (if tier = 1 then (s.ctx c).qBank else if tier = 2 then (s.ctx c).qBulk else (s.ctx c).qCel)) 0

/-- A move starts, or finds no request tag (R261). -/
def State.startOr (s : State) (m : Move) (mask : Nat) : MoveTry :=
  if !s.tagless m && s.moveTagRoom (s.pent m.lgn).ctx == 0 then .noTag else .acted (s.startMove m mask)

/-- Make room for a move (R254): the eviction it takes, or what becomes of it. -/
def State.makeRoom (s : State) (m : Move) (r : Region) (mask : Nat) : MoveTry :=
  let e := s.pent m.lgn
  match s.evictPlan e.ctx r m.target mask m.cls e.heat with
  | some (.direct v) => .acted (s.startEvict v (m.target + 1) m.cls m.lgn)
  | some (.chained v w) =>
    let s := s.startEvict w (m.target + 2) m.cls v
    let q : Move := { lgn := v, cls := m.cls, target := m.target + 1, order := s.mig.order, forLgn := some m.lgn }
    .acted { s with mig := { s.mig with moves := s.mig.moves ++ [q], order := s.mig.order + 1 } }
  | none => if m.cls ≤ 2 then .noRoom else .dropped

/-- Try a queued move (R251, R254, R255). -/
def State.tryMove (s : State) (m : Move) : MoveTry :=
  let e := s.pent m.lgn
  let c := e.ctx
  let running := s.mig.moves.countP (fun x => x.started)
  let mine := s.mig.moves.countP (fun x => x.started && (s.pent x.lgn).ctx == c)
  match s.regionOfLgn c m.lgn with
  | none => .dropped
  | some r =>
    if e.tier = 0 ∨ (e.tier = m.target ∧ m.cls ≠ 0 ∧ e.mstate = 0 ∧ !s.kilnOff m.cls e) ∨ r.bottom < m.target ∨ (3 ≤ m.cls ∧ m.target < r.top) then .dropped
    else if e.mstate ≠ 0 ∨ s.mig.moves.any (fun x => x.forLgn == some m.lgn) then .waits
    else if s.frameCut e.tier e.loc then .waits
    else if 512 ≤ running ∨ max 1 (bits s.migCfg 24 10) ≤ mine then .waits
    else if m.cls = 0 then
      (if e.tier ≠ m.target ∨ !s.mustLeave e.tier e.loc then .dropped
       else if 0 < e.pcnt then .waits
       else if (s.pickFrame m.target (r.mask m.target)).isSome then s.startOr m (r.mask m.target)
       else if s.tierCap m.target < s.quotaSum m.target then s.makeRoom m r (r.mask m.target)
       else .noRoom)
    else if e.pinned then (if m.cls ≤ 2 ∨ m.forPin ∨ m.forQuota then .waits else .dropped)
    else
      let mask := s.moveMask r m.cls m.target
      if s.room c r m.target mask then s.startOr m mask
      else if m.forLgn.isSome then (if m.cls ≤ 2 then .noRoom else .dropped)
      else s.makeRoom m r mask

/-- Drop a queued move. A move of MEM_PIN or of a lowered quota that finds no room ends its command (R249, R250): the
command's record keeps that. -/
def State.dropMove (s : State) (m : Move) : State :=
  let s := { s with mig := { s.mig with moves := s.mig.moves.filter (fun x => !(x.lgn == m.lgn && x.target == m.target && !x.started)) } }
  if m.forPin ∨ m.forQuota then
    { s with fns := smMap {} s.fns (fun _ f =>
        let upd (k : Cmd) : Cmd := if k.ctx = (s.pent m.lgn).ctx ∧ k.ended = none then
          (match k.wait with
            | .pin l _ _ => if m.forPin ∧ l.contains m.lgn then { k with ended := some 8 } else k
            | .quota _ _ => if m.forQuota then { k with ended := some 8 } else k
            | _ => k) else k
        { f with detached := f.detached.map upd, busy := f.busy.map upd }) }
  else s

/-- A queued move changed by f. -/
def State.modQueued (s : State) (m : Move) (f : Move → Move) : State :=
  { s with mig := { s.mig with moves := s.mig.moves.map (fun x => if x = m then f x else x) } }

/-- A move waits for room: logged once per step of its context (R254). -/
def State.noRoomLog (s : State) (m : Move) : State :=
  let c := (s.pent m.lgn).ctx
  let s := s.modQueued m (fun x => { x with starved := true })
  if (s.ctx c).step.loggedRoom then s
  else (s.logDev 0x2005 (some c) 0).modStep c (fun k => { k with loggedRoom := true })

/-- The queued moves in the order of R251: class, order of request, LGN. -/
def State.moveQueue (s : State) : List Move :=
  (s.mig.moves.filter (fun m => !m.started)).foldl (fun (l : List Move) m =>
    let before (x : Move) : Bool := decide (x.cls < m.cls ∨ x.cls = m.cls ∧ (x.order < m.order ∨ x.order = m.order ∧ x.lgn ≤ m.lgn))
    l.takeWhile before ++ [m] ++ l.dropWhile before) []

/-- Serve the queue until one move acts. -/
def serveMoves : List Move → State → State
  | [], s => s
  | m :: r, s =>
    match s.tryMove m with
    | .acted s' => s'
    | .dropped => serveMoves r (s.dropMove m)
    | .waits => serveMoves r s
    | .noTag => serveMoves r (if m.noTag then s else (s.modQueued m (fun x => { x with noTag := true })).countWait)
    | .noRoom => serveMoves r (s.noRoomLog m)

/-- A queued move of class 0 to 2 waits for room: MIG_STAT.NOROOM (Table 10-6). -/
def State.noRoom (s : State) : Bool := s.mig.moves.any (fun m => !m.started && m.starved && decide (m.cls ≤ 2))

/-- Every queued move asks for room again. -/
def State.askRoom (s : State) : State := { s with mig := { s.mig with moves := s.mig.moves.map (fun m => { m with starved := false }) } }

/-- MOVE_START: the engine starts the first queued move it can, or an eviction for it (R251, R254). -/
def doMoveStart (s : State) : State := serveMoves s.askRoom.moveQueue s.askRoom

/-- MOVE_START. -/
def execMoveStart (s : State) : Host.Outcome State Fault Refusal := .next (whenLive s doMoveStart)

/-- Shift entries of a sparse table from keys lo ≤ k < lo + n to dst upward, replacing what stood there. -/
def smShift {α : Type} [DecidableEq α] (d : α) (m : SMap α) (lo n dst : Nat) : SMap α :=
  let part := m.filter (fun p => decide (lo ≤ p.1) && decide (p.1 < lo + n))
  part.foldl (fun (a : SMap α) p => smSet d a (dst + (p.1 - lo)) p.2) (smErase (smErase m lo (lo + n)) dst (dst + n))

/-- The numbers lo to lo + n of a set, moved to dst; what the set held there is gone. -/
def setShift (l : List Nat) (lo n dst : Nat) : List Nat :=
  let inA (w : Nat) : Bool := decide (lo ≤ w) && decide (w < lo + n)
  let inB (w : Nat) : Bool := decide (dst ≤ w) && decide (w < dst + n)
  (l.filter inA).foldl (fun l w => setAdd l (w - lo + dst)) (l.filter (fun w => !inA w && !inB w))

/-- A frame's slot headers as a tier holds them (R219): in CELLAR packed, a PLAIN slot's block with its CRC; elsewhere PLAIN is zero. -/
def State.convertHdrs (s : State) (tier frame : Nat) : State :=
  { s with hdrs := (List.range 512).foldl (fun h j =>
      let k := daKey tier frame (4096 * j) / 4096
      if tier = 3 then smSet 0 h k (BitVec.ofNat 64 (s.packedHdr 3 frame j))
      else if hType (smGet 0 h k).toNat = 0 then smSet 0 h k 0 else h) s.hdrs }

/-- Copy a frame with its poison and its header page, converted to and from CELLAR, and release the old one (R255). -/
def State.moveFrame (s : State) (t1 f1 t2 f2 : Nat) : State :=
  let a := daKey t1 f1 0
  let b := daKey t2 f2 0
  let s := { s with mem := smShift 0 s.mem a granule b, hdrs := smShift 0 s.hdrs (a / 4096) 512 (b / 4096),
                    hdrPoison := setShift s.hdrPoison (a / 4096) 512 (b / 4096), poison := setShift s.poison (a / 16) (granule / 16) (b / 16) }
  if t1 = 3 ∨ t2 = 3 then s.convertHdrs t2 f2 else s

/-- Forget a frame's bytes, poison and headers. -/
def State.clearFrame (s : State) (tier frame : Nat) : State :=
  let a := daKey tier frame 0
  let s := { (s.zero a (a + granule)) with
    hdrs := smErase s.hdrs (a / 4096) (a / 4096 + 512), hdrPoison := s.hdrPoison.filter (fun k => !(decide (a / 4096 ≤ k) && decide (k < a / 4096 + 512))) }
  if tier = 3 then { s with cel := s.cel.dropFrame frame } else s

/-- The move for which the move m made room takes it at once (worked example under R258). -/
def State.takeRoom (s : State) (m : Move) : State :=
  match m.forLgn with
  | none => s
  | some g =>
    match s.mig.moves.find? (fun x => x.lgn == g && !x.started) with
    | none => s
    | some q =>
      match s.tryMove q with
      | .acted s' => s'
      | _ => s

/-- End the move of a granule (R255): in one clk TIER, LOC and EPOCH change and the old frame is released. A move into
CELLAR ends once its stream is written (R277). -/
def State.finishMove (s : State) (lgn : Nat) : State :=
  match s.moveOf lgn with
  | none => s
  | some m =>
    let e := s.pent lgn
    if e.dtier = 3 ∧ !e.fresh ∧ !(s.cel.stream e.dloc).written then s else
    let s := if e.fresh then s else s.moveFrame e.tier e.loc e.dtier e.dloc
    let s := if e.tier = 3 then { s with cel := s.cel.dropFrame e.loc } else s
    let s := { s with mig := { s.mig with moves := s.mig.moves.filter (fun x => !(x.lgn == lgn && x.started)),
                                           freedM := s.mig.freedM ++ List.replicate m.tags e.ctx } }
    let s := s.modPent lgn (fun e => { e with tier := e.dtier, loc := e.dloc, epoch := (e.epoch + 1) % 2 ^ 24,
                                              mstate := 0, dtier := 0, dloc := 0, hpin := e.hpin || m.forPin })
    let s := s.modCtx e.ctx (fun x =>
      { x with promo := if e.dtier < e.tier then satAdd (2 ^ 32 - 1) x.promo 1 else x.promo,
               evict := if e.tier < e.dtier then satAdd (2 ^ 32 - 1) x.evict 1 else x.evict })
    let s := if s.mustLeave e.dtier e.dloc then s.requestMove lgn 0 e.dtier else s
    s.advanceEpoch.takeRoom m

/-! ### FRESH fill, heat decay, release (R245, R252, R247) -/

/-- Start the zero fill of a FRESH granule's frame (R245). -/
def State.startFill (s : State) (lgn : Nat) : State := s.modPent lgn (fun e => if e.fresh then { e with filling := true } else e)

/-- The zero fill ends: the frame holds zero, and FRESH clears (R245). -/
def State.fillDone (s : State) (lgn : Nat) : State :=
  let e := s.pent lgn
  if e.filling && e.fresh then
    (s.clearFrame e.tier e.loc).modPent lgn (fun e => { e with fresh := false, filling := false })
  else s

/-- HEAT_DECAY: when DECAY beats have passed every HEAT is halved, rounding down (R252). -/
def doHeatDecay (s : State) : State :=
  if s.mig.decay < max 1 (bits s.migCfg 8 16) then s
  else { s with place := smMap {} s.place (fun _ e => { e with heat := e.heat / 2 }), mig := { s.mig with decay := 0 } }

/-- HEAT_DECAY. -/
def execHeatDecay (s : State) : Host.Outcome State Fault Refusal := .next (whenLive s doHeatDecay)

/-- Remove a region's moves: queued ones go, one in progress frees DLOC (R255). -/
def State.cancelMoves (s : State) (lgns : List Nat) : State :=
  let mine := s.mig.moves.filter (fun m => lgns.contains m.lgn)
  let s := { s with mig := { s.mig with
    moves := s.mig.moves.filter (fun m => !lgns.contains m.lgn),
    freedM := s.mig.freedM ++ mine.flatMap (fun m => List.replicate m.tags (s.pent m.lgn).ctx) } }
  lgns.foldl (fun s l =>
    let e := s.pent l
    let s := if e.mstate ≠ 0 ∧ e.dtier = 3 then { s with cel := s.cel.dropFrame e.dloc } else s
    s.modPent l (fun e => { e with mstate := 0, dtier := 0, dloc := 0 })) s

/-- The granules of a region. -/
def Region.lgns (r : Region) : List Nat := if r.host then [] else (List.range r.gcnt).map (fun i => r.lgn0 + i)

/-- Free the frames of granules (R247). -/
def State.freeGranules (s : State) (lgns : List Nat) : State :=
  lgns.foldl (fun s l =>
    let e := s.pent l
    (if e.tier = 0 then s else s.clearFrame e.tier e.loc).modPent l (fun _ => {})) s

/-- REGION_RELEASE: an unmapped region's frames are freed once nothing holds them (R247). The last release of a context
that closed ends its shut-down, and a pending open then applies (R440, R441). -/
def doRegionRelease (c ca : Nat) (s : State) : State :=
  match (s.ctx c).releasing.find? (fun r => r.gbase == ca / granule) with
  | none => s
  | some r =>
    if r.lgns.any (fun l => decide (0 < (s.pent l).pcnt) || (s.pent l).mstate != 0) then s else
    let s := s.freeGranules r.lgns
    let s := s.modCtx c (fun x => { x with releasing := x.releasing.filter (fun q => q.gbase != r.gbase || q.lgn0 != r.lgn0) })
    if (s.ctx c).releasing.isEmpty then
      s.modCtx c (fun x => if x.st = .draining then { x with st := .closed } else { x with pendEn := false })
    else s

/-- REGION_RELEASE. -/
def execRegionRelease (c : CtxId) (ca : Nat) (s : State) : Host.Outcome State Fault Refusal :=
  .next (whenLive s (doRegionRelease c.val ca))

/-! ### Memory errors and retirement (R262-R269) -/

/-- The context address of a granule's byte, 0 if unmapped (Table 18-3). -/
def State.caOf (s : State) (lgn b : Nat) : Nat :=
  match s.regionOfLgn (s.pent lgn).ctx lgn with
  | some r => (r.gbase + (lgn - r.lgn0)) * granule + b
  | none => 0

/-- The frames of BANK's reserved spare (Table 10-2): the last 835.5 MiB of the reserved 4 GiB, whole frames (DESIGN CHOICE, log entry 103). -/
def spareFrames : List Nat := (List.range 417).map (· + 1631)

/-- The BANK frame that holds the content of a reserved frame: 2^25 + f for a spanning BULK frame. -/
def State.contentAt (s : State) (key : Nat) : Nat := smGet key s.ras.displaced key

/-- Reserved device data leaves a frame that is retired for the lowest free frame of the spare (R239, R266). -/
def State.displace (s : State) (key : Nat) : State :=
  let used := s.ras.displaced.map (·.2)
  match spareFrames.find? (fun g => !used.contains g && !s.ras.retBank.contains g) with
  | some g => { s with ras := { s.ras with displaced := smPut s.ras.displaced key g } }
  | none => s

/-- What a retired frame held leaves it: the device's own data goes into the spare; a granule moves out at class 0; a move to it goes to
another frame (R269). -/
def State.evacuate (s : State) (tier f : Nat) : State :=
  if tier = 2 ∧ bulkFrames ≤ f then s.displace (2 ^ 25 + f)
  else if tier = 1 ∧ f < 2048 then
    match s.ras.displaced.find? (fun p => p.2 == f) with
    | some p => s.displace p.1
    | none => if spareFrames.contains f then s else s.displace f
  else
    let s := match s.lgnAt tier f with
      | some l => s.requestMove l 0 tier
      | none => s
    match s.place.find? (fun p => p.2.mstate != 0 && p.2.dtier == tier && p.2.dloc == f) with
    | some (l, e) =>
      match s.pickFrame tier (((s.regionOfLgn e.ctx l).map (fun r => r.mask tier)).getD 0) with
      | some g => s.modPent l (fun e => { e with dloc := g })
      | none => s
    | none => s

/-- A retired frame counts in its unit's FRET (Table 10-6). -/
def State.countFret (s : State) (tier f ch : Nat) : State :=
  let up (r : RasUnit) : RasUnit := { r with fret := satAdd 4095 r.fret 1 }
  if tier = 1 then { s with ras := { s.ras with stk := smMod {} s.ras.stk (bankStack s.variant f) up } }
  else { s with ras := { s.ras with ch := smMod {} s.ras.ch ch up } }

/-- Retire a frame (R266, R267): what it holds leaves it, and it leaves service. `ch` is the BULK channel that retires it. -/
def State.retireFrame (s : State) (tier f ch : Nat) : State :=
  if (s.retired tier).contains f then s
  else
    let s := if tier = 1 then { s with ras := { s.ras with retBank := setAdd s.ras.retBank f } }
             else { s with ras := { s.ras with retBulk := setAdd s.ras.retBulk f } }
    (s.countFret tier f ch).evacuate tier f

/-- A retirement is logged with its unit (R266, R267). -/
def State.logRetired (s : State) (kind no : Nat) : State := s.logEvent 0x2003 none 31 0 kind no 0

/-- Retire a pseudo-channel of a stack: its frames are evacuated and leave service (R266). -/
def State.retirePc (s : State) (stack pc : Nat) : State :=
  let n := (stacksOf s.variant).length
  let k := (stacksOf s.variant).findIdx (· == stack)
  let s := (List.range 384).foldl (fun s i => s.retireFrame 1 (k + n * (pc + 64 * i)) 0) s
  let s := { s with ras := { s.ras with stk := smMod {} s.ras.stk stack (fun r => { r with ret := r.ret ||| 2 ^ pc }) } }
  s.logRetired 2 (stack + 256 * pc)

/-- Retire a bank of a BULK package: every frame that holds a byte of it (R267). -/
def State.retireBank (s : State) (ch bank : Nat) : State :=
  let j0 := bank * 2 ^ 32 / 2359296
  let whole := ((List.range 1823).map (fun i => (j0 + i) * 18 + ch)).filter (fun f => decide (f < bulkFrames) && (bulkBanks f).contains bank)
  let s := (whole ++ (if bank = 15 then [bulkFrames + ch / 9] else [])).foldl (fun s f => s.retireFrame 2 f ch) s
  let s := { s with ras := { s.ras with ch := smMod {} s.ras.ch ch (fun r => { r with ret := r.ret ||| 2 ^ bank }) } }
  s.logRetired 0xA (ch + 256 * bank)

/-- Retire the BANK row that holds a device address: a spare row, else its frame, else its pseudo-channel (R266). -/
def State.retireRowBank (s : State) (da : Nat) : State :=
  let f := bits da 21 25
  let st := bankStack s.variant f
  let pc := bankPc s.variant f
  let key := st * 64 + pc
  if 0 < smGet 64 s.ras.rowsLeft key then
    State.logRetired { s with ras := { s.ras with rowsLeft := smMod 64 s.ras.rowsLeft key (· - 1) } } 2 (st + 256 * pc)
  else
    let s := if s.ras.retBank.contains f then s else (s.retireFrame 1 f 0).logRetired 2 (st + 256 * pc)
    let n := s.ras.retBank.countP (fun g => bankStack s.variant g == st && bankPc s.variant g == pc)
    let done := bitOf (smGet {} s.ras.stk st).ret pc
    if bits s.rasCfg 8 8 < n ∧ !done then s.retirePc st pc else s

/-- Retire the BULK frame that holds a device address, and a bank with too many (R267). -/
def State.retireRowBulk (s : State) (da : Nat) : State :=
  let f := bits da 21 25
  let c := bulkChAt f (da % granule)
  let s := if s.ras.retBulk.contains f then s else (s.retireFrame 2 f c).logRetired 0xA (c + 256 * (bulkBanks f).headD 0)
  (bulkBanks f).foldl (fun s b =>
    let n := s.ras.retBulk.countP (fun g => (bulkChs g).contains c && (bulkBanks g).contains b)
    if bits s.rasCfg 8 8 < n ∧ !bitOf (smGet {} s.ras.ch c).ret b then s.retireBank c b else s) s

/-- The scratchpad or die pool of a window offset: tile t, or 96 + die. -/
def scratchUnit (o : Nat) : Nat := if o < 0xC0000000 then o / 0x2000000 else 96 + (o - 0xC0000000) / 0x4000000

/-- UNIT kind and number of a scratchpad or a die pool, which Table 18-3 gives no code: the device's (DESIGN CHOICE, log entry 104). -/
def scratchCode (o : Nat) : Nat × Nat := if scratchUnit o < 96 then (1, scratchUnit o) else (0, 0)

/-- Retire a scratch line: one of 32 spares, then only poison, logged once (R268). -/
def State.retireLine (s : State) (o : Nat) : State :=
  let u := scratchUnit o
  let k := scratchCode o
  if 0 < smGet 32 s.ras.linesLeft u then
    State.logRetired { s with ras := { s.ras with linesLeft := smMod 32 s.ras.linesLeft u (· - 1) } } k.1 k.2
  else if s.ras.scrOut.contains u then s
  else State.logRetired { s with ras := { s.ras with scrOut := setAdd s.ras.scrOut u } } k.1 k.2

/-- The row of a word, as the address of its first byte: 256-byte lines of SCRATCH (R51), rows of BANK and BULK of 1 KiB and
2 KiB (PRESUMED, log entry 16). The hub network has none. -/
def rowKey : RasPlace → Option Nat
  | .scratch o => some (o - o % 256)
  | .bank da => some (da - da % 1024)
  | .bulk da => some (da - da % 2048)
  | .net _ => none
  | .netHeader _ => none

/-- Count a corrected or uncorrectable word in its unit's counters (R263, R264, R270). -/
def State.rasCount (s : State) (p : RasPlace) (ue : Bool) : State :=
  let ce (n : Nat) : Nat := if ue then n else satAdd (2 ^ 24 - 1) n 1
  let un (n : Nat) : Nat := if ue then satAdd (2 ^ 16 - 1) n 1 else n
  match p with
  | .scratch _ => { s with ras := { s.ras with scrCe := ce s.ras.scrCe, scrUe := un s.ras.scrUe } }
  | .net _ | .netHeader _ => { s with ras := { s.ras with netCe := ce s.ras.netCe, netUe := un s.ras.netUe } }
  | .bank da =>
    let st := bankStack s.variant (bits da 21 25)
    { s with ras := { s.ras with stk := smMod {} s.ras.stk st (fun r => { r with ce := ce r.ce, ue := un r.ue }) } }
  | .bulk da =>
    let ch := bulkChAt (bits da 21 25) (da % granule)
    { s with ras := { s.ras with ch := smMod {} s.ras.ch ch (fun r => { r with ce := ce r.ce, ue := un r.ue }) } }

/-- Retire the row or line of a word. -/
def State.retireRow (s : State) (p : RasPlace) : State :=
  match p with
  | .scratch o => s.retireLine o
  | .bank da => s.retireRowBank da
  | .bulk da => s.retireRowBulk da
  | _ => s

/-- The slots whose headers lie in the 16-byte word at byte b of a reserved BANK frame: the header pages of the BANK frames, then of the BULK
frames, fill the reserved frames from the first on (R240; DESIGN CHOICE of the order, log entry 103). -/
def State.headerSlots (s : State) (f b : Nat) : List Nat :=
  match (List.range 1409).find? (fun g => s.contentAt g == f) with
  | none => []
  | some g =>
    let o := g * granule + b
    let n := o / 4096
    let slot (j : Nat) : Nat := if n < bankFrames s.variant then daKey 1 n (4096 * j) / 4096 else daKey 2 (n - bankFrames s.variant) (4096 * j) / 4096
    if n < bankFrames s.variant + 524288 then [slot (o % 4096 / 16 * 2), slot (o % 4096 / 16 * 2 + 1)] else []

/-- A word of the reserved frames is poisoned; where it holds slot headers, those are (R231, R264). -/
def State.poisonHeaders (s : State) (f b : Nat) : State := { s with hdrPoison := (s.headerSlots f b).foldl setAdd s.hdrPoison }

/-- 0x2002 with its unit, device address and context address, and the whole report with the consumer (R264; DESIGN CHOICE, log entry 104). -/
def State.logUe (s : State) (p : RasPlace) (ctx ca : Option Nat) (who : UeConsumer) : State :=
  let s := { s with ras := { s.ras with ue := some ⟨p, ca, who⟩ } }
  match p with
  | .scratch o => s.logEvent 0x2002 ctx 31 0 (scratchCode o).1 (scratchCode o).2 ((ca.getD 0) * (if (scratchCode o).1 = 1 then 2 ^ 64 else 1))
  | .bank da =>
    let f := bits da 21 25
    s.logEvent 0x2002 ctx 31 0 2 (bankStack s.variant f + 256 * bankPc s.variant f) (da + 2 ^ 48 * ca.getD 0)
  | .bulk da =>
    let f := bits da 21 25
    s.logEvent 0x2002 ctx 31 0 0xA (bulkChAt f (da % granule) + 256 * (bulkBanks f).headD 0) (da + 2 ^ 48 * ca.getD 0)
  | _ => s.logEvent 0x2002 ctx 31 0 0 0 0

/-- A word could not be corrected (R264): it takes the poison pattern, its granule POISON, and 0x2002 is logged. What a flit of the hub network
carried is poisoned where it lands. -/
def State.poisonWord (s : State) (p : RasPlace) (who : UeConsumer) : State :=
  match p with
  | .scratch o => State.logUe { s with poison := setAdd s.poison (o / 16) } p none (some (scratchBase + o)) who
  | .bank da | .bulk da =>
    let f := bits da 21 25
    let tier := bits da 46 2
    let s := { s with poison := setAdd s.poison (da / 16) }
    let s := if tier = 1 ∧ f < 2048 then s.poisonHeaders f (da % granule) else s
    match s.lgnAt tier f with
    | some l => (s.markPoison l).logUe p (some (s.pent l).ctx) (some (s.caOf l (da % granule))) who
    | none => s.logUe p none none who
  | _ => s.logUe p none none who

/-- One finding (R263, R264, R266): one bad symbol is corrected and counted, two or more make the word poison. -/
def State.rasFind (who : UeConsumer) (s : State) (x : RasFinding) : State :=
  if x.badSymbols = 0 then s
  else if x.badSymbols = 1 then
    let s := s.rasCount x.place false
    match rowKey x.place with
    | none => s
    | some k =>
      let s := { s with ras := { s.ras with rowCe := smMod 0 s.ras.rowCe k (· + 1) } }
      if smGet 0 s.ras.rowCe k = max 1 (bits s.rasCfg 0 8) then (s.logDev 0x2001 none 0).retireRow x.place else s
  else ((s.rasCount x.place true).poisonWord x.place who).retireRow x.place

/-- The tier of a row key: 0 SCRATCH, 1 BANK, 2 BULK. -/
def keyTier (k : Nat) : Nat := k / 2 ^ 46

/-- A place lies in a tier that the patrol reads. -/
def placeInTier : RasPlace → Nat → Bool
  | .scratch _, t => t == 0
  | .bank _, t => t == 1
  | .bulk _, t => t == 2
  | _, _ => false

/-- The patrol period of a tier in clk: SCRATCH an hour, BANK and BULK the hours of TIER_RAS_CFG (R263). -/
def State.patrolPeriod (s : State) (tier : Nat) : Nat :=
  2160000000000 * (if tier = 0 then 1 else max 1 (bits s.rasCfg (if tier = 1 then 16 else 24) 8))

/-- PATROL_SCRUB: a period has passed in which the patrol of a tier read every word once (R263): what it found is corrected or poisoned, POISON
clears where no poisoned word is left (R264), and the rows' counts restart. -/
def doPatrolScrub (tier : Nat) (found : List RasFinding) (s : State) : State :=
  if s.beat.now < smGet 0 s.ras.patrolClk tier + s.patrolPeriod tier then s else
  let s := (found.filter (fun x => placeInTier x.place tier)).foldl (State.rasFind .patrol) s
  { s with place := smMap {} s.place (fun _ e =>
             if e.poison && e.tier == tier && !s.poisoned (daKey e.tier e.loc 0) granule then { e with poison := false } else e),
           ras := { s.ras with rowCe := s.ras.rowCe.filter (fun p => keyTier p.1 != tier), patrolClk := smSet 0 s.ras.patrolClk tier s.beat.now } }

/-- PATROL_SCRUB. -/
def execPatrolScrub (tier : Fin 3) (found : List RasFinding) (s : State) : Host.Outcome State Fault Refusal :=
  .next (whenLive s (doPatrolScrub tier.val found))

/-- PHY_FAULT: a fault that spans a whole pseudo-channel or bank retires it (R266, R267). -/
def doPhyFault (u : PhyUnit) (s : State) : State :=
  match u with
  | .pseudoChannel st pc =>
    if stackFitted s.variant st.val && !bitOf (smGet {} s.ras.stk st.val).ret pc.val then s.retirePc st.val pc.val else s
  | .bank ch b => if bitOf (smGet {} s.ras.ch ch.val).ret b.val then s else s.retireBank ch.val b.val

/-- PHY_FAULT. -/
def execPhyFault (u : PhyUnit) (s : State) : Host.Outcome State Fault Refusal := .next (whenLive s (doPhyFault u))

end Sys2Proof.Machine
end

