-- ==== Sys2Proof/Machine/Sequencer.lean ====
section
/-! DEFINITION. The sequencers (R57-R64, R29-R34): reaching an instruction, its admission, completion and LAST; the CTRL and
SYNC operations; ICACHE_FILL and REMOTE_SIGNAL_APPLY. -/

namespace Sys2Proof.Machine

/-! ### Streams -/

/-- A stream starts a step at PC 0 with empty stacks (R26, R80, R89). What it admitted in this clk still counts (R29). -/
def Seq.startStep (q : Seq) (step : Nat) (retry : Bool) : Seq :=
  if q.plen = 0 then q
  else { q with pc := 0, loops := [], calls := [], seqNo := 0, run := true, held := false, waiting := false,
                faulted := false, stopped := false, stepNo := step, retry := retry, beatWait := none,
                committed := false, lastSeen := false, lastPassed := false }

/-- LAST is passed once it and every earlier instruction have completed; it implies the commit point (R26, R64). The stream
starts the next step at once where that step is open. -/
def State.finishStream (s : State) (t : Nat) (st : Stream) : State :=
  let q := s.seq t st
  if q.run && q.lastSeen && q.inflight.isEmpty && q.beatWait.isNone then
    let s := s.modSeq t st (fun q => { q with lastPassed := true, committed := true, run := false })
    match s.tileCtx t with
    | none => s
    | some c =>
      let k := (s.ctx c).step
      if k.opened && k.stepNo == q.stepNo + 1 then s.modSeq t st (·.startStep k.stepNo k.retry) else s
  else s

/-- Close the loops that end at an admitted instruction (R62): go back while the index is below the count, else pop. -/
def closeLoops (pc next : Nat) : List LoopLevel → Nat × List LoopLevel
  | [] => (next, [])
  | l :: r =>
    if l.stop = pc then
      (if l.idx + 1 < l.count then (l.start, { l with idx := l.idx + 1 } :: r) else closeLoops pc next r)
    else (next, l :: r)

/-- An instruction retires (R60): it leaves the stream's in-flight list, its counts join the tile's (R133), and its record
is written (R80). -/
def State.retire (s : State) (t : Nat) (st : Stream) (x : InFlight) : State :=
  let s := s.modSeq t st (fun q => { q with inflight := q.inflight.filter (fun y => y.seq != x.seq || y.step != x.step) })
  let s := s.modTile t (·.addCounts x.counts)
  (s.writeRecord t st x (s.beat.now - x.clk)).finishStream t st

/-! ### Reaching an instruction -/

/-- Admission is stopped for the whole part: a power peak (R471), a missing verdict (R327), or the core
rails switched off (R462). -/
def State.admissionStopped (s : State) : Bool := s.pwr.peak || !s.board.missing.isEmpty || !s.pwr.coreRails

/-- The 256-byte line of a PC, in units of 256 bytes of context address (R57, R58). -/
def Seq.lineOf (q : Seq) (pc : Nat) : Nat := q.pbase + pc / 16

/-- What stands at the PC. -/
inductive Reach where
  | stop (s : State)      -- the stream does not reach the instruction in this step
  | fault (code : Nat)    -- R86: it is not admitted
  | ready
deriving DecidableEq, Repr

/-- The stream cannot reach a next instruction: not in a step, stopped, waiting or fetching. -/
def Seq.blocked (q : Seq) (now : Nat) : Bool :=
  !q.run || q.faulted || q.stopped || q.lastSeen || q.beatWait.isSome || q.semHeld now || !q.fetching.isEmpty ||
  q.inflight.any (fun x => x.wait == .cask)

/-- Reach the instruction at the PC (R58, R63, R72, R73, R75, R85). `pre` holds the operation's own checks. A word whose CLASS and OP
are those of another row's operation is not this row's to reach. -/
def State.reach (s : State) (t : Nat) (st : Stream) (k : OpInfo) (w : Insn) (pre : Seq → Option Nat) : Reach :=
  let q := s.seq t st
  if q.blocked s.beat.now || (s.unit (16 + t)).quar then .stop s
  else if q.plen ≤ q.pc then .fault 0x4015
  else if !q.icache.contains (q.lineOf q.pc) then
    .stop (s.modSeq t st (fun q => { q with icMiss := satAdd (2 ^ 32 - 1) q.icMiss 1,
                                            fetching := [q.lineOf q.pc, q.lineOf q.pc + 1, q.lineOf q.pc + 2] }))
  else if q.icPoison.contains (16 * q.pbase + q.pc) then .fault 0x2002
  else if !opListed w then .fault 0x4010
  else if !k.isOf w then .stop s
  else if illegalWord k st w || k.desc && decide (q.loops.length < lsel w) then .fault 0x4010
  else if w.last && (!q.loops.isEmpty || !q.calls.isEmpty) then .fault 0x4014
  else match pre q with
    | some code => .fault code
    | none => .ready

/-- The entry of an instruction at the PC. -/
def Seq.entry (q : Seq) (w : Insn) (now : Nat) : InFlight :=
  { seq := q.seqNo, cls := w.cls.toNat, op := w.op.toNat, opb := w.opb.toNat, pc := q.pc, clk := now, rcd := w.rcd, last := w.last,
    step := q.stepNo, retry := q.retry }

/-- A fault of an instruction that is not admitted. No record where no instruction could be read: past the program's end,
or a poisoned word. -/
def State.reachFault (s : State) (t : Nat) (st : Stream) (w : Insn) (code : Nat) : State :=
  let q := s.seq t st
  let x := q.entry w s.beat.now
  s.progFault t st { x with rcd := x.rcd && decide (q.pc < q.plen) && code != 0x2002 } code 0 0

/-! ### Admission (R29, R34, R59, R61) -/

/-- What the admission test gives. -/
inductive Admit where
  | ok | hold | unfit
deriving DecidableEq, Repr

/-- The admission test of R29. -/
def State.admitTest (s : State) (budget : Nat) : Admit :=
  if s.admissionStopped then .hold
  else if budget = 0 then (if s.clk = 0 then .ok else .hold)
  else if s.beat.periodEff < budget then .unfit
  else if budget ≤ s.beat.periodEff - s.clk then .ok
  else .hold

/-- BUDGET_UNFIT (R34): the instruction is not admitted, the stream stops and the step aborts. -/
def State.budgetUnfit (s : State) (t c : Nat) (st : Stream) : State :=
  let q := s.seq t st
  let s := s.logTile 0x4004 (some c) t st q.pc q.seqNo 0
  let s := s.modSeq t st (fun q => { q with stopped := true, held := false, waiting := false })
  s.requestAbort c 0x4004 (some q.stepNo) (placeOf t st) true

/-- What an admitted instruction's work came to: the state, its entry, a fault, and the PC it branches to (R171). `skip`: in this clk
the rules serve it before what another stream has had already, so it is not reached in this clk (log entry 90). -/
structure Ran where
  st : State
  fl : InFlight
  fault : Option DFault := none
  jump : Option Nat := none
  skip : Bool := false

/-- The stream goes on past an admitted instruction: its own flow, then the loops that end there, then a branch of
CASK.GET. -/
def Seq.goOn (q : Seq) (flow : Seq → Seq) (jump : Option Nat) : Seq :=
  let p := flow q
  let r := closeLoops q.pc p.pc p.loops
  match jump with
  | none => { p with pc := r.1, loops := r.2 }
  | some tgt => { p with pc := tgt, loops := r.2, calls := r.1 :: p.calls }

/-- The flow of an instruction that is no branch. -/
def Seq.next (q : Seq) : Seq := { q with pc := q.pc + 1 }

/-- Issue an instruction: reach it, wait for ORD and the 16 outstanding, at most one in a clk (R29), test admission, do its work, and go
on. Its work reads scratch as it stood before what others changed in the clk (R51). A CTRL instruction completes in the clk of its
admission (R60). A fault found in reaching it comes before the waits and the test (DESIGN CHOICE, log entry 91). -/
def State.issue (s : State) (t : Nat) (st : Stream) (k : OpInfo) (w : Insn) (pre : Seq → Option Nat) (flow : Seq → Seq)
    (body : Nat → InFlight → State → Ran) : State :=
  match s.tileCtx t with
  | none => s
  | some c =>
    match s.reach t st k w pre with
    | .stop s' => s'
    | .fault code => s.reachFault t st w code
    | .ready =>
      let q := s.seq t st
      if w.ord && !q.inflight.isEmpty then s.modSeq t st (fun q => { q with waiting := true, held := false })
      else if 16 ≤ q.inflight.length then s.modSeq t st (fun q => { q with waiting := false, held := false })
      else if q.admitClk = some s.beat.now then s
      else match s.admitTest w.budget.toNat with
        | .hold => s.modSeq t st (fun q => { q with held := true, waiting := false })
        | .unfit => s.budgetUnfit t c st
        | .ok =>
          let adm := s.modSeq t st (fun q => { q with seqNo := q.seqNo + 1, admitClk := some s.beat.now, held := false, waiting := false })
          let r := body c (q.entry w s.beat.now) adm.asBefore
          if r.skip then s else
          let a := adm.afterAll r.st 0
          match r.fault with
          | some f => a.progFault t st r.fl f.code f.xinfo 0
          | none =>
            let b := a.modSeq t st (fun q => { q.goOn flow r.jump with lastSeen := w.last, inflight := q.inflight ++ [r.fl] })
            if k.cls = 0 then b.retire t st r.fl else b

/-- No checks of the operation's own. -/
def noPre (_ : Seq) : Option Nat := none

/-- Work that only the flow does. -/
def noWork (_ : Nat) (x : InFlight) (s : State) : Ran := { st := s, fl := x }

/-- Read a descriptor at a local offset: its bits, or a fault (R78, R79). A poisoned descriptor gives 0x2002 (R265). -/
def State.descAt (s : State) (t o cls : Nat) (ops : List Nat) (step0 : Option Nat) : Except DFault Nat :=
  let bad := s.poisoned (localKey t o) (64 * descLines (s.descHeader t o))
  match s.descCheck t o cls ops step0 with
  | some f => if f.code ≠ 0x4012 ∧ bad then .error ⟨0x2002, 0⟩ else .error f
  | none => if bad then .error ⟨0x2002, 0⟩ else .ok (s.descBits t o)

/-- Read the descriptor of OPA: its offset after stepping and its bits, or a fault (R72, R78, R79). -/
def State.readDesc (s : State) (t : Nat) (w : Insn) (loops : List LoopLevel) (cls : Nat) (ops : List Nat) :
    Except DFault (Nat × Nat) :=
  let o := s.descPtr t w loops
  match s.descAt t o cls ops (if lsel w = 0 then none else some (doff w)) with
  | .error f => .error f
  | .ok d => .ok (o, d)

/-- Issue an instruction whose OPA points at a descriptor; its work gets the descriptor's offset and bits. -/
def State.issueDesc (s : State) (t : Nat) (st : Stream) (k : OpInfo) (w : Insn) (ops : List Nat)
    (body : Nat → Nat → Nat → InFlight → State → Ran) : State :=
  s.issue t st k w noPre Seq.next (fun c x s =>
    match s.readDesc t w (s.seq t st).loops k.cls ops with
    | .error f => { st := s, fl := x, fault := f }
    | .ok (o, d) => body c o d { x with desc := d, off := o } s)

/-! ### CTRL (Table 03-5, R62, R75) -/

/-- CTRL.NOP only completes. -/
def execNop (t : TileId) (st : Stream) (w : Insn) (s : State) : Host.Outcome State Fault Refusal :=
  .next (whenLive s (fun s => s.issue t.val st opNop w noPre Seq.next noWork))

/-- The target PC of a branch, or the last PC of a loop's body: OPC [23:0]. -/
def branchTo (w : Insn) : Nat := bits w.opc.toNat 0 24
/-- The count of a loop: OPB [23:0]. -/
def loopCount (w : Insn) : Nat := bits w.opb.toNat 0 24
/-- The lines that PREFETCH names: OPB [8:0]. -/
def fetchLines (w : Insn) : Nat := bits w.opb.toNat 0 9

/-- A branch is to a PC below PLEN. -/
def jumpPre (w : Insn) (q : Seq) : Option Nat := if q.plen ≤ branchTo w then some 0x4015 else none

/-- CTRL.JUMP to the target PC. -/
def execJump (t : TileId) (st : Stream) (w : Insn) (s : State) : Host.Outcome State Fault Refusal :=
  .next (whenLive s (fun s => s.issue t.val st opJump w (jumpPre w) (fun q => { q with pc := branchTo w }) noWork))

/-- A call is to a PC below PLEN, with a level free. -/
def callPre (w : Insn) (q : Seq) : Option Nat :=
  if q.plen ≤ branchTo w then some 0x4015 else if 8 ≤ q.calls.length then some 0x4014 else none

/-- CTRL.CALL pushes the return PC. -/
def execCall (t : TileId) (st : Stream) (w : Insn) (s : State) : Host.Outcome State Fault Refusal :=
  .next (whenLive s (fun s => s.issue t.val st opCall w (callPre w)
    (fun q => { q with pc := branchTo w, calls := (q.pc + 1) :: q.calls }) noWork))

/-- A return has a call to return from, to a PC below PLEN. -/
def retPre (q : Seq) : Option Nat :=
  match q.calls with
  | [] => some 0x4014
  | p :: _ => if q.plen ≤ p then some 0x4015 else none

/-- CTRL.RET pops the return PC. -/
def execRet (t : TileId) (st : Stream) (w : Insn) (s : State) : Host.Outcome State Fault Refusal :=
  .next (whenLive s (fun s => s.issue t.val st opRet w retPre (fun q => { q with pc := q.calls.headD 0, calls := q.calls.drop 1 }) noWork))

/-- A loop ends above its own PC and below PLEN, with a level free where it is entered. -/
def loopPre (w : Insn) (q : Seq) : Option Nat :=
  if q.plen ≤ branchTo w ∨ branchTo w ≤ q.pc then some 0x4015 else if 4 ≤ q.loops.length ∧ 0 < loopCount w then some 0x4014 else none

/-- CTRL.LOOP pushes a level; count 0 skips the body. An end that is not above this PC, or not below PLEN, faults with
0x4015 (the first is DEDUCED, log entry 17). -/
def execLoop (t : TileId) (st : Stream) (w : Insn) (s : State) : Host.Outcome State Fault Refusal :=
  .next (whenLive s (fun s => s.issue t.val st opLoop w (loopPre w)
    (fun q => if loopCount w = 0 then { q with pc := branchTo w + 1 }
              else { q with pc := q.pc + 1, loops := ⟨q.pc + 1, branchTo w, loopCount w, 0⟩ :: q.loops }) noWork))

/-- PREFETCH names 1 to 256 lines from a PC below PLEN. -/
def prefetchPre (w : Insn) (q : Seq) : Option Nat :=
  if fetchLines w = 0 ∨ 256 < fetchLines w then some 0x4010 else if q.plen ≤ branchTo w then some 0x4015 else none

/-- CTRL.PREFETCH names cache lines to fetch; it completes at once and they are fetched after it (R60). A line count
outside 1 to 256 faults with 0x4010 (DEDUCED, log entry 17). -/
def execPrefetch (t : TileId) (st : Stream) (w : Insn) (s : State) : Host.Outcome State Fault Refusal :=
  .next (whenLive s (fun s => s.issue t.val st opPrefetch w (prefetchPre w)
    (fun q => { q with pc := q.pc + 1, prefetching := q.prefetching ++ (List.range (fetchLines w)).map (fun i => q.lineOf (branchTo w) + i) })
    noWork))

/-! ### SYNC.WAIT_BEAT and SYNC.COMMIT_POINT (R31) -/

/-- Pass a WAIT_BEAT or COMMIT_POINT: its record counts from the clk of reaching it to now. -/
def State.passSync (s : State) (t : Nat) (st : Stream) (x : InFlight) : State :=
  let s := s.modSeq t st (fun q => { q with beatWait := none, waiting := false })
  (s.writeRecord t st x (s.beat.now - x.clk)).finishStream t st

/-- Reach an instruction that is not subject to admission: every earlier instruction has completed, whether or not ORD is
set; it takes its sequence number then. -/
def State.reachSync (s : State) (t : Nat) (st : Stream) (k : OpInfo) (w : Insn) (act : Nat → InFlight → State → State) :
    State :=
  match s.tileCtx t with
  | none => s
  | some c =>
    match s.reach t st k w noPre with
    | .stop s' => s'
    | .fault code => s.reachFault t st w code
    | .ready =>
      let q := s.seq t st
      if !q.inflight.isEmpty then s.modSeq t st (fun q => { q with waiting := true, held := false })
      else
        let s := s.modSeq t st (fun q => { q.goOn Seq.next none with seqNo := q.seqNo + 1, held := false, waiting := false,
                                                                     lastSeen := w.last })
        act c (q.entry w s.beat.now) s

/-- A slip (R33): counted, reported, and the step aborts; the stream goes on. The log entry has room for the beat reached (Table 18-3);
the awaited beat b and the clk stand in the sequencer's report. -/
def State.slip (s : State) (t c : Nat) (st : Stream) (x : InFlight) (b : Nat) : State :=
  let n := (s.ctx c).step.beatOf x.step
  let s := s.modStep c (fun k => { k with slipCnt := satAdd 0xFFFF k.slipCnt 1, slip := some ⟨t, st, b, n, s.clk⟩ })
  let s := s.logTile 0x4001 (some c) t st x.pc x.seq n
  s.requestAbort c 0x4001 (some x.step) (placeOf t st) true

/-- SYNC.WAIT_BEAT b (R31, R33): passed at once where the step's beat number is b or above, late unless it is clk 0 of
beat b; else it waits for beat b. -/
def execWaitBeat (t : TileId) (st : Stream) (w : Insn) (s : State) : Host.Outcome State Fault Refusal :=
  .next (whenLive s (fun s => s.reachSync t.val st opWaitBeat w (fun c x s =>
    let b := w.opc.toNat
    let n := (s.ctx c).step.beatOf x.step
    if n < b then s.modSeq t.val st (fun q => { q with beatWait := some ⟨b, s.beat.now, x⟩, waiting := true })
    else
      let s := if n = b ∧ s.clk = 0 then s else s.slip t.val c st x b
      s.passSync t.val st x)))

/-- SYNC.COMMIT_POINT: the stream passes its commit point; a second one has no effect (R31, R64). -/
def execCommitPoint (t : TileId) (st : Stream) (w : Insn) (s : State) : Host.Outcome State Fault Refusal :=
  .next (whenLive s (fun s => s.reachSync t.val st opCommitPoint w (fun _ x s =>
    (s.modSeq t.val st (fun q => { q with committed := true })).passSync t.val st x)))

/-! ### Semaphores (R67-R70) -/

/-- Semaphore number of OPB. -/
def semNo (w : Insn) : Nat := bits w.opb.toNat 0 8
/-- Value of OPC. -/
def semVal (w : Insn) : Nat := bits w.opc.toNat 0 16

/-- SYNC.SEM_SET. In a clk whose signals have overflowed the semaphore already it comes too late to be first (log entry 90). -/
def execSemSet (t : TileId) (st : Stream) (w : Insn) (s : State) : Host.Outcome State Fault Refusal :=
  .next (whenLive s (fun s => s.issue t.val st opSemSet w noPre Seq.next (fun _ x s =>
    { st := (s.semSet t.val st (semNo w) (semVal w) x.step).semFaults t.val (semNo w) none, fl := x,
      skip := (s.tile t.val).semOver s.beat.now (semNo w) })))

/-- SYNC.SEM_SIGNAL: the semaphore saturates and the stream faults where it would pass 0xFFFF (R70). -/
def execSemSignal (t : TileId) (st : Stream) (w : Insn) (s : State) : Host.Outcome State Fault Refusal :=
  .next (whenLive s (fun s => s.issue t.val st opSemSignal w noPre Seq.next (fun _ x s =>
    let s := s.semAdd t.val (semNo w) (semVal w) (some x.step) (some (t.val, st))
    { st := s.semFaults t.val (semNo w) (some (t.val, st)), fl := x,
      fault := if (s.tile t.val).semOver s.beat.now (semNo w) then some ⟨0x4013, 0⟩ else none })))

/-- The semaphore tests of a tile's clk with a new SEM_WAIT among them. -/
def State.testSems (s : State) (t n : Nat) : State := s.modTile t (·.testSems s.beat.now n)

/-- SYNC.SEM_WAIT holds the stream until the semaphore is at least the value, then subtracts it. -/
def execSemWait (t : TileId) (st : Stream) (w : Insn) (s : State) : Host.Outcome State Fault Refusal :=
  .next (whenLive s (fun s =>
    let r := s.issue t.val st opSemWait w noPre Seq.next (fun _ x s => { st := s, fl := { x with wait := .sem (semNo w) (semVal w) } })
    if (r.seq t.val st).semWait.isSome then r.testSems t.val (semNo w) else r))

/-- The target tile of a remote signal: OPB [14:8]. -/
def semTarget (w : Insn) : Nat := bits w.opb.toNat 8 7

/-- A remote signal goes to a tile of the sender's context (R69): else the sender faults, and nothing is admitted (R86). -/
def State.remotePre (s : State) (t : Nat) (w : Insn) (_ : Seq) : Option Nat :=
  if semTarget w < 96 ∧ s.tileCtx (semTarget w) = s.tileCtx t then none else some 0x4012

/-- SYNC.SEM_SIGNAL_REMOTE sends a signal to a tile of the same context (R69). -/
def execSemSignalRemote (t : TileId) (st : Stream) (w : Insn) (s : State) : Host.Outcome State Fault Refusal :=
  .next (whenLive s (fun s => s.issue t.val st opSemRemote w (s.remotePre t.val w) Seq.next (fun c x s =>
    { st := { s with rsigs := s.rsigs ++ [⟨semTarget w, semNo w, semVal w, c, some x.step, some (t.val, st)⟩] }, fl := x })))

/-- REMOTE_SIGNAL_APPLY: the oldest signal in flight to a tile is applied (R69, which orders only those of one stream: DESIGN CHOICE,
log entry 92); past 0xFFFF the semaphore saturates and the sending stream faults (R70). -/
def doRemoteSignalApply (t : Nat) (s : State) : State :=
  match s.rsigs.find? (fun r => r.tgt == t) with
  | none => s
  | some r =>
    (State.semAdd { s with rsigs := s.rsigs.eraseP (fun r => r.tgt == t) } t r.sem r.inc r.step r.src).semFaults t r.sem none

/-- REMOTE_SIGNAL_APPLY. -/
def execRemoteSignalApply (t : TileId) (s : State) : Host.Outcome State Fault Refusal :=
  .next (whenLive s (doRemoteSignalApply t.val))

/-! ### Completion (R60, R47, R74) -/

/-- A consuming instruction takes its transfer's counts, status and XINFO; the transfer and its tag are released (R73, R81,
R259). A transfer that an abort cancelled leaves the counts as they stand (R496). -/
def State.consume (s : State) (x : InFlight) (id : Nat) : State × InFlight :=
  match s.xfers.find? (fun f => f.id == id) with
  | none => (s, x)
  | some f => ((State.visible { s with xfers := s.xfers.filter (fun f => f.id != id) } id).freeTags [f],
               { x with counts := x.counts.plus f.counts, status := f.status, xinfo := f.xinfo })

/-- A transfer is done, or gone. -/
def State.xferDone (s : State) (id : Nat) : Bool :=
  match s.xfers.find? (fun f => f.id == id) with
  | none => true
  | some f => f.done

/-! ### The instruction cache (R58) -/

/-- Put a line in the cache: 64 sets of four ways, by line number. Which way of a full set it replaces is a free value. -/
def Seq.fillLine (q : Seq) (line : Nat) : Seq :=
  if q.icache.contains line then q
  else
    let set := q.icache.filter (fun l => l % 64 == line % 64)
    if set.length < 4 then { q with icache := q.icache ++ [line] }
    else
      let victim := set.getD (Config.icacheWay q.icVictims % 4) 0
      { q with icache := q.icache.filter (· != victim) ++ [line], icVictims := q.icVictims + 1,
               icPoison := q.icPoison.filter (fun w => w / 16 != victim) }

/-- ICACHE_FILL: the lines of a miss, and those that PREFETCH named, arrive from memory; a poisoned word arrives poisoned
(R85, R265). -/
def doIcacheFill (t : Nat) (st : Stream) (s : State) : State :=
  match s.tileCtx t with
  | none => s
  | some c =>
    let q := s.seq t st
    let lines := q.fetching ++ q.prefetching
    let bad := lines.flatMap (fun l => ((List.range 16).map (fun i => 16 * l + i)).filter (fun w => s.caPoison c (16 * w)))
    let s := lines.foldl (fun s l => s.heatCa c (256 * l) 256) s
    s.modSeq t st (fun q =>
      { lines.foldl Seq.fillLine { q with fetching := [], prefetching := [] } with
          icPoison := bad.foldl setAdd (q.icPoison.filter (fun w => !lines.contains (w / 16))) })

/-- ICACHE_FILL. -/
def execIcacheFill (t : TileId) (st : Stream) (s : State) : Host.Outcome State Fault Refusal :=
  .next (whenLive s (doIcacheFill t.val st))

end Sys2Proof.Machine
end

