-- ==== Sys2Proof/Machine/Scales.lean ====
section
/-! DEFINITION. Scaled operands in scratch: stored rows, scale factors, extents (R95, R96, R56), and the writing units of
narrow tensors: MX, two-level and per-row scales and the carried scale tables (R121-R129). -/

namespace Sys2Proof.Machine

/-! ### Stored rows (R95, R96, R112) -/

/-- An operand in scratch: stored rows of elements, with its scale arrays. Addresses are scratch unit addresses. -/
structure Rows where
  base : Nat
  str : Nat
  col0 : Nat
  fmt : Nat
  mode : Nat
  bs : Nat        -- elements per block
  rsc : Nat       -- row scales
  blk : Nat       -- block codes
  bstr : Nat
  rows : Nat
  cols : Nat
deriving DecidableEq, Repr

/-- Elements in a block: 32 in mode 1, else by the block-size code (R95). -/
def blockSize (mode code : Nat) : Nat := if mode = 1 then 32 else 16 * 2 ^ code

/-- The first bit of element j of stored row r, counted from the start of the scratch window (R96). -/
def Rows.bit (o : Rows) (r j : Nat) : Nat := 256 * (o.base + r * o.str) + (o.col0 + j) * fmtWidth o.fmt

/-- The bytes from the one that holds the first bit of n elements of row r to the one that holds the last. -/
def Rows.rowExt (o : Rows) (r : Nat) : Nat × Nat :=
  (o.bit r 0 / 8, (o.bit r o.cols - 1) / 8 - o.bit r 0 / 8 + 1)

/-- The extents of the elements, one for each stored row (R56). -/
def Rows.elemExt (o : Rows) : List (Nat × Nat) := (List.range o.rows).map o.rowExt

/-- The extent of the row scales, modes 2 and 3. -/
def Rows.rscExt (o : Rows) : List (Nat × Nat) := if 2 ≤ o.mode then [(32 * o.rsc, 4 * o.rows)] else []

/-- Byte offset of block b's code in its row: one byte in mode 1, half a byte in mode 2. -/
def Rows.blkByte (o : Rows) (b : Nat) : Nat := if o.mode = 1 then b else b / 2

/-- The extents of the block codes, modes 1 and 2. -/
def Rows.blkExt (o : Rows) : List (Nat × Nat) :=
  if o.mode = 1 ∨ o.mode = 2 then
    (List.range o.rows).map (fun r =>
      (32 * (o.blk + r * o.bstr) + o.blkByte (o.col0 / o.bs),
       o.blkByte ((o.col0 + o.cols - 1) / o.bs) - o.blkByte (o.col0 / o.bs) + 1))
  else []

/-- Every extent of the operand. -/
def Rows.exts (o : Rows) : List (Nat × Nat) := o.elemExt ++ o.rscExt ++ o.blkExt

/-- Whether every extent lies where the ME and VC of tile t may reach (R55, R56). -/
def State.extsOk (s : State) (t c : Nat) (l : List (Nat × Nat)) : Bool := l.all (fun e => s.unitOk t c e.1 e.2)

/-- Whether any byte of the extents lies in a poisoned word. -/
def State.extsPoison (s : State) (l : List (Nat × Nat)) : Bool := l.any (fun e => s.poisoned e.1 e.2)

/-- The code of element j of stored row r; an element with a byte in a poisoned word reads as the canonical NaN or the
substitute (R265). -/
def State.elemCode (s : State) (o : Rows) (r j : Nat) : Nat :=
  let b := o.bit r j
  let w := fmtWidth o.fmt
  if s.poisoned (b / 8) ((b + w - 1) / 8 - b / 8 + 1) then ((fmtOf o.fmt).map (·.nanCode)).getD 0
  else bits (s.rdNat (b / 8) 5) (b % 8) w

/-- The FP32 code of row r's scale; NaN where it is poisoned. -/
def State.rowScale (s : State) (o : Rows) (r : Nat) : Nat :=
  if s.poisoned (32 * o.rsc + 4 * r) 4 then 0x7FC00000 else s.rdNat (32 * o.rsc + 4 * r) 4

/-- The code of the block that holds element e of row r, or none where it is poisoned. -/
def State.blkCode (s : State) (o : Rows) (r e : Nat) : Option Nat :=
  let a := 32 * (o.blk + r * o.bstr) + o.blkByte (e / o.bs)
  if s.poisoned a 1 then none
  else some (if o.mode = 1 then s.rdNat a 1 else bits (s.rdNat a 1) (4 * (e / o.bs % 2)) 4)

/-- The factor of the element at index e of stored row r, given the row's scale (R95). -/
def State.factor (s : State) (o : Rows) (rs : Val) (r e : Nat) : Val :=
  match o.mode with
  | 0 => .fin false 1 0
  | 1 =>
    match s.blkCode o r e with
    | none => .nan
    | some x => if x = 0xFF then .nan else .fin false 1 ((x : Int) - 127)
  | 2 =>
    match s.blkCode o r e with
    | none => .nan
    | some x => rs.scale (toSigned 4 x)
  | _ => rs

/-- The value an element's code denotes as stored: an MXINT8 element is its integer × 2^−6 (R122). -/
def Rows.decode (o : Rows) (code : Nat) : Val :=
  match fmtOf o.fmt with
  | none => .nan
  | some k => if o.mode = 1 ∧ o.fmt = 8 then (decodeVal k code).scale (-6) else decodeVal k code

/-- Two values whose product is NaN although neither is NaN. -/
def mulInvalid (a b : Val) : Bool := !a.isNan && !b.isNan && (a.mul b).isNan

/-- The element of a code at (r, j) as FP32, with one rounding for the factor (R121), and whether 0 × ∞ arose. -/
def State.vcOfCode (s : State) (o : Rows) (r j code : Nat) : Nat × Bool :=
  let v := o.decode code
  if o.mode = 0 then (r32 v, false)
  else
    let f := s.factor o (v32 (s.rowScale o r)) r (o.col0 + j)
    (r32 (v.mul f), mulInvalid v f)

/-- Element j of row r as FP32. -/
def State.vcElem (s : State) (o : Rows) (r j : Nat) : Nat × Bool := s.vcOfCode o r j (s.elemCode o r j)

/-- Write the codes of a row from a first bit on; none keeps the old bits. A word that keeps old bits of an element stays
poisoned (R264). -/
def State.putRow (s : State) (bit0 w : Nat) (codes : List (Option Nat)) : State :=
  if codes.isEmpty then s else
  let lo := bit0 / 8
  let n := (bit0 + w * codes.length - 1) / 8 - lo + 1
  let r := codes.foldl (fun (a : Nat × Nat) c =>
    (match c with
      | some x => setBits a.1 a.2 w x
      | none => a.1, a.2 + w)) (s.rdNat lo n, bit0 % 8)
  let kept := s.poison.filter (fun p => (List.range codes.length).any (fun i =>
    (codes.getD i none).isNone && decide ((bit0 + w * i) / 128 ≤ p) && decide (p ≤ (bit0 + w * i + w - 1) / 128)))
  let t := s.wr lo (toBytes n r.1)
  { t with poison := kept.foldl setAdd t.poison }

/-! ### Writing narrow tensors (R121-R126) -/

/-- How a unit writes a row. -/
structure PackCfg where
  fmt : Nat
  mode : Nat
  bs : Nat
  rnd : Nat
  ovf : Bool
  seed : Nat
  step : Nat
deriving DecidableEq, Repr

/-- What writing a row gives: codes, block codes, overflow flags of the blocks, which elements count as invalid and as
saturated, and the marks of R127. -/
structure PackOut where
  codes : List Nat := []
  blks : List Nat := []
  flags : List Bool := []
  inv : List Bool := []
  sat : List Bool := []
  double : Bool := false
  low : Bool := true        -- every block chose O ≤ −7
  live : Bool := false      -- some element is finite and non-zero
deriving DecidableEq, Repr

/-- Join what two pieces of a row gave. -/
def PackOut.join (a b : PackOut) : PackOut :=
  ⟨a.codes ++ b.codes, a.blks ++ b.blks, a.flags ++ b.flags, a.inv ++ b.inv, a.sat ++ b.sat,
   a.double || b.double, a.low && b.low, a.live || b.live⟩

/-- Convert the elements of a block, each divided by d: pairs of an FP32 code and whether its lane counts, keys from ea. -/
def PackCfg.conv (g : PackCfg) (ovf : Bool) (d : Val) (l : List (Nat × Bool)) (ea : Nat) : PackOut :=
  match fmtOf g.fmt with
  | none => {}
  | some k =>
    let cs := (List.range l.length).map (fun i =>
      let v := v32 (l.getD i (0, false)).1
      convert k (rndOf g.rnd g.seed g.step (ea + i)) ovf (if d = .fin false 1 0 then v else v.div d))
    { codes := cs.map (·.code), inv := (cs.zip l).map (fun p => p.1.inv && p.2.2), sat := (cs.zip l).map (fun p => p.1.sat && p.2.2),
      live := l.any (fun p => isFin32 p.1 && !(v32 p.1).isZero) }

/-- The largest magnitude among finite elements. -/
def amax (l : List (Nat × Bool)) : Val :=
  l.foldl (fun a p => if isFin32 p.1 && Val.lt a (v32 p.1).abs then (v32 p.1).abs else a) (.fin false 0 0)

/-- emax of R122. -/
def mxEmax (fmt : Nat) : Int :=
  match fmt with
  | 3 => 8
  | 4 => 15
  | 5 => 4
  | 6 => 2
  | 7 => 2
  | _ => 0

/-- Write a block in MX mode (R122). A value beyond the largest element saturates whatever OVF holds (DEDUCED, log entry
18). -/
def PackCfg.mxBlock (g : PackCfg) (l : List (Nat × Bool)) (ea : Nat) : PackOut :=
  if l.any (fun p => !isFin32 p.1) then
    { codes := l.map (fun _ => 0), blks := [0xFF],
      inv := l.map (fun p => isNan32 p.1 && p.2), sat := l.map (fun p => !isFin32 p.1 && !isNan32 p.1 && p.2) }
  else
    match amax l with
    | .fin _ m e =>
      let x : Int := if m = 0 then -127 else max (-127) (min 127 (log2Mag m e - mxEmax g.fmt))
      { g.conv false (.fin false 1 (if g.fmt = 8 then x - 6 else x)) l ea with blks := [(x + 127).toNat] }
    | _ => {}

/-- A base that R126 refuses: zero, negative, subnormal, infinite or NaN. -/
def badBase (b : Nat) : Bool := bitOf b 31 || bits b 23 8 == 0 || bits b 23 8 == 255

/-- The offset of a block in mode 2 (R124), none if it overflows. -/
def offsetOf (k : Fmt) (base : Val) (mx : Val) : Option Int :=
  ((List.range 16).map (fun i => Int.ofNat i - 8)).find? (fun o => Val.le mx ((decodeVal k k.maxCode).mul (base.scale o)))

/-- Write a block in two-level mode (R124, R125); `bad` marks a row written with base 1.0 (R126). -/
def PackCfg.twoBlock (g : PackCfg) (base : Val) (bad : Bool) (l : List (Nat × Bool)) (ea : Nat) : PackOut :=
  match fmtOf g.fmt with
  | none => {}
  | some k =>
    let o := offsetOf k base (amax l)
    let x := o.getD 7
    { g.conv g.ovf (base.scale x) l ea with
        blks := [ofSigned 4 x], flags := [o.isNone || bad], double := o.isNone, low := decide (x ≤ -7) }

/-- Cut into blocks and join what each gives; keys rise along the row. -/
def packBlocks (f : List (Nat × Bool) → Nat → PackOut) (bs : Nat) (l : List (Nat × Bool)) (ea : Nat) : PackOut :=
  ((chunks bs l).foldl (fun (a : PackOut × Nat) b => (a.1.join (f b a.2), a.2 + b.length)) ({}, ea)).1

/-- Write a row with base code `base` (R121-R126). -/
def PackCfg.row (g : PackCfg) (base : Nat) (l : List (Nat × Bool)) (ea : Nat) : PackOut :=
  let bad := badBase base
  let b : Val := if bad then .fin false 1 0 else v32 base
  match g.mode with
  | 0 => g.conv g.ovf (.fin false 1 0) l ea
  | 1 => packBlocks g.mxBlock 32 l ea
  | 2 => packBlocks (g.twoBlock b bad) g.bs l ea
  | _ => g.conv g.ovf b l ea

/-- The base that a row is written with: 1.0 for one that R126 refuses. -/
def usedBase (base : Nat) : Nat := if badBase base then 0x3F800000 else base

/-- The overflowed-block count of a row (R125, R126). -/
def PackCfg.ovfCount (g : PackCfg) (base : Nat) (o : PackOut) : Nat :=
  match g.mode with
  | 2 => o.flags.countP id
  | 3 => if badBase base then 1 else 0
  | _ => 0

/-- The code that a row's write records in its carried entry (R127, R151): 0 none, 1 double, 2 halve. -/
def PackCfg.recordCode (g : PackCfg) (base : Nat) (o : PackOut) : Nat :=
  if badBase base then 0
  else if g.mode = 2 then (if o.double then 1 else if o.low && o.live && !o.blks.isEmpty then 2 else 0)
  else if g.mode = 3 then (if o.sat.any id then 1 else 0)
  else 0

/-- Write block codes of a row at byte a (mode 1) or half-byte by half-byte (mode 2), from block b0 on (R95). -/
def State.putBlks (s : State) (o : Rows) (r : Nat) (l : List Nat) : State :=
  let b0 := o.col0 / o.bs
  let a := 32 * (o.blk + r * o.bstr)
  if o.mode = 1 then s.wr (a + b0) (l.map (BitVec.ofNat 8))
  else if o.mode = 2 then s.putRow (8 * a + 4 * b0) 4 (l.map some)
  else s

/-! ### Carried scale tables (R127, R129) -/

/-- Step p precedes step q. -/
def precedes (p q : Nat) : Bool := let d := (q + 2 ^ 32 - p) % 2 ^ 32; decide (1 ≤ d) && decide (d ≤ 2 ^ 31)

/-- A base with an adjustment applied: 1 doubles, 2 halves; one that would leave the normal range is not applied. -/
def adjust (b d : Nat) : Nat :=
  let e := bits b 23 8
  if bitOf b 31 ∨ e = 0 ∨ e = 255 then b
  else if d = 1 ∧ e < 254 then b + 2 ^ 23
  else if d = 2 ∧ 1 < e then b - 2 ^ 23
  else b

/-- D[k] of an entry. -/
def entryD (x k : Nat) : Nat := bits x (32 + 2 * k) 2
/-- T[k] of an entry. -/
def entryT (x k : Nat) : Nat := bits x (64 + 32 * k) 32

/-- The effective base of an entry read for step q: the slots that precede q, older first. -/
def carriedBase (x q : Nat) : Nat :=
  let q := q % 2 ^ 32
  let age (k : Nat) : Nat := (q + 2 ^ 32 - entryT x k) % 2 ^ 32
  let order := if age 0 < age 1 then [1, 0] else [0, 1]
  (order.filter (fun k => precedes (entryT x k) q)).foldl (fun b k => adjust b (entryD x k)) (bits x 0 32)

/-- How the codes of writes of one step combine: double wins, halve only with halve. -/
def combineD (a b : Nat) : Nat := if a = 1 ∨ b = 1 then 1 else if a = 2 ∧ b = 2 then 2 else 0

/-- The entry after a write of step q that records code d. -/
def carriedRecord (x q d : Nat) : Nat :=
  let q := q % 2 ^ 32
  let k := q % 2
  if entryT x k = q then setBits x (32 + 2 * k) 2 (combineD (entryD x k) d)
  else
    let x := if precedes (entryT x k) q then setBits x 0 32 (adjust (bits x 0 32) (entryD x k)) else x
    setBits (setBits x (32 + 2 * k) 2 d) (64 + 32 * k) 32 q

/-- Set the bits of an overflow bitmap from bit b on (R125): read, change and write its bytes in context memory. -/
def State.putBitmap (s : State) (c bmap b : Nat) (flags : List Bool) : State :=
  if flags.isEmpty then s else
  let lo := bmap + b / 8
  let n := (b + flags.length - 1) / 8 - b / 8 + 1
  let old := ofBytes (s.rdCa c lo n)
  let new := (flags.foldl (fun (a : Nat × Nat) f => (setBits a.1 a.2 1 (b2n f), a.2 + 1)) (old, b % 8)).1
  s.wrCa c lo (toBytes n new)

/-- An instruction met poison in its operands (R265): STATUS 0x2002 once, logged, and the step aborts, to be retried. -/
def State.metPoison (s : State) (t c : Nat) (st : Stream) (x : InFlight) : State × InFlight :=
  if x.status = 0x2002 then (s, x)
  else ((s.logTile 0x2002 (some c) t st x.pc x.seq 0).requestAbort c 0x2002 (some x.step) (placeOf t st) true,
        { x with status := 0x2002 })

end Sys2Proof.Machine
end

