-- ==== Sys2Proof/Machine/Chain.lean ====
section
/-! DEFINITION. The vector chain (R137-R155): stages, functions, row reductions, PACK, and the checks of a chain
descriptor. The instructions that run it stand in Machine/Engines.lean. -/

namespace Sys2Proof.Machine

/-! ### FP32 operations of the stages (R142) -/

/-- a × b + c, rounded once. -/
def fma32 (a b c : Nat) : Nat := r32 (Val.add ((v32 a).mul (v32 b)) (v32 c))

/-- The sign flipped; NaN stays NaN. -/
def fneg (a : Nat) : Nat := r32 (v32 a).neg

/-- Maximum of IEEE 754-2019: NaN wins, +0 above −0. -/
def fmax (a b : Nat) : Nat :=
  if isNan32 a ∨ isNan32 b then 0x7FC00000
  else if (v32 a).isZero ∧ (v32 b).isZero then (if (v32 a).isNeg then b else a)
  else if Val.lt (v32 a) (v32 b) then b else a

/-- Minimum of IEEE 754-2019. -/
def fmin (a b : Nat) : Nat :=
  if isNan32 a ∨ isNan32 b then 0x7FC00000
  else if (v32 a).isZero ∧ (v32 b).isZero then (if (v32 a).isNeg then a else b)
  else if Val.lt (v32 b) (v32 a) then b else a

/-- A comparison of CMPSEL: any with a NaN is false but ≠ and "is NaN". -/
def cmp32 (func a b : Nat) : Bool :=
  let x := v32 a
  let y := v32 b
  match func with
  | 0 => Val.lt x y
  | 1 => Val.le x y
  | 2 => Val.eqv x y
  | 3 => !Val.eqv x y
  | 4 => Val.le y x
  | 5 => Val.lt y x
  | _ => x.isNan

/-- x < p ÷ q for a decimal limit (q > 0). -/
def ltRat (x : Nat) (p q : Int) : Bool :=
  match v32 x with
  | .nan => false
  | .inf s => s
  | .fin s m e =>
    let n : Int := signedOf s m * q
    if 0 ≤ e then decide (n * (2 ^ e.toNat : Nat) < p) else decide (n < p * (2 ^ (-e).toNat : Nat))

/-- x > p ÷ q. -/
def gtRat (x : Nat) (p q : Int) : Bool := !isNan32 x && ltRat (fneg x) (-p) q

/-- A subnormal FP32 code, taken as zero of its sign by the LUT stage (R131). -/
def isSub32 (x : Nat) : Bool := bits x 23 8 == 0 && bits x 0 23 != 0

/-- What the LUT stage gives inside a function's domain: a free value within the bounds of Table 06-5 (R136, R145, log entry 10); a free
value outside them stands for the function's own value, rounded. -/
def lutFree (f : Nat) (d : Bool) (x : Nat) : Nat :=
  let y := (Config.lutValue f d (BitVec.ofNat 32 x)).toNat
  if lutWithin f d x y then y else r32 (lutReal f d (v32 x))

/-- Beyond ±w: the limit below, the limit above, else the free value. -/
def lutRange (f : Nat) (d : Bool) (w : Int) (below above x : Nat) : Nat :=
  if ltRat x (-w) 1 then below else if gtRat x w 1 then above else lutFree f d x

/-- A function of Table 06-5, or its derivative, of an FP32 input; limits are exact, the rest are free values. -/
def lutFn (f : Nat) (d : Bool) (x0 : Nat) : Nat :=
  let x := if isSub32 x0 then bits x0 31 1 * 2 ^ 31 else x0
  let one := 0x3F800000
  let pinf := 0x7F800000
  if isNan32 x then 0x7FC00000
  else match f with
  | 0x0 => if ltRat x (-10328) 100 then 0 else if gtRat x 8872 100 then pinf else lutFree f d x
  | 0x1 => if ltRat x (-149) 1 then 0 else if gtRat x 128 1 then pinf else lutFree f d x
  | 0x2 =>
    if (v32 x).isZero then (if d then fdiv one x else 0xFF800000)
    else if (v32 x).isNeg then 0x7FC00000
    else if x = pinf then (if d then 0 else pinf) else lutFree f d x
  | 0x3 => lutRange f d 32 0 (if d then 0 else one) x
  | 0x4 => lutRange f d 16 (if d then 0 else 0xBF800000) (if d then 0 else one) x
  | 0x5 => lutRange f d 16 0 (if d then one else x) x
  | 0x6 => lutRange f d 16 0 (if d then one else x) x
  | 0x7 => lutRange f d 32 0 (if d then one else x) x
  | 0x8 => lutRange f d 32 0 (if d then one else x) x
  | 0x9 => lutRange f d 8 (if d then 0 else 0xBF800000) (if d then 0 else one) x
  | _ =>
    if (v32 x).isZero then (if d then pinf else x)
    else if (v32 x).isNeg then 0x7FC00000
    else if x = pinf then (if d then 0 else pinf) else lutFree f d x

/-- floor of a non-negative FP32 value, at most 63. -/
def floor63 (p : Nat) : Nat :=
  match v32 p with
  | .fin false m e => min 63 (roundUnits .zero m e 0)
  | .inf false => 63
  | _ => 0

/-- A word of the user table at scratch unit address su. -/
def State.userWord (s : State) (su i : Nat) : Nat := if s.poisoned (32 * su + 4 * i) 4 then 0x7FC00000 else s.rdNat (32 * su + 4 * i) 4

/-- The place p of an input in the user table's segments. -/
def State.userPos (s : State) (su x0 : Nat) : Nat :=
  let x1 := if isSub32 x0 then bits x0 31 1 * 2 ^ 31 else x0
  let lo := s.userWord su 0
  let hi := s.userWord su 1
  let x := fmin (fmax x1 lo) hi
  fdiv (fmul (fsub x lo) 0x42800000) (fsub hi lo)

/-- The user table of R146 at scratch unit address su. -/
def State.userFn (s : State) (su : Nat) (d : Bool) (x0 : Nat) : Nat :=
  let span := fsub (s.userWord su 1) (s.userWord su 0)
  let p := s.userPos su x0
  if isNan32 x0 ∨ isNan32 p then 0x7FC00000 else
  let sg := floor63 p
  let t := fsub p (r32 (.fin false sg 0))
  let c (i : Nat) : Nat := s.userWord su (8 + 4 * sg + i)
  let two := 0x40000000
  let three := 0x40400000
  if d then fdiv (fmul (fadd (c 1) (fmul t (fadd (fmul two (c 2)) (fmul t (fmul three (c 3)))))) 0x42800000) span
  else fadd (c 0) (fmul t (fadd (c 1) (fmul t (fadd (c 2) (fmul t (c 3))))))

/-- The exact value of NORM's function g. -/
def normVal (recip : Bool) (x : Nat) : Val :=
  let one : Val := .fin false 1 0
  if recip then one.div (v32 x) else
    match v32 x with
    | .fin s 0 _ => .inf s
    | v => if v.isNeg then .nan else one.div v.sqrt

/-- NORM's function g, within 1 ulp of the exact value: which code it is, of those two between which the exact value lies, or of an exact
code and those beside it, is a free value (R136, log entry 11). -/
def normFn (recip : Bool) (x : Nat) : Nat :=
  let v := normVal recip x
  match v with
  | .fin s m e =>
    let r := r32 v
    let k := r % 2 ^ 31
    if k = 0 ∨ 0x7F7FFFFF ≤ k then r
    else
      let t := roundFloat fp32 .zero m e
      let sign := if s then 2 ^ 31 else 0
      match Config.normPick recip (BitVec.ofNat 32 x) % 3 with
      | 1 => sign + t + 1
      | 2 => sign + (if Val.eqv (v32 t) v.abs then t - 1 else t)
      | _ => sign + t
  | _ => r32 v

/-! ### Stage slots (Table 06-2) -/

/-- A field of the chain descriptor. -/
abbrev cf (d lo n : Nat) : Nat := dfield d lo n

/-- A stage slot. -/
structure Stage where
  ty : Nat
  asel : Nat
  bsel : Nat
  nega : Bool
  negb : Bool
  func : Nat
  mode : Nat
  slot : Nat
  imm : Nat
deriving DecidableEq, Repr

/-- Stage slot n of a descriptor. -/
def stageAt (d n : Nat) : Stage :=
  let x := cf d (1280 + 64 * n) 64
  ⟨bits x 0 4, bits x 4 4, bits x 8 4, bitOf x 12, bitOf x 13, bits x 14 5, bits x 19 3, bits x 22 3, bits x 32 32⟩

/-- NSTG. -/
def nstg (d : Nat) : Nat := cf d 55 4
/-- The stages of a chain. -/
def stagesOf (d : Nat) : List Stage := (List.range (min 12 (nstg d))).map (stageAt d)

/-- Which stages use operand a and operand b. -/
def Stage.usesA (g : Stage) : Bool :=
  g.ty == 1 || g.ty == 2 || (g.ty == 3 && (g.mode == 1 || g.mode == 2)) || g.ty == 5 || g.ty == 6 || (g.ty == 9 && g.mode == 0)
def Stage.usesB (g : Stage) : Bool := g.ty == 2 || g.ty == 5 || (g.ty == 6 && g.mode == 0)

/-- Modes of a stage type. -/
def modesOf (ty : Nat) : Nat := if ty = 3 ∨ ty = 4 then 5 else if ty = 5 ∨ ty = 6 ∨ ty = 7 then 4 else if ty = 9 then 2 else 1
/-- Whether FUNC is allowed for a stage type. -/
def funcOk (ty f : Nat) : Bool :=
  if ty = 3 then decide (f ≤ 0xA) || f == 0x1F else if ty = 4 then decide (f ≤ 1) else if ty = 6 then decide (f ≤ 6) else f == 0

/-- The failing fields of stage slot n (R142, R146, R149, R154): pairs of a byte offset and whether it fails. -/
def stageFails (d n : Nat) : List (Nat × Bool) :=
  let g := stageAt d n
  let b := 160 + 8 * n
  let x := cf d (1280 + 64 * n) 64
  let hasA := g.ty == 1 || g.ty == 2 || g.ty == 3 || g.ty == 5 || g.ty == 6 || g.ty == 9
  let hasB := g.ty == 2 || g.ty == 5 || g.ty == 6
  let hasI := hasA || g.ty == 7
  [(b, g.ty == 0 || decide (0xA ≤ g.ty)),
   (b, !hasA && g.asel != 0), (b, g.ty == 3 && g.func == 0x1F && g.asel == 0),
   (b + 1, !hasB && g.bsel != 0), (b + 1, !hasA && g.nega), (b + 1, !hasB && g.negb),
   (b + 1, !funcOk g.ty g.func), (b + 2, decide (modesOf g.ty ≤ g.mode)), (b + 2, g.ty != 4 && g.slot != 0),
   (b + 3, bits x 25 7 != 0), (b + 4, !hasI && g.imm != 0), (b + 7, g.ty == 9 && bits g.imm 24 8 != 0)]

/-! ### Operands of a chain -/

/-- What a chain reads: scratch, or an accumulator bank read as INT32 or FP32, each element then set to +0 if asked. -/
inductive ChainSrc where
  | scratch
  | acc (bank : Nat) (asInt : Bool) (zero : Bool)
deriving DecidableEq, Repr

/-- The scratch source. -/
def chainS (d rows cols : Nat) : Rows :=
  ⟨cf d 128 32, cf d 160 32, cf d 576 16, cf d 104 4, cf d 108 2, blockSize (cf d 108 2) (cf d 110 2), cf d 192 32, cf d 224 32,
   cf d 512 16, rows, cols⟩
/-- Y. -/
def chainY (d rows cols : Nat) : Rows :=
  ⟨cf d 256 32, cf d 288 32, cf d 592 16, cf d 112 4, cf d 116 2, blockSize (cf d 116 2) (cf d 118 2), cf d 320 32, cf d 352 32,
   cf d 528 16, rows, cols⟩
/-- The destination. -/
def chainD (d rows cols : Nat) : Rows :=
  ⟨cf d 384 32, cf d 416 32, cf d 608 16, cf d 120 4, cf d 124 2, blockSize (cf d 124 2) (cf d 126 2), cf d 448 32, cf d 480 32,
   cf d 544 16, rows, cols⟩
/-- DKIND. -/
def dkind (d : Nat) : Nat := cf d 53 2
/-- CTBL, 0 for none. -/
def ctbl (d : Nat) : Nat := if dkind d = 0 then 0 else cf d 640 48

/-- The operand codes that the stages use. -/
def usesOf (d : Nat) : List Nat :=
  (stagesOf d).flatMap (fun g => (if g.usesA then [g.asel] else []) ++ (if g.usesB then [g.bsel] else []))

/-- The elements of an input that is no scaled operand: column vectors, statistics, masks, user tables. -/
def chainPlainIns (d rows cols : Nat) : List (Nat × Nat) :=
  let u := usesOf d
  (if u.contains 2 then [(32 * cf d 832 32, 4 * cols)] else []) ++
  (if u.contains 3 then [(32 * cf d 864 32, 4 * cols)] else []) ++
  (if u.any (8 ≤ ·) then [(32 * cf d 896 32, 32 * rows)] else []) ++
  (if (stagesOf d).any (fun g => g.ty == 7 && decide (g.mode < 2)) then
    (List.range rows).map (fun r => (32 * (cf d 960 32 + r * cf d 560 16), (cols + 7) / 8)) else []) ++
  (stagesOf d).flatMap (fun g => if g.ty = 3 ∧ g.func = 0x1F then [(32 * g.imm, 1056)] else [])

/-- The scaled inputs: the scratch source, and Y where a stage uses it. -/
def chainIns (d rows cols : Nat) (src : ChainSrc) : List Rows :=
  (if src = .scratch then [chainS d rows cols] else []) ++ (if (usesOf d).contains 1 then [chainY d rows cols] else [])

/-- The statistics that ROWRED writes. -/
def chainStat (d rows : Nat) : List (Nat × Nat) :=
  if (stagesOf d).any (·.ty == 4) then [(32 * cf d 928 32, 32 * rows)] else []

/-- Two extents share a byte. -/
def extMeet (a b : List (Nat × Nat)) : Bool :=
  a.any (fun x => b.any (fun y => decide (x.1 < y.1 + y.2) && decide (y.1 < x.1 + x.2)))

/-- Whether writing o over input i breaks R155: anything but an exact in-place write. -/
def overlapBad (o i : Rows) : Bool :=
  let same := o.base == i.base && o.str == i.str && o.col0 == i.col0 && fmtWidth o.fmt == fmtWidth i.fmt
  let coin := same && o.rsc == i.rsc && o.blk == i.blk && o.bstr == i.bstr && o.mode == i.mode && o.bs == i.bs
  (!same && extMeet o.elemExt i.elemExt) || extMeet o.elemExt (i.rscExt ++ i.blkExt) ||
  extMeet (o.rscExt ++ o.blkExt) i.elemExt || (!coin && extMeet (o.rscExt ++ o.blkExt) (i.rscExt ++ i.blkExt))

/-- The body checks of a chain descriptor (R113, R116, R121, R139, R154, R155). `kind`: 0 RUN, 1 RUN_ACC, 2 MM_DRAIN. -/
def chainBody (d kind rows cols : Nat) (src : ChainSrc) : Option DFault :=
  let st := stagesOf d
  let n := nstg d
  let dk := dkind d
  let packs := (List.range st.length).filter (fun i => (st.getD i (stageAt 0 0)).ty == 8)
  let redSlots := (st.filter (·.ty == 4)).map (·.slot)
  let o := chainD d rows cols
  let blk := if o.mode = 1 ∨ o.mode = 2 then o.bs else 1
  let outs := if dk = 0 then [] else [o]
  let ins := chainIns d rows cols src
  let dupAt := (List.range st.length).find? (fun i =>
    (st.getD i (stageAt 0 0)).ty == 4 && (st.take i).any (fun g => g.ty == 4 && g.slot == (st.getD i (stageAt 0 0)).slot))
  bodyFault (
    [(2, bits d 16 2 != 3), (6, cf d 48 2 != (if kind = 0 then 0 else 1)), (6, n == 0 || decide (12 < n)),
     (6, dk == 3), (6, dk != 0 && (st.getD (n - 1) (stageAt 0 0)).ty != 8), (6, dk == 0 && !packs.isEmpty),
     (6, dk != 0 && !bitOf d 52 && o.mode != 0),
     (8, kind != 2 && (rows == 0 || kind == 1 && decide (128 < rows))),
     (10, kind != 2 && (cols == 0 || decide (1048576 < cols) || kind == 1 && decide (128 < cols))),
     (13, kind == 0 && !scaleModeOk (cf d 108 2) (cf d 104 4)),
     (14, (usesOf d).contains 1 && !scaleModeOk (cf d 116 2) (cf d 112 4)),
     (15, dk != 0 && !scaleModeOk o.mode o.fmt), (78, dk != 0 && scaleModeOk o.mode o.fmt && !rndOk (cf d 624 2) o.fmt),
     (72, decide (4095 < cf d 576 16)), (74, decide (4095 < cf d 592 16)), (76, decide (4095 < cf d 608 16)),
     (76, dk != 0 && (o.col0 % blk != 0 || cols % blk != 0)),
     (80, dk != 0 && (cf d 640 4 != 0 || cf d 640 48 != 0 && decide (o.mode < 2))),
     (48, outs.any (fun o => ins.any (overlapBad o) || extMeet o.exts (chainPlainIns d rows cols))),
     (116, extMeet (chainStat d rows) (ins.flatMap (·.exts) ++ chainPlainIns d rows cols))] ++
    rsvFields d [(59, 5), (627, 13), (688, 16), (752, 16), (824, 8), (1012, 12), (1216, 64)] ++
    (packs.filter (· + 1 != n)).map (fun i => (160 + 8 * i, true)) ++
    (match dupAt with
      | some i => [(160 + 8 * i + 2, decide (redSlots.length ≠ 0))]
      | none => []) ++
    (List.range 12).flatMap (fun i => if i < n then stageFails d i else [(160 + 8 * i, cf d (1280 + 64 * i) 64 != 0)]))

/-- The operands of a chain lie where R55 and R56 allow; its carried table and bitmap are mapped (R152, R246). -/
def State.chainRange (s : State) (t c d rows cols : Nat) (src : ChainSrc) : Option DFault :=
  let outs := if dkind d = 0 then [] else (chainD d rows cols).exts
  let all := (chainIns d rows cols src).flatMap (·.exts) ++ chainPlainIns d rows cols ++ chainStat d rows ++ outs
  let o := chainD d rows cols
  let b0 := cf d 768 32 * cf d 800 24 + o.col0 / o.bs
  let b1 := (cf d 768 32 + rows - 1) * cf d 800 24 + (o.col0 + cols - 1) / o.bs
  if !s.extsOk t c all then some ⟨0x4012, 0⟩
  else if ctbl d = 0 then none
  else firstFault [s.rowReach t c (ctbl d) (16 * rows),
    if o.mode = 2 then s.rowReach t c (cf d 704 48 + b0 / 8) (b1 / 8 - b0 / 8 + 1) else none]

/-! ### Running a row (R137, R143) -/

/-- A lane: value, mask bit, whether an invalid operation or a flush arose in it, and whether one was observed (R143). -/
structure Lane where
  v : Nat
  m : Bool := true
  bad : Bool := false
  fl : Bool := false
  seenBad : Bool := false
  seenFl : Bool := false
deriving DecidableEq, Repr

/-- An unmasked lane is observed: its events count. -/
def Lane.observe (l : Lane) : Lane := if l.m then { l with seenBad := l.seenBad || l.bad, seenFl := l.seenFl || l.fl } else l

/-- What a row runs in: the state it reads, tile-independent constants of the descriptor, and the row. -/
structure RowCtx where
  d : Nat
  rows : Nat
  cols : Nat
  r : Nat
  seed : Nat
  step : Nat
deriving DecidableEq, Repr

/-- An FP32 word of scratch; a poisoned one reads as NaN (R265). -/
def State.word32 (s : State) (a : Nat) : Nat := if s.poisoned a 4 then 0x7FC00000 else s.rdNat a 4

/-- The operand of a code for column j (Table 06-3), and whether 0 × ∞ arose in unscaling it. -/
def State.operand (s : State) (k : RowCtx) (code imm : Nat) (neg : Bool) (j : Nat) : Nat × Bool :=
  let x : Nat × Bool :=
    match code with
    | 0 => (imm, false)
    | 1 => s.vcElem (chainY k.d k.rows k.cols) k.r j
    | 2 => (s.word32 (32 * cf k.d 832 32 + 4 * j), false)
    | 3 => (s.word32 (32 * cf k.d 864 32 + 4 * j), false)
    | 4 => (cf k.d 1024 32, false)
    | 5 => (cf k.d 1056 32, false)
    | 6 => (0, false)
    | 7 => (0x3F800000, false)
    | n => (s.word32 (32 * (cf k.d 896 32 + k.r) + 4 * (n - 8)), false)
  (if neg then fneg x.1 else x.1, x.2)

/-- Mask bit (r, c) of the mask array (R144). -/
def State.maskBit (s : State) (k : RowCtx) (j : Nat) : Bool :=
  bitOf (s.rdNat (32 * (cf k.d 960 32 + k.r * cf k.d 560 16) + j / 8) 1) (j % 8)

/-- A word of the user table that function FUNC 0x1F reads for input x is a NaN: what it gives is no invalid operation (R132). -/
def State.userNan (s : State) (su : Nat) (d : Bool) (x : Nat) : Bool :=
  isNan32 (s.userWord su 0) || isNan32 (s.userWord su 1) ||
    (List.range 4).any (fun i => (!d || i != 0) && isNan32 (s.userWord su (8 + 4 * floor63 (s.userPos su x) + i)))

/-- A LUT stage's function: Table 06-5, or the user table. -/
def State.stageFn (s : State) (g : Stage) (d : Bool) (x : Nat) : Nat :=
  if g.func = 0x1F then s.userFn g.imm d x else lutFn g.func d x

/-- A stage that is neither ROWRED nor PACK, on lane j. -/
def State.stageLane (s : State) (k : RowCtx) (g : Stage) (j : Nat) (l : Lane) : Lane :=
  let a := if g.usesA then s.operand k g.asel g.imm g.nega j else (0, false)
  let b := if g.usesB then s.operand k g.bsel g.imm g.negb j else (0, false)
  let draw := draw24 k.seed k.step ((cf k.d 1152 64 + (k.r * k.cols + j)) % 2 ^ 64)
  match g.ty with
  | 6 => if g.mode = 3 then { l with m := l.m && cmp32 g.func l.v a.1, bad := l.bad || a.2 } else
      let v := if g.mode = 0 then (if cmp32 g.func l.v a.1 then b.1 else l.v)
               else if g.mode = 1 then fmax l.v a.1 else fmin l.v a.1
      { l with v := v, bad := l.bad || a.2 || b.2 }
  | 7 =>
    { l with m := match g.mode with
        | 0 => s.maskBit k j
        | 1 => l.m && s.maskBit k j
        | 2 => l.m && decide ((j : Int) ≤ k.r + toSigned 32 g.imm)
        | _ => true }
  | 9 =>
    if g.mode = 1 then { l with m := l.m && decide (draw < bits g.imm 0 24) }
    else if draw < bits g.imm 0 24 then
      let v := fmul l.v a.1
      { l with v := v, bad := l.bad || a.2 || (isNan32 v && !isNan32 l.v && !isNan32 a.1) }
    else { l with v := 0, bad := l.bad || a.2 }
  | 5 =>
    let w0 := fma32 a.1 g.imm b.1
    let w := normFn (bitOf g.mode 0) w0
    let v := if bitOf g.mode 1 then w else fmul l.v w
    let nanIn := isNan32 a.1 || isNan32 b.1 || isNan32 g.imm || !bitOf g.mode 1 && isNan32 l.v
    { l with v := v, bad := l.bad || a.2 || b.2 || (isNan32 v && !nanIn) }
  | 3 =>
    let onA := g.mode == 1 || g.mode == 2
    let x := if onA then a.1 else l.v
    let f := s.stageFn g (g.mode == 2 || g.mode == 3) x
    let v := if g.mode = 0 ∨ g.mode = 3 then f else fmul l.v f
    { l with v := v, fl := l.fl || isSub32 x,
             bad := l.bad || a.2 || (isNan32 v && !isNan32 l.v && !(onA && isNan32 a.1) &&
               !(g.func == 0x1F && s.userNan g.imm (g.mode == 2 || g.mode == 3) x)) }
  | 2 =>
    let v := fma32 l.v a.1 b.1
    { l with v := v, bad := l.bad || a.2 || b.2 || (isNan32 v && !isNan32 l.v && !isNan32 a.1 && !isNan32 b.1) }
  | 1 =>
    let v := fmul l.v a.1
    { l with v := v, bad := l.bad || a.2 || (isNan32 v && !isNan32 l.v && !isNan32 a.1) }
  | _ => l

/-- One level of a balanced binary tree: neighbours added. -/
def addPairs : List Nat → List Nat
  | a :: b :: r => fadd a b :: addPairs r
  | l => l

/-- The sum of a lane group: a balanced tree over 128 lanes, absent lanes +0 (R147). -/
def groupSum (l : List Nat) : Nat := (iter 7 addPairs (l ++ List.replicate (128 - l.length) 0)).headD 0

/-- e^x and ln x as the LUT stage gives them. -/
def fexp (x : Nat) : Nat := lutFn 0 false x
def flog (x : Nat) : Nat := lutFn 2 false x

/-- −∞. -/
def ninf : Nat := 0xFF800000

/-- One group of LSE (R147): the running maximum and sum. -/
def lseGroup (a : Nat × Nat) (g : List Lane) : Nat × Nat :=
  let mn := (g.filter (·.m)).foldl (fun x l => fmax x l.v) a.1
  if mn = ninf then a
  else (mn, fadd (fmul a.2 (fexp (fsub a.1 mn))) (groupSum (g.map (fun l => if l.m then fexp (fsub l.v mn) else 0))))

/-- The reduction of a row's unmasked lanes (R147, R148). -/
def reduceRow (mode : Nat) (ls : List Lane) : Nat :=
  let act := (ls.filter (·.m)).map (·.v)
  let groups := chunks 128 ls
  match mode with
  | 0 => act.foldl fmax ninf
  | 1 => groups.foldl (fun a g => fadd a (groupSum (g.map (fun l => if l.m then l.v else 0)))) 0
  | 2 => groups.foldl (fun a g => fadd a (groupSum (g.map (fun l => if l.m then fmul l.v l.v else 0)))) 0
  | 3 =>
    if act.any isNan32 then 0x7FC00000
    else if act.any (· == 0x7F800000) then 0x7F800000
    else
      let r := groups.foldl lseGroup (ninf, 0)
      if r.1 = ninf then ninf else fadd r.1 (flog r.2)
  | _ => act.foldl (fun a v => fmax a (r32 (v32 v).abs)) 0

/-- The combination with the old value of a slot (R147). -/
def reduceOld (mode o x : Nat) : Nat :=
  match mode with
  | 1 => fadd o x
  | 2 => fadd o x
  | 3 =>
    let mx := fmax o x
    if !isFin32 mx then mx else fadd mx (flog (fadd (fexp (fsub o mx)) (fexp (fsub x mx))))
  | _ => fmax o x

/-- A ROWRED stage: the slot written, the lanes observed, and the invalid statistic it counts: of the lanes' own reduction, or of the
combination with the old value (R147). -/
def State.rowred (s : State) (k : RowCtx) (g : Stage) (ls : List Lane) : State × List Lane × Nat :=
  let a := 32 * (cf k.d 928 32 + k.r) + 4 * g.slot
  let x := reduceRow g.mode ls
  let o := s.word32 a
  let y := if bitOf g.func 0 then reduceOld g.mode o x else x
  let sum := g.mode == 1 || g.mode == 2
  let own := isNan32 x && !ls.any (fun l => l.m && isNan32 l.v)
  let comb := bitOf g.func 0 && isNan32 y && !isNan32 x && !isNan32 o
  (s.wr a (toBytes 4 y), ls.map Lane.observe, if sum && (own || comb) then 1 else 0)

/-- Run the stages of a row. -/
def runStages (k : RowCtx) : List Stage → State × List Lane × Nat → State × List Lane × Nat
  | [], a => a
  | g :: r, (s, ls, n) =>
    if g.ty = 4 then
      let b := s.rowred k g ls
      runStages k r (b.1, b.2.1, n + b.2.2)
    else runStages k r (s, (List.range ls.length).map (fun j => s.stageLane k g j (ls.getD j ⟨0, true, false, false, false, false⟩)), n)

/-- The lanes of a row from its source, and the bank after it. -/
def State.sourceRow (s : State) (t : Nat) (k : RowCtx) (src : ChainSrc) : List Lane :=
  match src with
  | .scratch => (List.range k.cols).map (fun j =>
      let e := s.vcElem (chainS k.d k.rows k.cols) k.r j
      { v := e.1, bad := e.2 })
  | .acc bank asInt _ =>
    let b := if bank = 0 then (s.tile t).acc0 else (s.tile t).acc1
    (List.range k.cols).map (fun j =>
      let x := (smGet 0 b (128 * k.r + j)).toNat
      { v := if asInt then r32 (valOfInt (toSigned 32 x)) else r32 (v32 x) })

/-- Write an accumulator bank of a tile. -/
def Tile.modBank (x : Tile) (bank : Nat) (f : SMap F32 → SMap F32) : Tile :=
  if bank = 0 then { x with acc0 := f x.acc0 } else { x with acc1 := f x.acc1 }

/-- PACK: write the row, its scales, its carried entry and its bitmap bits (R150-R152). -/
def State.packRow (s : State) (c : Nat) (k : RowCtx) (ls : List Lane) : State × Counts :=
  let o := chainD k.d k.rows k.cols
  let g : PackCfg := ⟨o.fmt, o.mode, o.bs, cf k.d 624 2, bitOf k.d 626, k.seed, k.step⟩
  let ct := ctbl k.d
  let ent := ct + 16 * k.r
  let entry := ofBytes (s.rdCa c ent 16)
  let base := if ct ≠ 0 then (if s.rdCaPoison c ent 16 then 0x7FC00000 else carriedBase entry k.step)
              else if 2 ≤ o.mode then s.rowScale o k.r else 0x3F800000
  let p := g.row base (ls.map (fun l => (if l.m then l.v else 0, l.m))) ((cf k.d 1088 64 + k.r * k.cols) % 2 ^ 64)
  let keep := !bitOf k.d 52
  let codes := (p.codes.zip ls).map (fun q => if q.2.m then some q.1 else if keep then none else some 0)
  let s := s.putRow (o.bit k.r 0) (fmtWidth o.fmt) codes
  let s := if ct ≠ 0 then s.wr (32 * o.rsc + 4 * k.r) (toBytes 4 (usedBase base)) else s
  let s := s.putBlks o k.r p.blks
  let s := if ct ≠ 0 then s.wrCa c ent (toBytes 16 (carriedRecord entry k.step (g.recordCode base p))) else s
  let s := if ct ≠ 0 ∧ o.mode = 2 then
      s.putBitmap c (cf k.d 704 48) ((cf k.d 768 32 + k.r) * cf k.d 800 24 + o.col0 / o.bs) p.flags else s
  let inv := (p.inv.zip ls).countP (fun q => q.1 || q.2.seenBad)
  (s, { inv := inv, sat := p.sat.countP id, flush := ls.countP (·.seenFl), ovf := g.ovfCount base p })

/-- One row of a chain: source, stages, then PACK or nothing. -/
def State.chainRow (s : State) (t c : Nat) (k : RowCtx) (src : ChainSrc) : State × Counts :=
  let ls := s.sourceRow t k src
  let s := match src with
    | .acc bank _ true => s.modTile t (·.modBank bank (fun b => smErase b (128 * k.r) (128 * k.r + k.cols)))
    | _ => s
  let a := runStages k (stagesOf k.d) (s, ls, 0)
  if dkind k.d = 0 then
    (a.1, { inv := a.2.1.countP (·.seenBad) + a.2.2, flush := a.2.1.countP (·.seenFl) })
  else
    let p := a.1.packRow c k (a.2.1.map Lane.observe)
    (p.1, p.2.plus { inv := a.2.2 })

/-- Run a chain whose checks have passed: rows in ascending order; poison among its inputs aborts the step (R265). -/
def State.runChain (s : State) (t c : Nat) (st : Stream) (x : InFlight) (d rows cols : Nat) (src : ChainSrc) :
    State × InFlight :=
  let old := (stagesOf d).flatMap (fun g => if g.ty = 4 ∧ bitOf g.func 0 then
    (List.range rows).map (fun r => (32 * (cf d 928 32 + r) + 4 * g.slot, 4)) else [])
  let bases := if dkind d ≠ 0 ∧ ctbl d = 0 then (chainD d rows cols).rscExt else []
  let bad := s.extsPoison ((chainIns d rows cols src).flatMap (·.exts) ++ chainPlainIns d rows cols ++ old ++ bases) ||
    (ctbl d != 0 && s.rdCaPoison c (ctbl d) (16 * rows))
  let m := if bad then s.metPoison t c st x else (s, x)
  let r := (List.range rows).foldl (fun (a : State × Counts) r =>
    let b := a.1.chainRow t c ⟨d, rows, cols, r, (s.ctx c).seed.toNat, x.step⟩ src
    (b.1, a.2.plus b.2)) (m.1, {})
  (r.1, { m.2 with counts := m.2.counts.plus r.2 })

end Sys2Proof.Machine
end

