-- ==== Sys2Proof/Machine/Dma.lean ====
section
/-! DEFINITION. The DMA engine (R46, R73, R74, R226-R231): checks, registration and tags, moving the data of a transfer with
the expander and compressor, host regions (R363, R364, R366), and the DMA rows. -/

namespace Sys2Proof.Machine

/-! ### The DMA descriptor (Table 09-4) -/

/-- ROWS. -/
def dmaRows (d : Nat) : Nat := dfield d 80 16
/-- RLEN. -/
def dmaRlen (d : Nat) : Nat := dfield d 96 32
/-- SRC. -/
def dmaSrc (d : Nat) : Nat := dfield d 128 48
/-- DST. -/
def dmaDst (d : Nat) : Nat := dfield d 192 48
/-- TBL. -/
def dmaTbl (d : Nat) : Nat := dfield d 64 6
/-- CMP. -/
def dmaCmp (d : Nat) : Bool := bitOf d 48
/-- HIST. -/
def dmaHist (d : Nat) : Bool := bitOf d 50
/-- LEDG. -/
def dmaLedg (d : Nat) : Bool := bitOf d 53
/-- CFMT. -/
def dmaCfmt (d : Nat) : Nat := dfield d 56 4
/-- First byte of source row r. -/
def dmaSrcRow (d r : Nat) : Nat := dmaSrc d + 32 * r * dfield d 256 32
/-- First byte of destination row r. With CMP the rows form one stream. -/
def dmaDstRow (d r : Nat) : Nat := if dmaCmp d then dmaDst d + r * dmaRlen d else dmaDst d + 32 * r * dfield d 288 32
/-- Operation of a DMA descriptor: 0 READ, 1 WRITE, 2 COPY, 3 FILL. -/
def dmaOp (d : Nat) : Nat := dfield d 4 8

/-- The scale arrays of a LEDG source; its elements are read at SRC (R227). -/
def dmaLedgRows (d : Nat) : Rows :=
  ⟨0, 0, 0, dmaCfmt d, dfield d 344 2, blockSize (dfield d 344 2) (dfield d 346 2), dfield d 352 32, dfield d 384 32, dfield d 416 16,
   dmaRows d, dmaRlen d * 8 / fmtWidth (dmaCfmt d)⟩

/-- The body checks of R113, R228 and R363. -/
def State.dmaBody (s : State) (c op d : Nat) : Option DFault :=
  let w := fmtWidth (dmaCfmt d)
  bodyFault (
    [(2, dfield d 16 2 != 1), (10, dmaRows d == 0), (12, dmaRlen d == 0 || dmaRlen d % 32 != 0),
     (24, op == 0 && !inScratch (dmaDst d)), (16, op == 1 && !inScratch (dmaSrc d)),
     (6, dmaCmp d && (op == 0 || op == 3 || dmaLedg d || inScratch (dmaDst d) || s.isHost c (dmaDst d))),
     (24, dmaCmp d && dmaDst d % 4096 != 0), (36, dmaCmp d && decide (1 < dmaRows d) && 32 * dfield d 288 32 != dmaRlen d),
     (6, dmaHist d && (op == 3 || dmaLedg d)), (6, !dmaHist d && dfield d 51 2 != 0), (7, dmaHist d && !sfOk (dmaCfmt d)), (7, decide (0xC ≤ dmaCfmt d)),
     (6, dmaLedg d && op != 1), (40, dmaLedg d && decide ((s.ctx c).slices ≤ dfield d 320 24)),
     (12, dmaLedg d && dmaRlen d * 8 % w != 0), (7, dmaLedg d && !scaleModeOk (dfield d 344 2) (dmaCfmt d))] ++
    rsvFields d [(54, 2), (60, 4), (70, 10), (176, 16), (240, 16), (348, 4), (432, 592)])

/-- Every operand row lies where the DMA engine reaches. -/
def State.dmaReach (s : State) (t c op d : Nat) : Option DFault :=
  let n := dmaRlen d
  let rows := List.range (dmaRows d)
  let src := if op = 3 then [] else rows.map (fun r => s.rowReach t c (dmaSrcRow d r) n)
  let dst := if dmaLedg d then
      ((dmaLedgRows d).rscExt ++ (dmaLedgRows d).blkExt).map (fun e => s.rowReach t c (scratchBase + e.1) e.2)
    else rows.map (fun r => s.rowWrite t c (dmaDstRow d r) n)
  firstFault (src ++ dst)

/-- Every check of a DMA after its header. -/
def State.dmaCheck (s : State) (t c op d : Nat) : Option DFault :=
  match s.dmaBody c op d with
  | some f => some f
  | none => s.dmaReach t c op d

/-! ### Registration and tags (R73, R74, R259-R261) -/

/-- The kinds that the tile's DMA engine carries. -/
def XKind.isDma (k : XKind) : Bool := k == .dmaRead || k == .dmaWrite || k == .dmaCopy || k == .dmaFill

/-- The requests of up to 4 KiB that a transfer makes at the tile's DMA engine, row by row (R306; DEDUCED, log entry 57). -/
def dmaReqs (kind : XKind) (d : Nat) : Nat := if kind.isDma then dmaRows d * ceilDiv (dmaRlen d) 4096 else 0

/-- Register a transfer of an instruction under the offset of its descriptor; its number is mig.nextId. -/
def State.register (s : State) (t c : Nat) (st : Stream) (x : InFlight) (off : Nat) (kind : XKind) (d : Nat) : State × Nat :=
  let f : Xfer := { id := s.mig.nextId, tile := t, stream := streamNo st, ctx := c, step := x.step, off := off, kind := kind,
                    desc := d, pc := x.pc, seq := x.seq, clk := s.beat.now, left := dmaReqs kind d }
  ({ s with xfers := s.xfers ++ [f], mig := { s.mig with nextId := s.mig.nextId + 1 } }, s.mig.nextId)

/-- A transfer changed by f. -/
def State.modXfer (s : State) (id : Nat) (f : Xfer → Xfer) : State :=
  { s with xfers := s.xfers.map (fun x => if x.id = id then f x else x) }

/-- Grist table n of context c. -/
def State.table (s : State) (c n : Nat) : Grist := smGet {} (s.ctx c).tables n
/-- That table changed by f. -/
def State.modTable (s : State) (c n : Nat) (f : Grist → Grist) : State :=
  s.modCtx c (fun x => { x with tables := smMod {} x.tables n f })

/-- A transfer that has its tag starts: HCLR clears the counters (R222). -/
def State.startXfer (s : State) (c d : Nat) (kind : XKind) : State :=
  if (kind = .dmaRead ∨ kind = .dmaWrite ∨ kind = .dmaCopy) ∧ bitOf d 51 then s.modTable c (dmaTbl d) (fun g => { g with cnt := [] })
  else s

/-- An earlier transfer of the same stream of the tile still waits for its tag (R59). -/
def State.tagBehind (s : State) (id : Nat) : Bool :=
  match s.xfers.find? (fun f => f.id == id) with
  | some f => (s.xfers.takeWhile (fun g => g.id != id)).any (fun g => g.waitsTag && g.tile == f.tile && g.stream == f.stream)
  | none => true

/-- A transfer gets its tag and starts. -/
def State.giveTag (s : State) (c id d : Nat) (kind : XKind) : State :=
  ((s.modXfer id (fun f => { f with asked := true, tag := true })).markHigh).startXfer c d kind

/-- Ask for a transfer's tag (R260, R261): the state, and whether it has been taken. It waits where none is free, where others wait for
what is left, or behind an earlier transfer of its stream. -/
def State.takeTag (s : State) (c id d : Nat) (kind : XKind) : State × Bool :=
  if s.tagFree c && decide (s.tagWaiters < s.sharedFree) && !s.tagBehind id then (s.giveTag c id d kind, true)
  else ((s.modXfer id (fun f => { f with asked := true })).countWait, false)

/-- Issue a transfer: register it, and take its tag or wait for one. -/
def State.issueXfer (s : State) (t c : Nat) (st : Stream) (x : InFlight) (off : Nat) (kind : XKind) (d : Nat) (waitOf : Nat → Wait) :
    State × InFlight :=
  let r := s.register t c st x off kind d
  let g := r.1.takeTag c r.2 d kind
  (g.1, if g.2 then x else { x with wait := waitOf r.2 })

/-- A waiting instruction's transfer takes a free tag (R260, R261): the state, the instruction and the transfer. Where the free shared tags
are fewer than the requests that wait, a draw of the tracker's arbiter grants each (R260). -/
def State.tagGrant (s : State) (t : Nat) (st : Stream) (seq : Nat) : Option (State × InFlight × Xfer) :=
  match (s.seq t st).inflight.find? (fun x => x.seq == seq) with
  | none => none
  | some x =>
    match (match x.wait with
      | .tag id => some id
      | .chainTag id => some id
      | _ => none) with
    | none => none
    | some id =>
      match s.xfers.find? (fun f => f.id == id) with
      | none => none
      | some f =>
        let last := decide (s.sharedFree < s.tagWaiters)
        if s.tagFree f.ctx && !s.tagBehind id && (!last || s.trackerGrant (t / 24)) then
          let s := if last then s.modArb 10 (fun x => { x with grant := none }) else s
          some (s.giveTag f.ctx id f.desc f.kind, x, f)
        else none

/-! ### Consuming instructions (R74) -/

/-- The earliest transfer of a tile's stream and step, of the kinds given, registered under an offset and not consumed. A consuming
instruction passes over transfers of another class's kinds (DESIGN CHOICE, log entry 93). -/
def State.matchXfer (s : State) (t : Nat) (st : Stream) (step off : Nat) (kinds : List XKind) : Option Xfer :=
  s.xfers.find? (fun f => f.tile == t && f.stream == streamNo st && f.step == step && f.off == off && !f.consumed && !f.released && kinds.contains f.kind)

/-- A consuming instruction takes the transfer that its descriptor names, and waits for it; 0x401D where there is none, and 0x4011 where
DOP is not the OP that issued it: kinds are listed by it (R76). -/
def State.consumeAt (s : State) (t : Nat) (st : Stream) (x : InFlight) (kinds : List XKind) : Ran :=
  match s.matchXfer t st x.step x.off kinds with
  | none => { st := s, fl := x, fault := some ⟨0x401D, 0⟩ }
  | some f =>
    if kinds[dmaOp x.desc]? = some f.kind then
      { st := s.modXfer f.id (fun f => { f with consumed := true }), fl := { x with wait := .xfer f.id } }
    else { st := s, fl := x, fault := some ⟨0x4011, 0⟩ }

/-! ### Reading, with the expander (R227, R229-R231) -/

/-- A slot of a migratable granule that a transfer reads. -/
structure SlotRead where
  ca : Nat
  coded : Bool           -- it is not PLAIN
  bytes : List Byte
  damage : Option Nat
deriving DecidableEq, Repr

/-- The extents of n bytes from ca cut at 4 KiB slots: first byte and length. -/
def slotPieces (ca n : Nat) : List (Nat × Nat) :=
  if n = 0 then [] else
  (List.range ((ca + n - 1) / 4096 - ca / 4096 + 1)).map (fun i =>
    let lo := max ca ((ca / 4096 + i) * 4096)
    (lo, min (ca + n) ((ca / 4096 + i + 1) * 4096) - lo))

/-- The header of the slot that holds a memory key. -/
def State.hdrAt (s : State) (key : Nat) : Nat := (smGet 0 s.hdrs (key / 4096)).toNat

/-- Decode the slot at context address ca (R229); a payload or a header that arrives poisoned is damaged with 0x2002 (R231). Of a poisoned
header no format is known, and every byte is 0xFF (DEDUCED, log entry 99). -/
def State.readSlot (s : State) (c ca : Nat) : SlotRead :=
  match s.translate c ca with
  | .mem lgn k =>
    let h := if (s.pent lgn).fresh then 0 else s.hdrAt k
    if s.caCut c ca then ⟨ca, false, [], none⟩
    else if s.hdrPoison.contains (k / 4096) && !(s.pent lgn).fresh then ⟨ca, true, List.replicate 4096 0xFF, some 0x2002⟩
    else if hType h = 0 then ⟨ca, false, [], none⟩
    else if s.poisoned k (32 * hLen h) then ⟨ca, true, damageFill h false, some 0x2002⟩
    else
      let r := decodeBlock (s.table c) false h (s.rd k 4096)
      ⟨ca, true, r.1, r.2⟩
  | _ => ⟨ca, false, [], none⟩

/-- The slots that extents touch, each once, in the order first touched. -/
def State.slotsOf (s : State) (c : Nat) (rows : List (Nat × Nat)) : List SlotRead :=
  ((rows.flatMap (fun p => if scratchBase ≤ p.1 then [] else (slotPieces p.1 p.2).map (fun q => q.1 / 4096 * 4096))).eraseDups).map (s.readSlot c)

/-- The byte at ca, through the decoded slots. -/
def State.readByte (s : State) (c : Nat) (slots : List SlotRead) (ca : Nat) : MByte :=
  match slots.find? (fun k => k.ca == ca / 4096 * 4096 && k.coded) with
  | some k => (k.bytes.getD (ca % 4096) 0, false)
  | none => (s.rdCaByte c ca, s.caPoison c ca)

/-- The first damaged slot: its number in the order first touched, and its code. -/
def firstDamage (l : List SlotRead) : Option (Nat × Nat) :=
  (List.range l.length).findSome? (fun i => ((l.getD i ⟨0, false, [], none⟩).damage).map (fun k => (i, k)))

/-! ### Host regions (R363, R364, R366) -/

/-- Whether a request of context c to its host region goes through: BME set and the port up. -/
def State.hostPath (s : State) (c : Nat) : Bool :=
  match (s.ctx c).owner with
  | some f => (s.fn f.val).bme && (s.hport (f.val / 8)).up
  | none => false

/-- The owning function's index, 31 for none. -/
def State.ownerFn (s : State) (c : Nat) : Nat :=
  match (s.ctx c).owner with
  | some f => f.val
  | none => 31

/-- A device request to a host region fails: logged with the function and the context address. -/
def State.hostFail (s : State) (c ca : Nat) : State := s.logEvent 0x6003 (some c) (s.ownerFn c) 0 7 (s.ownerFn c) ca

/-- Flag range n of function f is in force with a direction. -/
def State.flagOn (s : State) (f n dir : Nat) : Bool :=
  let b := s.winFlagB f n
  bitOf b 16 && bits b 17 1 == dir
/-- Whether the extent of n bytes from ca meets flag range k of function f. -/
def State.flagMeets (s : State) (f k ca n : Nat) : Bool :=
  let lo := bits (s.winFlagA f k) 6 42 * 64
  decide (ca < lo + 64 * bits (s.winFlagB f k) 0 16) && decide (lo < ca + n)
/-- The lowest flag range of function f with a direction that the extent meets. -/
def State.flagAt (s : State) (f dir ca n : Nat) : Option Nat :=
  (List.range 16).find? (fun k => s.flagOn f k dir && s.flagMeets f k ca n)

/-- A flag becomes visible (R366, R367): counted, its semaphore signalled, its vector raised for DIR 1. -/
def State.flagVisible (s : State) (f c n : Nat) : State :=
  let b := s.winFlagB f n
  let s := s.modFn f (fun x => { x with flags := satAdd (2 ^ 24 - 1) x.flags 1 })
  let s := if bitOf b 18 then { s with rsigs := s.rsigs ++ [⟨bits b 19 7, bits b 26 8, 1, c, none, none⟩] } else s
  if bitOf b 17 && bitOf b 34 then s.msix f (bits b 35 6) else s

/-- A device write to a host region: sent after the earlier ones, with Relaxed Ordering outside flag ranges where RO_EN is
set (R366). -/
def State.hostPut (s : State) (c ca bus : Nat) (l : List Byte) (ok : Bool) : State :=
  if ok && s.hostPath c then
    let f := s.ownerFn c
    match s.flagAt f 1 ca l.length with
    | some n => (s.send (.hostWrite f bus l false)).flagVisible f c n
    | none => s.send (.hostWrite f bus l (bitOf (s.pciPcfg (f / 8)) 0))
  else s.hostFail c ca

/-! ### Writing (R87, R219, R220, R253, R255) -/

/-- Whether granule g holds bytes of context c's loaded program (R87). -/
def State.guarded (s : State) (c g : Nat) : Bool :=
  match (s.ctx c).prog with
  | some p => p.guarded.contains g
  | none => false

/-- The granules at which a write of n bytes from ca must wait: one in a move, in CELLAR, or FRESH (R245, R253, R255). -/
def State.writeBlocks (s : State) (c ca n : Nat) : List Nat :=
  if scratchBase ≤ ca then [] else
  (granulePieces ca n).filterMap (fun p =>
    if s.guarded c (p.1 / granule) then none
    else match s.translate c p.1 with
      | .mem lgn _ =>
        let e := s.pent lgn
        if e.mstate ≠ 0 ∨ e.tier = 3 ∨ e.fresh then some lgn else none
      | _ => none)

/-- Ask for what a waiting write needs: a class 1 promotion, or the zero fill. -/
def State.unblock (s : State) (lgn : Nat) : State :=
  let e := s.pent lgn
  if e.mstate ≠ 0 then s else if e.tier = 3 then s.requestMove lgn 1 2 else if e.fresh then s.startFill lgn else s

/-- Mark poisoned the words that take a byte marked poisoned (R265). -/
def State.markBytes (s : State) (c ca : Nat) (l : List MByte) : State :=
  (List.range l.length).foldl (fun s i =>
    if (l.getD i (0, false)).2 then
      match s.translate c (ca + i) with
      | .scratch k => { s with poison := setAdd s.poison (k / 16) }
      | .mem lgn k => State.markPoison { s with poison := setAdd s.poison (k / 16) } lgn
      | _ => s
    else s) s

/-- What a write within one slot came to: the state, the code of what dropped it, and whether it met a guarded granule (R87). -/
structure Wrote where
  st : State
  code : Option Nat := none
  guard : Bool := false

/-- A slot's header becomes h; a header written anew is poisoned no longer (R264). -/
def State.setHdr (s : State) (n h : Nat) : State := { s with hdrs := smSet 0 s.hdrs n (BitVec.ofNat 64 h), hdrPoison := setDel s.hdrPoison n }

/-- Write bytes within one slot. `full` says whether the whole write covers the slot (R220). -/
def State.putSlot (s : State) (c ca : Nat) (l : List MByte) (full hostOk : Bool) : Wrote :=
  match s.translate c ca with
  | .unmapped => { st := s }
  | .scratch _ => { st := (s.wrCa c ca (l.map (·.1))).markBytes c ca l }
  | .host bus => { st := s.hostPut c ca bus (l.map (·.1)) hostOk }
  | .mem lgn k =>
    if s.guarded c (ca / granule) then { st := s, code := some 0x4016, guard := true }
    else if s.hdrAt k ≠ 0 ∧ !(s.pent lgn).fresh ∧ !full then { st := s.logDev 0x3007 (some c) (ca / 4096 * 4096), code := some 0x3007 }
    else { st := ((if full || (s.pent lgn).fresh then s.setHdr (k / 4096) 0 else s).wrCa c ca (l.map (·.1))).markBytes c ca l }

/-- The bytes of slot b that extents, first byte and length in ascending order, cover between them. -/
def slotCover (b : Nat) (l : List (Nat × Nat)) : Nat :=
  (l.foldl (fun (a : Nat × Nat) p =>
    let lo := max (max p.1 b) a.2
    let hi := min (p.1 + p.2) (b + 4096)
    if lo < hi then (a.1 + (hi - lo), hi) else a) (0, b)).1

/-- The extents of one write cover the whole slot b (R220). -/
def slotFull (l : List (Nat × Nat)) (b : Nat) : Bool := slotCover b l == 4096

/-- A write after an earlier one: the first code is kept. -/
def Wrote.join (a b : Wrote) : Wrote := { st := b.st, code := a.code.or b.code, guard := a.guard || b.guard }

/-- Write one row in slot pieces. -/
def State.putRowCa (s : State) (c ca : Nat) (l : List MByte) (full : Nat → Bool) (hostOk : Bool) : Wrote :=
  (slotPieces ca l.length).foldl (fun (a : Wrote) p =>
    let r := a.st.putSlot c p.1 ((l.drop (p.1 - ca)).take p.2) (full (p.1 / 4096 * 4096)) hostOk
    a.join r) { st := s }

/-- What the device's own engines write at ca: as any other write to a slot (R220; DEDUCED, log entry 98). Where a write covers a slot that
is not PLAIN whole, it becomes PLAIN. -/
def State.wrEngine (s : State) (c ca : Nat) (l : List Byte) : State :=
  (slotPieces ca l.length).foldl (fun s p =>
    let b := (l.drop (p.1 - ca)).take p.2
    match s.translate c p.1 with
    | .mem lgn k =>
      if p.2 = 4096 ∨ (s.pent lgn).fresh then (s.setHdr (k / 4096) 0).wrCa c p.1 b
      else if s.hdrAt k ≠ 0 then s.logDev 0x3007 (some c) (p.1 / 4096 * 4096)
      else s.wrCa c p.1 b
    | _ => s.wrCa c p.1 b) s

/-- Write one block with the compressor in slot form (R218, R219). A FRESH granule's frame is zero first (R245). -/
def State.putBlock (s : State) (c tbl ca : Nat) (g : Grist) (l : List MByte) : Wrote :=
  match s.translate c ca with
  | .mem lgn k =>
    if s.guarded c (ca / granule) then { st := s, code := some 0x4016, guard := true }
    else if s.caCut c ca then { st := s }
    else
      let s := if (s.pent lgn).fresh then s.zeroFill lgn else s
      let b := encodeBlock g tbl (l.map (·.1))
      let s := s.setHdr (k / 4096) b.1
      if l.any (·.2) then { st := (s.wrPoison k b.2).markPoison lgn } else { st := s.wr k b.2 }
  | _ => { st := s }

/-! ### Completing a transfer (R46, R231, R497) -/

/-- How many bytes of a row from ca are still mapped. -/
def State.mappedLen (s : State) (c ca n : Nat) : Nat :=
  if scratchBase ≤ ca then n
  else ((granulePieces ca n).foldl (fun (a : Nat × Bool) p =>
    if a.2 && (s.regionOf c (p.1 / granule)).isSome then (a.1 + p.2, true) else (a.1, false)) (0, true)).1

/-- How many bytes of the rows move before the first request to a region unmapped meanwhile, and whether one was met. -/
def cutRows (n : Nat) : List Nat → Nat × Bool
  | [] => (0, false)
  | k :: r => if k < n then (k, true) else (n + (cutRows n r).1, (cutRows n r).2)

/-- A log entry of a transfer's tile. -/
def State.logXfer (s : State) (f : Xfer) (code x : Nat) : State :=
  s.logTile code (some f.ctx) f.tile (streamOf f.stream) f.pc f.seq x

/-- A report with a block number and a context address (R231, R497). A tile's log entry has room for the first alone (Table 18-3); the whole
stands in the context's state (DESIGN CHOICE, log entry 100). -/
def State.reportXfer (s : State) (f : Xfer) (code block ca : Nat) : State :=
  (s.logXfer f code block).modStep f.ctx (fun k => { k with xreport := some ⟨f.tile, streamOf f.stream, code, block, ca⟩ })

/-- The data that a transfer reads: its rows, and the slots decoded. -/
def State.dmaData (s : State) (f : Xfer) (hostOk : Bool) (hostData : List Byte) : List (List MByte) × List SlotRead :=
  let d := f.desc
  let n := dmaRlen d
  if f.kind = .dmaFill then
    ((List.range (dmaRows d)).map (fun r => (List.range n).map (fun j => (BitVec.ofNat 8 (bits f.fill (8 * ((r * n + j) % 4)) 8), false))), [])
  else
    let rows := (List.range (dmaRows d)).map (fun r => (dmaSrcRow d r, n))
    let slots := s.slotsOf f.ctx (rows.filter (fun p => !s.isHost f.ctx p.1))
    ((List.range (dmaRows d)).map (fun r =>
      let a := dmaSrcRow d r
      (List.range n).map (fun j =>
        if s.isHost f.ctx (a + j) then
          (if hostOk && s.hostPath f.ctx then (hostData.getD (r * n + j) 0, false) else (0, true))
        else s.readByte f.ctx slots (a + j))), slots)

/-- The values of a LEDG write's elements, converted to FP32 (R181, R227). -/
def State.ledgVals (s : State) (d : Nat) (rows : List (List MByte)) : List F32 :=
  let o := dmaLedgRows d
  let w := fmtWidth o.fmt
  (List.range rows.length).flatMap (fun r =>
    let x := ofBytes ((rows.getD r []).map (·.1))
    (List.range o.cols).map (fun j => BitVec.ofNat 32 (s.vcOfCode o r j (bits x (w * j) w)).1))

/-- Count the symbols of the bytes read, and build the table if HFIN is set (R222, R223). -/
def State.dmaHistogram (s : State) (f : Xfer) (rows : List (List MByte)) : State :=
  let d := f.desc
  if dmaHist d then
    s.modTable f.ctx (dmaTbl d) (fun g =>
      let g := rows.foldl (fun g r => g.count (dmaCfmt d) (unpackBytes (sfW (dmaCfmt d) / 8) (r.map (·.1)))) g
      if bitOf d 52 then g.build (dmaCfmt d) else g)
  else s

/-- Rows cut to a number of bytes in all. -/
def takeRows (n : Nat) : List (List MByte) → List (List MByte)
  | [] => []
  | r :: l => r.take n :: takeRows (n - r.length) l

/-- Where a STOP transfer stops writing: past the first run of bytes of its first damaged block (R230). -/
def stopAt (d : Nat) (slots : List SlotRead) : Nat :=
  match firstDamage slots with
  | none => dmaRows d * dmaRlen d
  | some (i, _) =>
    let ca := (slots.getD i ⟨0, false, [], none⟩).ca
    let r := ((List.range (dmaRows d)).find? (fun r =>
      decide (dmaSrcRow d r < ca + 4096) && decide (ca < dmaSrcRow d r + dmaRlen d))).getD 0
    r * dmaRlen d + min (dmaRlen d) (ca + 4096 - dmaSrcRow d r)

/-- The transfer has ended: its record's counts, status and XINFO (R231). -/
def State.endXfer (s : State) (f : Xfer) (slots : List SlotRead) (code : Option Nat) (poison : Bool) : State :=
  let n := slots.countP (fun k => k.damage.isSome)
  let first := firstDamage slots
  let st := match first, code with
    | some (_, k), _ => k
    | none, some k => k
    | none, none => if poison then 0x2002 else 0
  let s := match first with
    | some (i, k) => s.reportXfer f k i (slots.getD i ⟨0, false, [], none⟩).ca
    | none => s
  s.modXfer f.id (fun f => { f with done := true, status := BitVec.ofNat 16 st, xinfo := min 0xFFFF ((first.map (·.1)).getD 0),
                                    counts := { f.counts with cmp := f.counts.cmp + n } })

/-- Store the rows of a transfer at their destinations, compressed by the table g or plain. -/
def State.dmaStore (s : State) (f : Xfer) (g : Grist) (rows : List (List MByte)) (hostOk : Bool) : Wrote :=
  let d := f.desc
  let rowsN := List.range (dmaRows d)
  if dmaCmp d then
    ((chunks 4096 (rows.flatMap id)).foldl (fun (a : Wrote × Nat) b =>
      let r := a.1.st.putBlock f.ctx (dmaTbl d) a.2 g b
      (a.1.join r, a.2 + 4096)) ({ st := s }, dmaDst d)).1
  else
    let full := slotFull (rowsN.map (fun r => (dmaDstRow d r, (rows.getD r []).length)))
    rowsN.foldl (fun (a : Wrote) r =>
      let k := a.st.putRowCa f.ctx (dmaDstRow d r) (rows.getD r []) full hostOk
      a.join k) { st := s }

/-- A finding is an uncorrectable word, or header, of a flit on the hub network (R264, R265). -/
def RasFinding.hubUe (x : RasFinding) : Bool := decide (2 ≤ x.badSymbols) && (match x.place with
  | .net _ | .netHeader _ => true
  | _ => false)

/-- Byte i of the data of a transfer of rows of n bytes was carried in a word of a hub flit that is uncorrectable, or asked for in a request of up
to 4 KiB whose flit was dropped for its header (R264, R265). -/
def netHit (found : List RasFinding) (n i : Nat) : Bool :=
  found.any (fun x => decide (2 ≤ x.badSymbols) && (match x.place with
    | .net o => o / 16 == i / 16
    | .netHeader o => o / n == i / n && o % n / 4096 == i % n / 4096
    | _ => false))

/-- Bytes i0 on of a transfer's data, those that the hub network damaged poisoned. -/
def netPoison (found : List RasFinding) (n i0 : Nat) (l : List MByte) : List MByte :=
  if found.isEmpty then l else (List.range l.length).map (fun j =>
    let b := l.getD j (0, false)
    (b.1, b.2 || netHit found n (i0 + j)))

/-- The context address lies in the ledger's data (R180). -/
def State.ledgerCa (s : State) (c ca : Nat) : Bool :=
  decide ((s.ctx c).dbase ≤ ca) && decide (ca < (s.ctx c).dbase + 65536 * (s.ctx c).slices)

/-- A transfer that reads a poisoned word of a ledger slice aborts its step (Table 10-6a). -/
def State.ledgerRead (s : State) (f : Xfer) (rows : List (List MByte)) : State :=
  let hit := (List.range rows.length).any (fun r =>
    let row := rows.getD r []
    (List.range row.length).any (fun j => (row.getD j (0, false)).2 && s.ledgerCa f.ctx (dmaSrcRow f.desc r + j)))
  if f.kind != .dmaFill && hit then s.requestAbort f.ctx 0x2002 (some f.step) (placeOf f.tile (streamOf f.stream)) true else s

/-- A transfer's requests reach memory: its tile's die reaches the hub (R304). -/
def State.reachesHub (s : State) (f : Xfer) : Bool := s.hubRoute (f.tile / 24) 0 != .cut

/-- Some request of a transfer fails: it touches a frame whose stack is out of service (R304). -/
def State.rowsCut (s : State) (c n : Nat) (rows : List Nat) : Bool :=
  rows.any (fun a => (granulePieces a n).any (fun p => s.caCut c p.1))

/-- A DMA transfer moves its data, or waits for a granule that a write of it must wait for. One whose requests fail ends with STATUS 0x2012,
the data of its failing reads poisoned and its failing writes dropped (R304; DEDUCED, log entry 107). -/
def State.dmaMove (s : State) (f : Xfer) (hostOk : Bool) (hostData : List Byte) (found : List RasFinding) : State :=
  let c := f.ctx
  let d := f.desc
  let n := dmaRlen d
  let rowsN := List.range (dmaRows d)
  if !s.reachesHub f then s.endXfer f [] (some 0x2012) false else
  let down := s.rowsCut c n ((if f.kind = .dmaFill then [] else rowsN.map (dmaSrcRow d)) ++ (if dmaLedg d then [] else rowsN.map (dmaDstRow d)))
  let blocks := if dmaLedg d then [] else rowsN.flatMap (fun r => s.writeBlocks c (dmaDstRow d r) n)
  if !blocks.isEmpty then blocks.foldl State.unblock s else
  let data := s.dmaData f hostOk hostData
  let rd := if f.kind = .dmaFill then [] else rowsN.map (dmaSrcRow d)
  let s := (rd.filter (s.isHost c ·)).foldl (fun s a =>
    if hostOk && s.hostPath c then s.send (.hostRead (s.ownerFn c) ((match s.translate c a with
      | .host b => b
      | _ => 0)) n) else s.hostFail c a) s
  let s := rd.foldl (fun s a => s.heatCa c a n) s
  let cut := cutRows n (rowsN.map (fun r =>
    min (if f.kind = .dmaFill then n else s.mappedLen c (dmaSrcRow d r) n)
        (if dmaLedg d then n else s.mappedLen c (dmaDstRow d r) n)))
  let len := min cut.1 (if bitOf d 49 then stopAt d data.2 else dmaRows d * n)
  let rows := (List.range (dmaRows d)).map (fun r => netPoison found n (r * n) ((takeRows len data.1).getD r []))
  let poison := rows.any (fun r => r.any (·.2))
  let s := s.ledgerRead f rows
  if dmaLedg d then
    if f.got ≠ 0 then s
    else
      let k : Contrib := { ctx := c, slice := dfield d 320 24, lid := s.ownLid, step := f.step, vals := s.ledgVals d data.1,
                           poison := poison, tile := some f.tile, xfer := some f.id }
      State.modXfer { s with contribs := s.contribs ++ [k] } f.id (fun f => { f with got := 1, status := if poison then 0x2002 else 0 })
  else
    let w := State.dmaStore (s.dmaHistogram f rows) f (s.table c (dmaTbl d)) rows hostOk
    let s := rowsN.foldl (fun s r => s.heatCa c (dmaDstRow d r) n) w.st
    let s := if w.guard then s.logXfer f 0x4016 0 else s
    if cut.2 then
      let r := cut.1 / n
      let at_ := (if s.mappedLen c (dmaDstRow d r) n ≤ cut.1 % n then dmaDstRow d r else dmaSrcRow d r) + cut.1 % n
      (s.reportXfer f 0x2004 0 at_).endXfer f data.2 (some 0x2004) poison
    else s.endXfer f data.2 (if down then some 0x2012 else w.code) poison

/-! ### The tile's DMA engine (R59, R65, R306) -/

/-- A transfer asks for the DMA engine: it has its tag, or needs none, and requests still to make. -/
def Xfer.asksDma (f : Xfer) : Bool := f.kind.isDma && (f.tag || f.kind == .dmaFill || f.released) && !f.done && decide (0 < f.left)

/-- The streams of tile t whose transfers ask for the DMA engine. -/
def State.dmaStreams (s : State) (t : Nat) : List Nat :=
  (List.range 3).filter (fun n => s.xfers.any (fun f => f.tile == t && f.stream == n && f.asksDma))

/-- The other streams that ask for it. -/
def State.dmaRivals (s : State) (t : Nat) (st : Stream) : List Nat := (s.dmaStreams t).filter (· != streamNo st)

/-- A transfer moves its data: the requests that it and the earlier ones of its stream had still to make have been granted. -/
def State.dmaRun (s : State) (id : Nat) (hostOk : Bool) (hostData : List Byte) (found : List RasFinding := []) : State :=
  match s.xfers.find? (fun f => f.id == id) with
  | some f =>
    let own (g : Xfer) : Xfer := if g.tile = f.tile ∧ g.stream = f.stream ∧ g.id ≤ id ∧ g.asksDma then { g with left := 0 } else g
    State.dmaMove { s with xfers := s.xfers.map own } f hostOk hostData found
  | none => s

/-! ### The rows -/

/-- Issue READ, WRITE or COPY. -/
def State.dmaIssue (s : State) (t : Nat) (st : Stream) (k : OpInfo) (kind : XKind) (w : Insn) : State :=
  s.issueDesc t st k w [k.op] (fun c o d x s =>
    match s.dmaCheck t c k.op d with
    | some f => { st := s, fl := x, fault := f }
    | none =>
      let r := s.issueXfer t c st x o kind d .tag
      { st := r.1, fl := r.2 })

/-- DMA.READ issues a transfer into scratch. -/
def execDmaRead (t : TileId) (st : Stream) (w : Insn) (s : State) : Host.Outcome State Fault Refusal :=
  .next (whenLive s (fun s => s.dmaIssue t.val st opDmaRead .dmaRead w))

/-- DMA.WRITE issues a transfer out of scratch, or a contribution to a ledger slice. -/
def execDmaWrite (t : TileId) (st : Stream) (w : Insn) (s : State) : Host.Outcome State Fault Refusal :=
  .next (whenLive s (fun s => s.dmaIssue t.val st opDmaWrite .dmaWrite w))

/-- DMA.COPY issues a transfer between any two context addresses. -/
def execDmaCopy (t : TileId) (st : Stream) (w : Insn) (s : State) : Host.Outcome State Fault Refusal :=
  .next (whenLive s (fun s => s.dmaIssue t.val st opDmaCopy .dmaCopy w))

/-- DMA.FILL writes OPC repeated, and completes when its bytes have landed; it is no tracked transaction (R73). Where a
granule makes its write wait, it waits (log entry 19). -/
def execDmaFill (t : TileId) (st : Stream) (w : Insn) (s : State) : Host.Outcome State Fault Refusal :=
  .next (whenLive s (fun s => s.issueDesc t.val st opDmaFill w [3] (fun c o d x s =>
    match s.dmaCheck t.val c 3 d with
    | some f => { st := s, fl := x, fault := f }
    | none =>
      let r := s.register t.val c st x o .dmaFill d
      let s := r.1.modXfer r.2 (fun f => { f with consumed := true, fill := w.opc.toNat })
      let s := if (s.dmaRivals t.val st).isEmpty then s.dmaRun r.2 true [] else s
      { st := s, fl := { x with wait := .xfer r.2, ran := some s.beat.now } })))

/-- DMA.WAIT consumes the transfer that its descriptor issued. -/
def execDmaWait (t : TileId) (st : Stream) (w : Insn) (s : State) : Host.Outcome State Fault Refusal :=
  .next (whenLive s (fun s => s.issueDesc t.val st opDmaWait w [0, 1, 2] (fun _ _ _ x s =>
    s.consumeAt t.val st x [.dmaRead, .dmaWrite, .dmaCopy])))

end Sys2Proof.Machine
end

