-- ==== Sys2Proof/Machine/Flits.lean ====
section
/-! DEFINITION. What goes over a link as bytes: flits (R317, R318), markers (R324) and verdicts (R326), their fields and checks, and the
sender's side of a port. -/

namespace Sys2Proof.Machine

/-! ### Flits (R317, Table 13-1) -/

end Sys2Proof.Machine

namespace Sys2Proof
open Machine

/-- FTYPE of a flit type. -/
def FlitType.code : FlitType → Nat
  | .data => 1
  | .ledger => 2
  | .mirror => 3
  | .scalar => 4
  | .control => 5
  | .idle => 6
  | .takeover => 7

end Sys2Proof

namespace Sys2Proof.Machine

/-- The flit type of FTYPE; none where it is reserved. -/
def flitTypeOf (n : Nat) : Option FlitType := [FlitType.data, .ledger, .mirror, .scalar, .control, .idle, .takeover].find? (fun f => f.code == n)

/-- The fields of a flit's header that its sender chooses (Table 13-1). -/
structure FlitHdr where
  ftype : FlitType
  poison : Bool := false
  first : Bool := true
  last : Bool := true
  cmp : Bool := false
  lseq : Nat := 0
  ctx : Nat := 0
  srcLid : Nat := 0
  tag : Nat := 0
  fidx : Nat := 0
deriving DecidableEq, Repr

/-- The header of a flit with n payload bytes: PLEN counts them in units of four. -/
def FlitHdr.word (h : FlitHdr) (n : Nat) : Nat :=
  h.ftype.code + b2n h.poison * 2 ^ 4 + b2n h.first * 2 ^ 5 + b2n h.last * 2 ^ 6 + b2n h.cmp * 2 ^ 7 + h.lseq % 4096 * 2 ^ 8 +
  h.ctx % 16 * 2 ^ 20 + h.srcLid % 16 * 2 ^ 24 + (n + 3) / 4 % 64 * 2 ^ 28 + h.tag % 256 * 2 ^ 34 + h.fidx % 2 ^ 22 * 2 ^ 42

/-- The bytes that a flit's CRC-32C covers: the header, and the payload filled with zeros to 244 bytes. -/
def flitBody (h : FlitHdr) (payload : List Byte) : List Byte :=
  toBytes 8 (h.word payload.length) ++ payload.take 244 ++ List.replicate (244 - payload.length) 0

/-- A flit of a header and a payload. -/
def mkFlit (h : FlitHdr) (payload : List Byte) (note : Carried) : Flit :=
  ⟨flitBody h payload ++ toBytes 4 (crc32c (flitBody h payload)), note⟩

end Sys2Proof.Machine

namespace Sys2Proof
open Machine

/-- The header of a flit as a number. -/
def Flit.word (f : Flit) : Nat := ofBytes (f.bytes.take 8)
/-- The flit is whole and its CRC holds (R318). -/
def Flit.crcOk (f : Flit) : Bool := f.bytes.length == 256 && ofBytes (f.bytes.drop 252) == crc32c (f.bytes.take 252)
def Flit.ftype (f : Flit) : Option FlitType := flitTypeOf (bits f.word 0 4)
def Flit.poison (f : Flit) : Bool := bitOf f.word 4
def Flit.first (f : Flit) : Bool := bitOf f.word 5
def Flit.last (f : Flit) : Bool := bitOf f.word 6
def Flit.cmp (f : Flit) : Bool := bitOf f.word 7
def Flit.lseq (f : Flit) : Nat := bits f.word 8 12
def Flit.ctx (f : Flit) : Nat := bits f.word 20 4
def Flit.srcLid (f : Flit) : Nat := bits f.word 24 4
def Flit.plen (f : Flit) : Nat := bits f.word 28 6
def Flit.tag (f : Flit) : Nat := bits f.word 34 8
def Flit.fidx (f : Flit) : Nat := bits f.word 42 22
/-- The valid payload of a flit. -/
def Flit.payload (f : Flit) : List Byte := (f.bytes.drop 8).take (min 244 (4 * f.plen))

/-- The LINK.SEND descriptor of a flit's transfer. -/
def Flit.desc (f : Flit) : Nat :=
  match f.note with
  | .send d _ => d
  | _ => 0
/-- The step that a flit's transfer or message belongs to. -/
def Flit.step (f : Flit) : Nat :=
  match f.note with
  | .send _ n | .sum _ n | .scalar n | .update n => n
  | _ => 0

end Sys2Proof

namespace Sys2Proof.Machine

/-- Whether two flits belong to one transfer. -/
def sameXfer (f g : Flit) : Bool := f.ftype == g.ftype && f.ctx == g.ctx && f.srcLid == g.srcLid && f.tag == g.tag

/-- The bytes of flits, each with its flit's POISON (R336). -/
def flitBytes (l : List Flit) : List MByte := l.flatMap (fun f => f.payload.map (fun b => (b, f.poison)))

/-! ### The sender's side of a port (R317, R318) -/

/-- Keep the last n entries of a list. -/
def lastN {α : Type} (n : Nat) (l : List α) : List α := l.drop (l.length - n)

/-- Hand a flit to port p: it takes the next LSEQ, stays in the replay buffer of 512, and is sent. -/
def State.putFlit (s : State) (p : Nat) (h : FlitHdr) (payload : List Byte) (note : Carried) : State :=
  let f := mkFlit { h with lseq := (s.port p).txSeq } payload note
  (s.modPort p (fun x => { x with txSeq := (x.txSeq + 1) % 4096, replay := lastN 512 (x.replay ++ [f]),
                                  sent := if x.sent + 1 = 2 ^ 24 then 0 else x.sent + 1,
                                  replays := if x.sent + 1 = 2 ^ 24 then 0 else x.replays })).send (.flit p f)

/-- Cut a transfer's bytes into flits of at most 244 bytes and hand them to port p; a flit with a poisoned byte is sent with
POISON set (R336). A transfer that is not whole sends no LAST flit. -/
def State.putTransfer (s : State) (p : Nat) (h : FlitHdr) (l : List MByte) (note : Carried) (whole : Bool := true) : State :=
  let n := max (b2n whole) ((l.length + 243) / 244)
  (List.range n).foldl (fun s i =>
    let b := (l.drop (244 * i)).take 244
    s.putFlit p { h with first := i == 0, last := whole && i + 1 == n, fidx := i, poison := b.any (·.2) } (b.map (·.1)) note) s

/-- Port p is not DOWN: it carries markers (R320, R324), and a flit handed to it while it trains waits in its replay buffer. -/
def State.linked (s : State) (p : Nat) : Bool := decide (p < 8) && decide (1 ≤ (s.port p).st)

/-- Send a CONTROL message of a context on port p. -/
def State.putControl (s : State) (p c : Nat) (payload : List Byte) (note : Carried) : State :=
  if s.linked p then s.putFlit p { ftype := .control, ctx := c, srcLid := s.board.lid } payload note else s

/-! ### Markers (R324, Table 13-2) -/

end Sys2Proof.Machine

namespace Sys2Proof
open Machine

/-- Bits 80 + 3c to 82 + 3c of a marker, for every context. -/
def Marker.ctxBits (m : Marker) : Nat :=
  (List.range 16).foldl (fun a c =>
    a + (b2n (bitOf m.openReady.toNat c) + 2 * b2n (bitOf m.commitReady.toNat c) + 4 * b2n (bitOf m.abortReq.toNat c)) * 2 ^ (3 * c)) 0

/-- Bytes 0 to 21 of a marker. -/
def Marker.body (m : Marker) : List Byte :=
  toBytes 22 (1 + m.srcLid % 16 * 2 ^ 4 + b2n m.master * 2 ^ 8 + b2n m.holdover * 2 ^ 9 + b2n m.fail * 2 ^ 10 + m.nextPeriod % 2 ^ 16 * 2 ^ 16 +
    m.tick % 2 ^ 48 * 2 ^ 32 + m.ctxBits * 2 ^ 80 + m.seen.toNat * 2 ^ 128 + m.epoch.toNat * 2 ^ 144)

/-- A marker's 24 bytes, the CRC-16 of R77 last. -/
def Marker.image (m : Marker) : List Byte := m.body ++ toBytes 2 (crc16 m.body)

end Sys2Proof

namespace Sys2Proof.Machine

/-- A marker's 24 bytes are whole, its CRC holds and MTYPE is 0x1. -/
def markerOk (l : List Byte) : Bool := l.length == 24 && ofBytes (l.drop 22) == crc16 (l.take 22) && bits (ofBytes l) 0 4 == 1

/-- One bit of every context in a marker's CTXBITS. -/
def ctxBit (w k : Nat) : BitVec 16 := BitVec.ofNat 16 ((List.range 16).foldl (fun a c => a + b2n (bitOf w (80 + 3 * c + k)) * 2 ^ c) 0)

/-- What a marker's bytes say. -/
def markerOfBytes (l : List Byte) : Marker :=
  let w := ofBytes l
  { srcLid := bits w 4 4, master := bitOf w 8, holdover := bitOf w 9, fail := bitOf w 10, nextPeriod := bits w 16 16, tick := bits w 32 48,
    openReady := ctxBit w 0, commitReady := ctxBit w 1, abortReq := ctxBit w 2, seen := BitVec.ofNat 9 (bits w 128 9),
    epoch := BitVec.ofNat 16 (bits w 144 16) }

/-! ### Verdicts (R326) -/

end Sys2Proof.Machine

namespace Sys2Proof
open Machine

/-- Bytes 0 to 13 of a verdict of the module with logical ID lid. -/
def Verdict.body (v : Verdict) (lid : Nat) : List Byte :=
  toBytes 14 (2 + lid % 16 * 2 ^ 4 + v.tick % 2 ^ 48 * 2 ^ 16 + v.openM.toNat * 2 ^ 64 + v.commitM.toNat * 2 ^ 80 + v.abortM.toNat * 2 ^ 96)

/-- A verdict's 16 bytes, the CRC-16 of R77 last. -/
def Verdict.image (v : Verdict) (lid : Nat) : List Byte := v.body lid ++ toBytes 2 (crc16 (v.body lid))

end Sys2Proof

namespace Sys2Proof.Machine

/-- A verdict's 16 bytes are whole, its CRC holds and MTYPE is 0x2. -/
def verdictOk (l : List Byte) : Bool := l.length == 16 && ofBytes (l.drop 14) == crc16 (l.take 14) && bits (ofBytes l) 0 4 == 2

/-- What a verdict's bytes say. TICK holds 48 bits. -/
def verdictOfBytes (l : List Byte) : Verdict :=
  let w := ofBytes l
  { tick := bits w 16 48, openM := BitVec.ofNat 16 (bits w 64 16), commitM := BitVec.ofNat 16 (bits w 80 16), abortM := BitVec.ofNat 16 (bits w 96 16) }

end Sys2Proof.Machine
end

