-- ==== Sys2Proof/Machine/Links.lean ====
section
/-! DEFINITION. Links (R315-R338): the link instructions and their checks, the flits that a send hands to its ports, replay,
refusal and resending, what a received flit does, and scalar reductions. -/

namespace Sys2Proof.Machine

/-! ### Descriptors (Table 13-3, R332, R333) -/

/-- KIND of a LINK.SEND is LEDGER. -/
def sendLedger (d : Nat) : Bool := dfield d 48 3 == 1
/-- DMASK as logical IDs. -/
def sendPeers (d : Nat) : List Nat := bitList 8 (dfield d 72 8)
/-- ROWS and RLEN of a send. -/
def sendRows (d : Nat) : Nat := dfield d 96 16
def sendRlen (d : Nat) : Nat := dfield d 128 32
/-- First byte of source row r of a send. -/
def sendRow (d r : Nat) : Nat := dfield d 160 48 + 32 * r * dfield d 224 32
/-- The scale arrays of a LEDGER send; its elements are read at SRC. -/
def sendScales (d : Nat) : Rows :=
  ⟨0, 0, 0, dfield d 56 4, dfield d 280 2, blockSize (dfield d 280 2) (dfield d 282 2), dfield d 288 32, dfield d 320 32,
   dfield d 352 16, sendRows d, sendRlen d * 8 / fmtWidth (dfield d 56 4)⟩

/-- ROWS and RLEN of a post. -/
def postRows (d : Nat) : Nat := dfield d 80 16
def postRlen (d : Nat) : Nat := dfield d 96 32
/-- First byte of destination row r of a post. -/
def postRow (d r : Nat) : Nat := dfield d 128 48 + 32 * r * dfield d 192 32
/-- SRCL and TAG of a post. -/
def postSrc (d : Nat) : Nat := dfield d 48 4
def postTag (d : Nat) : Nat := dfield d 64 8

/-- The largest ROWS × RLEN (R334): 512 MiB. -/
def linkMax : Nat := 0x20000000

/-- The body checks of a LINK.SEND (R334). -/
def sendBody (d : Nat) : Option DFault :=
  bodyFault (
    [(2, dfield d 16 2 != 1), (6, decide (1 < dfield d 48 3)), (6, sendLedger d && bitOf d 51),
     (7, sendLedger d && !scaleModeOk (dfield d 280 2) (dfield d 56 4)),
     (9, if sendLedger d then (sendPeers d).length != 1 else dfield d 48 3 == 0 && (sendPeers d).isEmpty),
     (10, decide (63 < dfield d 80 7) && dfield d 80 7 != 0x7F),
     (12, decide (linkMax < sendRows d * sendRlen d)), (16, sendRlen d == 0 || sendRlen d % 32 != 0)] ++
    rsvFields d [(52, 4), (60, 4), (70, 2), (87, 1), (112, 16), (208, 16), (284, 4), (368, 656)])

/-- The body checks of a LINK.RECV_POST. -/
def postBody (d : Nat) : Option DFault :=
  bodyFault (
    [(2, dfield d 16 2 != 0), (10, decide (linkMax < postRows d * postRlen d)), (12, postRlen d == 0 || postRlen d % 32 != 0)] ++
    rsvFields d [(53, 11), (72, 8), (176, 16), (224, 288)])

/-- The body checks of a LINK.SCALAR_REDUCE. -/
def scalarBody (d : Nat) : Option DFault :=
  bodyFault ([(2, dfield d 16 2 != 0), (6, dfield d 48 2 == 3)] ++ rsvFields d [(53, 11), (80, 48), (192, 320)])

/-- Whether a logical ID may be a peer of context c (Table 13-4): in LNK_PART, not failed. -/
def State.peerOk (s : State) (c l : Nat) : Bool := (s.participants c).contains l && !bitOf s.board.failed.toNat l

/-- Every check of a LINK.SEND after its header: body, peers, then the operands' reach. -/
def State.sendCheck (s : State) (t c d : Nat) : Option DFault :=
  match sendBody d with
  | some f => some f
  | none =>
    if (sendPeers d).any (fun l => l == s.ownLid || !s.peerOk c l) then some ⟨0x401C, 0⟩
    else
      let o := sendScales d
      firstFault ((List.range (sendRows d)).map (fun r => s.rowReach t c (sendRow d r) (sendRlen d)) ++
        (if sendLedger d then (o.rscExt ++ o.blkExt).map (fun e => s.rowReach t c (scratchBase + e.1) e.2) else []))

/-- Every check of a LINK.RECV_POST after its header. -/
def State.postCheck (s : State) (t c d : Nat) : Option DFault :=
  match postBody d with
  | some f => some f
  | none =>
    if postSrc d = s.ownLid ∨ !s.peerOk c (postSrc d) then some ⟨0x401C, 0⟩
    else match firstFault ((List.range (postRows d)).map (fun r => s.rowWrite t c (postRow d r) (postRlen d))) with
      | some f => some f
      | none =>
        if s.xfers.any (fun f => f.kind == .recvPost && f.ctx == c && !f.consumed && postSrc f.desc == postSrc d && postTag f.desc == postTag d)
        then some ⟨0x401A, 0⟩ else none

/-- Values of a SCALAR_REDUCE, and its PMASK as logical IDs. -/
def scalarCount (d : Nat) : Nat := dfield d 50 3 + 1
def scalarPeers (d : Nat) : List Nat := bitList 8 (dfield d 64 8)

/-- Every check of a LINK.SCALAR_REDUCE after its header. -/
def State.scalarCheck (s : State) (t c d : Nat) : Option DFault :=
  match scalarBody d with
  | some f => some f
  | none =>
    if !(scalarPeers d).contains s.ownLid || (scalarPeers d).any (fun l => !s.peerOk c l) then some ⟨0x401C, 0⟩
    else firstFault [s.rowReach t c (scratchBase + 32 * dfield d 128 32) (4 * scalarCount d),
                     s.rowWrite t c (scratchBase + 32 * dfield d 160 32) (4 * scalarCount d)]

/-! ### Replay (R318) -/

/-- LINK_NAK: every flit from that sequence number on is sent again, in order, out of the replay buffer; too many replays
retrain the port (R318). -/
def doLinkNak (p lseq : Nat) (s : State) : State :=
  if (s.port p).st < 2 then s else
  let again := (s.port p).replay.dropWhile (fun f => f.lseq != lseq)
  if again.isEmpty then s else
  let s := again.foldl (fun s f => s.send (.flit p f)) s
  let s := s.modPort p (fun x => { x with crcRetry := satAdd (2 ^ 32 - 1) x.crcRetry 1, replays := x.replays + 1 })
  if bits (s.lnkPcfg p) 16 16 < (s.port p).replays then
    s.modPort p (fun x => { x with st := 1, replays := 0, sent := 0, retrain := satAdd 0xFFFF x.retrain 1 })
  else s

/-- LINK_NAK. -/
def execLinkNak (p : PortId) (lseq : Nat) (s : State) : Host.Outcome State Fault Refusal :=
  .next (whenLive s (doLinkNak p.val lseq))

/-! ### Sending (R331, R335-R337) -/

/-- Bytes padded with zeros to a multiple of 32. -/
def padBytes (l : List MByte) : List MByte := l ++ List.replicate ((32 - l.length % 32) % 32) (0, false)

/-- Bytes of scratch with their poison. -/
def State.scratchBytes (s : State) (e : Nat × Nat) : List MByte :=
  (List.range e.2).map (fun i => (memRead s.mem (e.1 + i), s.poisoned (e.1 + i) 1))

/-- A row that a send reads: bytes as stored, for the link transmit path does not expand (R220); a host region's bytes come
with the completion, poisoned where it failed (R364). -/
def State.sendRowBytes (s : State) (c d r : Nat) (hostOk : Bool) (hostData : List Byte) : List MByte :=
  (List.range (sendRlen d)).map (fun j =>
    if s.isHost c (sendRow d r + j) then
      (if hostOk && s.hostPath c then (hostData.getD (r * sendRlen d + j) 0, false) else (0, true))
    else s.readByte c [] (sendRow d r + j))

/-- The payload of a send (R331, R232), of the first `len` bytes of its rows: a LEDGER send carries row scales and block codes ahead of its
elements, each array padded to 32 bytes (log entry 20); with CMP the data are packed blocks, and a poisoned block is sent poisoned. -/
def State.sendPayload (s : State) (c d len : Nat) (hostOk : Bool) (hostData : List Byte) : List MByte :=
  let rows := ((List.range (sendRows d)).flatMap (fun r => s.sendRowBytes c d r hostOk hostData)).take len
  if sendLedger d then
    ((sendScales d).rscExt ++ (sendScales d).blkExt).flatMap (fun e => padBytes (s.scratchBytes e)) ++ rows
  else if bitOf d 51 then
    (chunks 4096 rows).flatMap (fun b =>
      (packStream (s.table c (dfield d 64 6)) (dfield d 64 6) (b.map (·.1))).map (fun x => (x, b.any (·.2))))
  else rows

/-- The header of a send's flits. -/
def State.sendHeader (s : State) (c d : Nat) : FlitHdr :=
  { ftype := if sendLedger d then .ledger else .data, cmp := bitOf d 51, ctx := c, srcLid := s.board.lid, tag := if sendLedger d then 0 else dfield d 88 8 }

/-- A send's requests of up to 4 KiB to a link (R259). -/
def sendReqs (d : Nat) : Nat := sendRows d * ceilDiv (sendRlen d) 4096

/-- Data positions of a beat at port p (R316); at half width there are half as many. -/
def State.dataPositions (s : State) (p : Nat) : Nat := s.beat.periodEff * 1281738 / 1000000 / (if (s.port p).st = 3 then 2 else 1)

/-- START, the end, CTX and VALID of a slot entry (Table 13-6). -/
def slotStart (w : Nat) : Nat := bits w 0 17
def slotEnd (w : Nat) : Nat := bits w 0 17 + bits w 17 17
def slotCtx (w : Nat) : Nat := bits w 34 4
def slotValid (w : Nat) : Bool := bitOf w 38

/-- Slot k of port p has a data position of its own: where entries overlap the lower index holds the positions (R330). -/
def State.slotHolds (s : State) (p k : Nat) : Bool :=
  let w := s.lnkSlot p k
  let low := ((List.range k).map (s.lnkSlot p)).filter slotValid
  slotValid w && (slotStart w :: low.map slotEnd).any (fun x =>
    decide (slotStart w ≤ x) && decide (x < min (slotEnd w) (s.dataPositions p)) &&
    low.all (fun v => !(decide (slotStart v ≤ x) && decide (x < slotEnd v))))

/-- Logical IDs as a mask. -/
def lidMask (l : List Nat) : Nat := l.foldl (fun a i => a ||| 2 ^ i) 0

/-- A send may use port p (R330): the port runs, its slot is a valid entry of its context, or it is unslotted, and no earlier send of the slot,
by clk of issue and then by tile, has flits to send there. -/
def State.sendTurn (s : State) (f : Xfer) (p : Nat) : Bool :=
  let k := dfield f.desc 80 7
  decide (2 ≤ (s.port p).st) && (k == 0x7F || slotCtx (s.lnkSlot p k) == f.ctx && s.slotHolds p k) &&
  s.xfers.all (fun g => !(g.kind == .linkSend && g.tag && !g.done && dfield g.desc 80 7 == k && (k == 0x7F || g.ctx == f.ctx) &&
    decide (g.clk < f.clk ∨ g.clk = f.clk ∧ (g.tile < f.tile ∨ g.tile = f.tile ∧ g.id < f.id)) &&
    (sendPeers g.desc).any (fun l => s.portOfLid l == p && !bitOf g.got l)))

/-- A send's transfer moves (R46): its flits go to the port of every peer that lacks them and where it has its turn; once every peer has them the
transfer completes when every flit is acknowledged, and its flits leave the replay buffers. `got` holds the peers that have
been sent to. While it is out it holds the request tags it found free, one at least, and waits while there is none (R259, R261). Up to the
first byte of a region unmapped meanwhile its data go (R497). -/
def State.linkMove (s : State) (f : Xfer) (hostOk : Bool) (hostData : List Byte) (found : List RasFinding) : State :=
  let d := f.desc
  let c := f.ctx
  let n := sendRlen d
  let left := (sendPeers d).filter (fun l => !bitOf f.got l)
  let todo := left.filter (fun l => s.sendTurn f (s.portOfLid l))
  let room := min s.sharedFree (s.ctxRoom c)
  if !s.reachesHub f then s.modXfer f.id (fun f => { f with done := true, status := 0x2012 })
  else if left.isEmpty then
    let drop (x : LPort) : LPort := { x with replay := x.replay.filter (fun g => !(g.ctx == c && g.note == .send d f.step)) }
    ((sendPeers d).foldl (fun s l => s.modPort (s.portOfLid l) drop) s).modXfer f.id (fun f => { f with done := true })
  else if todo.isEmpty then s
  else if f.req = 0 ∧ room = 0 then
    (if f.reqWait then s else (s.modXfer f.id (fun f => { f with reqWait := true })).countWait)
  else
    let rows := (List.range (sendRows d)).map (sendRow d)
    let cut := cutRows n (rows.map (fun a => s.mappedLen c a n))
    let s := (rows.filter (s.isHost c ·)).foldl (fun s a =>
      if hostOk && s.hostPath c then s.send (.hostRead (s.ownerFn c) ((match s.translate c a with
        | .host b => b
        | _ => 0)) n) else s.hostFail c a) s
    let s := rows.foldl (fun s a => s.heatCa c a n) s
    let l := netPoison found n 0 (s.sendPayload c d cut.1 hostOk hostData)
    let s := todo.foldl (fun s i => s.putTransfer (s.portOfLid i) (s.sendHeader c d) l (.send d f.step) !cut.2) s
    let st : BitVec 16 := if cut.2 then 0x2004 else if l.any (·.2) then 0x2002 else f.status
    let s := if cut.2 then s.reportXfer f 0x2004 0 (rows.getD (cut.1 / n) 0 + cut.1 % n) else s
    (s.modXfer f.id (fun f => { f with got := f.got ||| lidMask todo, req := if f.req = 0 then min room (sendReqs d) else f.req, reqWait := false,
                                       status := st, done := cut.2 })).markHigh

/-- NOT_POSTED: the peer behind port p had no post for the tag; the send's flits go to it again, from the first (R335). -/
def doNotPosted (p tag : Nat) (s : State) : State :=
  match s.xfers.find? (fun f => f.kind == .linkSend && !f.done && !sendLedger f.desc && dfield f.desc 88 8 == tag &&
      (sendPeers f.desc).any (fun l => s.portOfLid l == p && bitOf f.got l)) with
  | none => s
  | some f => s.modXfer f.id (fun f =>
      { f with resends := f.resends + 1, got := (sendPeers f.desc).foldl (fun g l => if s.portOfLid l = p then setBits g l 1 0 else g) f.got })

/-- NOT_POSTED. -/
def execNotPosted (p : PortId) (tag : Nat) (s : State) : Host.Outcome State Fault Refusal :=
  .next (whenLive s (doNotPosted p.val tag))

/-! ### The link rows -/

/-- LINK.SEND issues a DATA or LEDGER transfer. -/
def execLinkSend (t : TileId) (st : Stream) (w : Insn) (s : State) : Host.Outcome State Fault Refusal :=
  .next (whenLive s (fun s => s.issueDesc t.val st opLinkSend w [0] (fun c o d x s =>
    match s.sendCheck t.val c d with
    | some f => { st := s, fl := x, fault := some f }
    | none =>
      let r := s.issueXfer t.val c st x o .linkSend d .tag
      { st := r.1, fl := r.2 })))

/-- LINK.RECV_POST posts a receive. -/
def execRecvPost (t : TileId) (st : Stream) (w : Insn) (s : State) : Host.Outcome State Fault Refusal :=
  .next (whenLive s (fun s => s.issueDesc t.val st opRecvPost w [1] (fun c o d x s =>
    match s.postCheck t.val c d with
    | some f => { st := s, fl := x, fault := some f }
    | none =>
      let r := s.issueXfer t.val c st x o .recvPost d .tag
      { st := r.1, fl := r.2 })))

/-- LINK.WAIT consumes the link transfer that its descriptor issued. -/
def execLinkWait (t : TileId) (st : Stream) (w : Insn) (s : State) : Host.Outcome State Fault Refusal :=
  .next (whenLive s (fun s => s.issueDesc t.val st opLinkWait w [0, 1] (fun _ _ _ x s =>
    s.consumeAt t.val st x [.linkSend, .recvPost])))

/-- The element-by-element combination of SCALAR_REDUCE, in ascending logical ID, each SUM addition rounded to FP32. -/
def scalarCombine (op n : Nat) (l : List (List F32)) : List F32 :=
  (List.range n).map (fun i =>
    match l.map (fun v => (v.getD i 0).toNat) with
    | [] => 0
    | x :: r => BitVec.ofNat 32 (r.foldl (if op = 0 then fadd else if op = 1 then fmax else fmin) x))

/-- The message of a logical ID for a tag. -/
def State.scalarOf (s : State) (c l tag : Nat) : Option Scalar := s.board.scalars.find? (fun m => m.ctx == c && m.lid == l && m.tag == tag)

/-- Complete a reduction whose messages are all there: combine, write at DST, drop the messages. -/
def State.scalarTry (s : State) (c d : Nat) : Option State :=
  let tag := dfield d 72 8
  let l := (scalarPeers d).filterMap (fun i => s.scalarOf c i tag)
  if l.length = (scalarPeers d).length then
    let s := s.wrClk (32 * dfield d 160 32) ((scalarCombine (dfield d 48 2) (scalarCount d) (l.map (·.vals))).flatMap (fun v => toBytes 4 v.toNat))
    some { s with board := { s.board with scalars := s.board.scalars.filter (fun m => !(m.ctx == c && m.tag == tag)) } }
  else none

/-- A reduction's own message goes to every other peer as a SCALAR flit, and to the module's list; it ends at once where the last message
awaited is its own. -/
def State.reduceRun (s : State) (t c : Nat) (st : Stream) (d : Nat) (x : InFlight) : Ran :=
  let a := 32 * dfield d 128 32
  let tag := dfield d 72 8
  let vals : List F32 := (List.range (scalarCount d)).map (fun i => BitVec.ofNat 32 (s.word32 (a + 4 * i)))
  let p := if s.poisoned a (4 * scalarCount d) then s.metPoison t c st x else (s, x)
  let h : FlitHdr := { ftype := .scalar, ctx := c, srcLid := p.1.board.lid, tag := tag }
  let s := ((scalarPeers d).filter (fun l => l != p.1.ownLid && p.1.linked (p.1.portOfLid l))).foldl (fun s l =>
    s.putFlit (s.portOfLid l) h (vals.flatMap (fun v => toBytes 4 v.toNat)) (.scalar x.step)) p.1
  let s := { s with board := { s.board with scalars := s.board.scalars ++ [Scalar.mk c s.ownLid tag x.step vals] } }
  match s.scalarTry c d with
  | some s' => { st := s', fl := { p.2 with ran := some s.beat.now } }
  | none => { st := s, fl := { p.2 with wait := .reduce tag } }

/-- SCALAR_REDUCE. -/
def execScalarReduce (t : TileId) (st : Stream) (w : Insn) (s : State) : Host.Outcome State Fault Refusal :=
  .next (whenLive s (fun s => s.issueDesc t.val st opScalarReduce w [3] (fun c _ d x s =>
    match s.scalarCheck t.val c d with
    | some f => { st := s, fl := x, fault := some f }
    | none => s.reduceRun t.val c st d x)))

/-- The peer's logical ID behind port p (LNK_REMAP), or none. -/
def State.lidOfPort (s : State) (p : Nat) : Option Nat := (List.range 8).find? (fun l => s.portOfLid l == p)

/-- The first U stream of context c that waits for a reduction of a tag. -/
def State.reduceWaiter (s : State) (c tag : Nat) : Option (Nat × InFlight) :=
  (s.ctxTiles c).findSome? (fun t => ((s.tile t).seqU.inflight.find? (fun x => x.wait == .reduce tag)).map (fun x => (t, x)))

/-- SCALAR_RECEIVE: a peer's message is held, up to 64 for a context and peer, and the reduction completes if it was the last
one awaited. -/
def doScalarReceive (p c tag step : Nat) (vals : List F32) (s : State) : State :=
  match s.lidOfPort p with
  | none => s
  | some l =>
    if (s.port p).st < 2 ∨ 64 ≤ s.board.scalars.countP (fun m => m.ctx == c && m.lid == l) then s else
    let s := { s with board := { s.board with scalars := s.board.scalars ++ [Scalar.mk c l tag step vals] } }
    match s.reduceWaiter c tag with
    | none => s
    | some (t, x) =>
      match s.scalarTry c x.desc with
      | some s' => s'.modSeq t .U (fun q => q.modFl x.seq (fun y => { y with wait := .none }))
      | none => s

/-- SCALAR_RECEIVE. -/
def execScalarReceive (p : PortId) (c : CtxId) (tag : Nat) (m : ScalarVals) (s : State) : Host.Outcome State Fault Refusal :=
  .next (whenLive s (doScalarReceive p.val c.val tag m.step m.vals))

/-! ### Receiving (R318, R332, R335-R337) -/

/-- The post that a DATA flit matches: sender, context and TAG, not yet filled. -/
def State.postFor (s : State) (f : Flit) : Option Xfer :=
  s.xfers.find? (fun x => x.kind == .recvPost && x.tag && !x.done && x.got == 0 && x.ctx == f.ctx &&
    postSrc x.desc == f.srcLid && postTag x.desc == f.tag)

/-- Decode the packed blocks of a received stream (R229, R230, R232), in which no block is PLAIN; a block that arrives poisoned is damaged with
0x2002. -/
def unpackPoison (tables : Nat → Grist) (fuel : Nat) (l : List MByte) (left : Nat) : List Byte × List (Option Nat) :=
  match fuel with
  | 0 => ([], [])
  | k + 1 =>
    if left = 0 then ([], [])
    else
      let h := ofBytes ((l.take 8).map (·.1))
      let n := 8 + hLen h * 32
      let r := if (l.take n).any (·.2) then (damageFill h false, some 0x2002) else decodeBlock tables false h ((l.drop 8).map (·.1))
      let want := min left 4096
      if r.2 = some 0x3006 ∨ l.length < 8 then (List.replicate left 0xFF, List.replicate (ceilDiv left 4096) (some 0x3006))
      else
        let rest := unpackPoison tables k (l.drop n) (left - want)
        ((r.1 ++ List.replicate (want - r.1.length) 0).take want ++ rest.1, r.2 :: rest.2)

/-- Store the rows that a post received. -/
def State.postStore (s : State) (f : Xfer) (data : List (List MByte)) : Wrote :=
  let d := f.desc
  let rows := List.range (postRows d)
  let full := slotFull (rows.map (fun r => (postRow d r, (data.getD r []).length)))
  rows.foldl (fun (a : Wrote) r =>
    let k := a.st.putRowCa f.ctx (postRow d r) (data.getD r []) full true
    a.join k) { st := s }

/-- A post's transfer lands once the whole send has arrived (R332): expanded, and written row by row, unless a granule makes
it wait, or no tag is left to the link dies' requests (R260, R261). -/
def State.postMove (s : State) (f : Xfer) (found : List RasFinding) : State :=
  if f.got = 0 then s
  else if s.linkTagRoom = 0 then (if f.reqWait then s else (s.modXfer f.id (fun f => { f with reqWait := true })).countWait)
  else
  let d := f.desc
  let c := f.ctx
  let n := postRlen d
  let size := postRows d * n
  let rows := List.range (postRows d)
  let blocks := rows.flatMap (fun r => s.writeBlocks c (postRow d r) n)
  if !blocks.isEmpty then blocks.foldl State.unblock s else
  let p := (s.lidOfPort · == some (postSrc d))
  let port := ((List.range 8).find? p).getD 8
  let mine (g : Flit) : Bool := g.ftype == some .data && g.ctx == c && g.srcLid == postSrc d && g.tag == postTag d
  let fl := (s.port port).rx.filter mine
  let s := s.modPort port (fun x => { x with rx := x.rx.filter (fun g => !mine g) })
  let raw := flitBytes fl
  let r : List MByte × List (Option Nat) := if fl.any (·.cmp) then
      let u := unpackPoison (s.table c) (size / 4096 + 1) raw size
      (u.1.map (fun b => (b, false)), u.2)
    else (raw, [])
  let slots : List SlotRead := (List.range r.2.length).map (fun i =>
    ⟨postRow d (4096 * i / n) + 4096 * i % n, true, [], r.2.getD i none⟩)
  let stop := if bitOf d 52 then (match firstDamage slots with
    | some (i, _) => min size (4096 * (i + 1))
    | none => size) else size
  let cut := cutRows n (rows.map (fun r => s.mappedLen c (postRow d r) n))
  let data := takeRows (min cut.1 stop) (chunks n (netPoison found n 0 r.1))
  let w := s.postStore f data
  let s := rows.foldl (fun s r => s.heatCa c (postRow d r) n) w.st
  let s := if w.guard then s.logXfer f 0x4016 0 else s
  let poison := data.any (fun r => r.any (·.2))
  if cut.2 then (s.reportXfer f 0x2004 0 (postRow d (cut.1 / n) + cut.1 % n)).endXfer f slots (some 0x2004) poison
  else s.endXfer f slots w.code poison

/-- The contribution that LEDGER flits carry (R331, R337): the scales ahead of the elements, converted to FP32. -/
def State.ledgerOf (s : State) (l : List Flit) (d : Nat) : List F32 :=
  let o := sendScales d
  let pad (n : Nat) : Nat := (n + 31) / 32 * 32
  let nr := (o.rscExt.map (fun e => pad e.2)).foldl (· + ·) 0
  let nb := (o.blkExt.map (fun e => pad e.2)).foldl (· + ·) 0
  let raw := (flitBytes l).map (·.1)
  let rowB := if o.rows = 0 then 0 else nb / o.rows
  let k : Rows := { o with rsc := 0, blk := nr / 32, bstr := rowB / 32 }
  let tmp : State := { s with mem := memWriteList [] 0 (raw.take (nr + nb)), poison := [] }
  let w := fmtWidth o.fmt
  (List.range o.rows).flatMap (fun r =>
    let x := ofBytes ((raw.drop (nr + nb + r * sendRlen d)).take (sendRlen d))
    (List.range o.cols).map (fun j => BitVec.ofNat 32 (tmp.vcOfCode k r j (bits x (w * j) w)).1))

/-- A flit of a transfer joins the port's list; a first flit discards what an earlier attempt left. -/
def State.keepFlit (s : State) (p : Nat) (f : Flit) : State :=
  s.modPort p (fun x => { x with rx := (if f.first then x.rx.filter (fun g => !sameXfer g f) else x.rx) ++ [f] })

/-- A DATA flit (R332, R335): refused where its first flit finds no post; the last one makes the post whole, or faults the
poster with 0x401B where the sizes differ. -/
def State.dataFlit (s : State) (p : Nat) (f : Flit) : State :=
  match s.postFor f with
  | none =>
    if f.first then
      (s.modPort p (fun x => { x with notPosted := satAdd 0xFFFF x.notPosted 1 })).send (.notPosted p f.tag)
    else s
  | some x =>
    if !f.first && !(s.port p).rx.any (fun g => sameXfer g f) then s else
    let s := s.keepFlit p f
    if !f.last then s
    else if sendRows f.desc * sendRlen f.desc = postRows x.desc * postRlen x.desc then s.modXfer x.id (fun x => { x with got := 1 })
    else
      let s := s.modPort p (fun y => { y with rx := y.rx.filter (fun g => !sameXfer g f) })
      let s := s.modXfer x.id (fun x => { x with done := true, status := 0x401B })
      s.progFault x.tile (streamOf x.stream) { seq := x.seq, pc := x.pc, step := x.step } 0x401B 0 0

/-- A LEDGER flit: the last one makes a contribution for the combiner (R337). -/
def State.ledgerFlit (s : State) (p : Nat) (f : Flit) : State :=
  if !f.first && !(s.port p).rx.any (fun g => sameXfer g f) then s else
  let s := s.keepFlit p f
  if !f.last then s
  else
    let l := (s.port p).rx.filter (fun g => sameXfer g f)
    let s := s.modPort p (fun x => { x with rx := x.rx.filter (fun g => !sameXfer g f) })
    let k : Contrib := { ctx := f.ctx, slice := dfield f.desc 256 24, lid := f.srcLid, step := f.step,
                         vals := s.ledgerOf l f.desc, poison := l.any (·.poison) }
    { s with contribs := s.contribs ++ [k] }

/-- A CONTROL flit that brings a remap (R323, R343) or tells the module to set FAIL (R396). The layout of a remap's payload is the model's
(DESIGN CHOICE, log entry 20). Other CONTROL messages have rows of their own. -/
def State.controlFlit (s : State) (f : Flit) : State :=
  match f.note with
  | .remap =>
    if s.standalone then s
    else { s with board := { s.board with
      remapAt := some (ofBytes (f.payload.take 8), ((f.payload.drop 8).take 8).map (·.toNat), ofBytes ((f.payload.drop 16).take 4)) } }
  | .setFail => { s with board := { s.board with fail := true } }
  | _ => s

/-- A TAKEOVER flit: its bytes land on the module that takes the logical ID over, and the last one of a transfer counts in PROGRESS (R343,
R349). -/
def State.takeoverFlit (s : State) (f : Flit) : State :=
  let s := match f.note with
    | .record ca =>
      if s.board.phase = 3 ∧ s.board.lid = s.board.flid then
        (if f.poison then s.wrCa f.ctx (ca + 244 * f.fidx) f.payload true else s.wrEngine f.ctx (ca + 244 * f.fidx) f.payload)
      else s
    | _ => s
  if f.last then { s with board := { s.board with progress := (s.board.progress + 1) % 2 ^ 32 } } else s

/-- FLIT_RECEIVE: a flit whose CRC fails is NAKed; one that is not the next in order is dropped; the others are delivered by
type. SCALAR and MIRROR messages have rows of their own once they are whole. -/
def doFlitReceive (p : Nat) (f : Flit) (s : State) : State :=
  if (s.port p).st < 2 then s
  else if !f.crcOk then s.send (.nak p (s.port p).rxSeq)
  else if f.lseq ≠ (s.port p).rxSeq then s
  else
    let s := s.modPort p (fun x => { x with rxSeq := (x.rxSeq + 1) % 4096 })
    match f.ftype with
    | some .data => s.dataFlit p f
    | some .ledger => s.ledgerFlit p f
    | some .control => s.controlFlit f
    | some .takeover => s.takeoverFlit f
    | _ => s

/-- FLIT_RECEIVE. -/
def execFlitReceive (p : PortId) (f : Flit) (s : State) : Host.Outcome State Fault Refusal :=
  .next (whenLive s (doFlitReceive p.val f))

end Sys2Proof.Machine
end

