-- ==== Sys2Proof/Machine/Matrix.lean ====
section
/-! DEFINITION. The matrix engine (R90-R107): the checks of an MM descriptor, the products of one instruction in their
fixed order, invalid operations, and the exception locator. The instructions stand in Machine/Engines.lean. -/

namespace Sys2Proof.Machine

/-! ### The MM descriptor (Table 04-3) -/

/-- BANK. -/
def mmBank (d : Nat) : Nat := dfield d 50 1
/-- M. -/
def mmM (d : Nat) : Nat := dfield d 64 8
/-- N. -/
def mmN (d : Nat) : Nat := dfield d 72 8
/-- K. -/
def mmK (d : Nat) : Nat := dfield d 80 24
/-- FMTA. -/
def mmFa (d : Nat) : Nat := dfield d 104 4
/-- FMTB. -/
def mmFb (d : Nat) : Nat := dfield d 108 4

/-- Operand A in scratch (Table 04-2). -/
def mmA (d : Nat) : Rows :=
  let t := bitOf d 48
  ⟨dfield d 128 32, dfield d 192 32, dfield d 512 16, mmFa d, dfield d 112 2, blockSize (dfield d 112 2) (dfield d 116 2),
   dfield d 256 32, dfield d 320 32, dfield d 384 16, if t then mmK d else mmM d, if t then mmM d else mmK d⟩
/-- Operand B in scratch. -/
def mmB (d : Nat) : Rows :=
  let t := bitOf d 49
  ⟨dfield d 160 32, dfield d 224 32, dfield d 528 16, mmFb d, dfield d 114 2, blockSize (dfield d 114 2) (dfield d 118 2),
   dfield d 288 32, dfield d 352 32, dfield d 400 16, if t then mmN d else mmK d, if t then mmK d else mmN d⟩

/-- A floating-point format of Table 04-1. -/
def mmFloat (f : Nat) : Bool := decide (1 ≤ f) && decide (f ≤ 7)
/-- An integer format of Table 04-1. -/
def mmInt (f : Nat) : Bool := decide (8 ≤ f) && decide (f ≤ 0xA)
/-- KB of a format (Table 04-1). -/
def mmKb (f : Nat) : Nat := if f = 1 ∨ f = 2 then 64 else if f = 3 ∨ f = 4 ∨ f = 8 ∨ f = 0xA then 128 else 256
/-- The instruction accumulates in INT32 (R92). -/
def mmIntAcc (d : Nat) : Bool := mmInt (mmFa d) && mmInt (mmFb d) && dfield d 112 4 == 0

/-- The body checks of an MM descriptor (R92, R99, R113, R121). -/
def mmBody (d : Nat) (drain : Bool) : Option DFault :=
  bodyFault (
    [(2, decide (2 ≤ dfield d 16 2)), (6, !drain && dfield d 52 2 != 0),
     (8, mmM d == 0 || decide (128 < mmM d)), (9, mmN d == 0 || decide (128 < mmN d)),
     (10, mmK d == 0 || decide (0x200000 < mmK d)),
     (13, !(mmFloat (mmFa d) && mmFloat (mmFb d) || mmInt (mmFa d) && mmInt (mmFb d))),
     (14, !scaleModeOk (dfield d 112 2) (mmFa d) || !scaleModeOk (dfield d 114 2) (mmFb d)),
     (64, decide (4095 < dfield d 512 16)), (66, decide (4095 < dfield d 528 16))] ++
    rsvFields d [(54, 10), (120, 8), (416, 96), (544, 480)])

/-! ### Products and chunks (R93, R95, R105) -/

/-- A subnormal BF16 or FP16 operand is taken as zero of its sign (R131). -/
def mmSub (fmt code : Nat) : Bool :=
  if fmt = 1 then bits code 7 8 == 0 && bits code 0 7 != 0
  else if fmt = 2 then bits code 10 5 == 0 && bits code 0 10 != 0 else false

/-- An element of an operand and its factor, as the ME reads them. -/
def State.meElem (s : State) (o : Rows) (r j : Nat) : Val × Val :=
  let code := s.elemCode o r j
  let v := if mmSub o.fmt code then .fin (bitOf code (fmtWidth o.fmt - 1)) 0 0 else o.decode code
  let rs := s.rowScale o r
  let rv := if isSub32 rs then .fin (bitOf rs 31) 0 0 else v32 rs
  (v, s.factor o rv r (o.col0 + j))

/-- One product with its scale factors. -/
inductive Term where
  | nan
  | invalid          -- zero × infinity
  | val (v : Val)
deriving DecidableEq, Repr

/-- The product of two elements and their factors (R105). A NaN among the four makes it a NaN and no invalid operation, a zero and an
infinity beside it or not (DESIGN CHOICE, log entry 94). -/
def mkTerm (a b : Val × Val) : Term :=
  let l := [a.1, a.2, b.1, b.2]
  if l.any (·.isNan) then .nan
  else if l.any (fun v => !v.isFin) && l.any (·.isZero) then .invalid
  else .val ((a.1.mul a.2).mul (b.1.mul b.2))

/-- A chunk's sum: its FP32 code, whether it was flushed, and the kinds of the invalid operations met, each product's its own (R107). -/
structure ChunkSum where
  code : Nat
  flushed : Bool := false
  kinds : List Nat := []
deriving DecidableEq, Repr

/-- Sum a chunk exactly and round once (R93). -/
def sumChunk (l : List Term) : ChunkSum :=
  let vals := l.filterMap (fun t => match t with
    | .val v => some v
    | _ => none)
  let k0 := l.contains .invalid
  let k1 := vals.contains (.inf false) && vals.contains (.inf true)
  let kinds := List.replicate (l.count .invalid) 0 ++ (if k1 then [1] else [])
  if k0 || k1 || l.contains .nan then ⟨0x7FC00000, false, kinds⟩
  else
    match vals with
    | [] => ⟨0, false, []⟩
    | v :: r =>
      let x := r32Flush (r.foldl Val.add v)
      ⟨x.1, x.2, []⟩

/-- What one output element came to. -/
structure ElemOut where
  code : Nat
  flushed : Bool := false
  clamped : Bool := false
  events : List (Nat × Nat) := []    -- (chunk, kind)
deriving DecidableEq, Repr

/-- Add a chunk sum to the accumulator element; none is no starting value (R93, R105). -/
def addChunk (a : Option ElemOut) (c : Nat) (x : ChunkSum) : ElemOut :=
  let ev := x.kinds.map (fun k => (c, k))
  match a with
  | none => ⟨x.code, x.flushed, false, ev⟩
  | some e =>
    let u := v32 e.code
    let w := v32 x.code
    let opp := !u.isNan && !w.isNan && (u.add w).isNan
    let y := r32Flush (u.add w)
    ⟨y.1, e.flushed || x.flushed || y.2, false, e.events ++ ev ++ (if opp then [(c, 2)] else [])⟩

/-- An FP32 output element: chunks in ascending k. -/
def sumFloat (chunks : List (List Term)) (start : Option Nat) : ElemOut :=
  (((chunks.foldl (fun (a : Option ElemOut × Nat) l => (some (addChunk a.1 a.2 (sumChunk l)), a.2 + 1))
    (start.map (fun c => { code := c }), 0)).1).getD { code := 0 })

/-- An INT32 output element: exact chunk sums, OVF at each chunk addition (R94). -/
def sumInt (chunks : List (List Int)) (start : Option Int) (wrap : Bool) : ElemOut :=
  let r := chunks.foldl (fun (a : Option Int × Bool) l =>
    let x := l.foldl (· + ·) 0
    match a.1 with
    | none => (some x, a.2)
    | some v =>
      let t := v + x
      if -(2 ^ 31 : Int) ≤ t ∧ t < 2 ^ 31 then (some t, a.2)
      else if wrap then (some (toSigned 32 (ofSigned 32 t)), a.2)
      else (some (if t < 0 then -(2 ^ 31) else 2 ^ 31 - 1), true)) (start, false)
  { code := ofSigned 32 (r.1.getD 0), clamped := r.2 }

/-- An integer element's value. -/
def intOf (v : Val) : Int :=
  match v with
  | .fin s m _ => signedOf s m
  | _ => 0

/-! ### The exception locator (R107) -/

/-- What the locator captures of an instruction's invalid operation (Table 04-4). -/
def xcapOf (st : Stream) (x : InFlight) (bank m n c kind : Nat) : XCap :=
  { seq := x.seq, stream := streamNo st, bank := bank, retry := x.retry, step16 := x.step % 2 ^ 16, row := m, col := n,
    kchunk := c % 2 ^ 16, kind := kind, pc := x.pc }

/-- An invalid operation of an instruction, with its place in the order of detection: pass, row, chunk, column, kind. -/
structure XEvent where
  key : Nat
  m : Nat
  n : Nat
  c : Nat
  kind : Nat
deriving DecidableEq, Repr

/-- Insert in ascending key. -/
def insertXe (l : List XEvent) (e : XEvent) : List XEvent := l.takeWhile (·.key ≤ e.key) ++ [e] ++ l.dropWhile (·.key ≤ e.key)

/-! ### One instruction (R90) -/

/-- Operand element a(m, k) or b(k, n): stored row and element (Table 04-2). -/
def opIndex (transposed : Bool) (outer k : Nat) : Nat × Nat := if transposed then (k, outer) else (outer, k)

/-- Compute an MM into its bank: accumulate, or overwrite. Gives the counts. -/
def State.runMm (s : State) (t c : Nat) (st : Stream) (x : InFlight) (d : Nat) (ovw : Bool) : State × InFlight :=
  let a := mmA d
  let b := mmB d
  let K := mmK d
  let bank := mmBank d
  let old := if bank = 0 then (s.tile t).acc0 else (s.tile t).acc1
  let p := if s.extsPoison (a.exts ++ b.exts) then s.metPoison t c st x else (s, x)
  let arow (m : Nat) : List (Val × Val) := (List.range K).map (fun k =>
    let i := opIndex (bitOf d 48) m k
    s.meElem a i.1 i.2)
  let bcol (n : Nat) : List (Val × Val) := (List.range K).map (fun k =>
    let i := opIndex (!bitOf d 49) n k
    s.meElem b i.1 i.2)
  let rowsA := (List.range (mmM d)).map arow
  let colsB := (List.range (mmN d)).map bcol
  let elem (m n : Nat) : ElemOut :=
    let ra := rowsA.getD m []
    let cb := colsB.getD n []
    let was := (smGet 0 old (128 * m + n)).toNat
    if mmIntAcc d then
      sumInt (chunks 32 ((ra.zip cb).map (fun q => intOf q.1.1 * intOf q.2.1))) (if ovw then none else some (toSigned 32 was)) (bitOf d 51)
    else sumFloat (chunks 32 ((ra.zip cb).map (fun q => mkTerm q.1 q.2))) (if ovw then none else some was)
  let outs := (List.range (mmM d)).flatMap (fun m => (List.range (mmN d)).map (fun n => (m, n, elem m n)))
  let kb := min (mmKb (mmFa d)) (mmKb (mmFb d))
  let evs := outs.foldl (fun (l : List XEvent) o => o.2.2.events.foldl (fun l e =>
    insertXe l ⟨(((32 * e.1 / kb * 128 + o.1) * 2 ^ 16 + e.1) * 128 + o.2.1) * 4 + e.2, o.1, o.2.1, e.1, e.2⟩) l) []
  let flushIn (o : Rows) : Nat :=
    (List.range o.rows).foldl (fun n r =>
      (List.range o.cols).foldl (fun n j => if mmSub o.fmt (s.elemCode o r j) then n + 1 else n)
        (if 2 ≤ o.mode ∧ isSub32 (s.rowScale o r) then n + 1 else n)) 0
  let put (y : Tile) : Tile :=
    let z := y.modBank bank (fun m => outs.foldl (fun m o => smSet 0 m (128 * o.1 + o.2.1) (BitVec.ofNat 32 o.2.2.code)) m)
    { z with xloc := evs.foldl (fun l e => l.capture s.beat.now (xcapOf st x bank e.m e.n e.c e.kind)) y.xloc }
  let s := p.1.modTile t put
  let n : Counts :=
    { inv := outs.countP (fun o => !o.2.2.events.isEmpty), sat := outs.countP (fun o => o.2.2.clamped),
      flush := flushIn a + flushIn b + outs.countP (fun o => o.2.2.flushed) }
  (s, { p.2 with counts := p.2.counts.plus n })

/-- MM checks after the header: body, then every operand's reach (R97). -/
def State.mmCheck (s : State) (t c d : Nat) (drain : Bool) : Option DFault :=
  match mmBody d drain with
  | some f => some f
  | none => if s.extsOk t c ((mmA d).exts ++ (mmB d).exts) then none else some ⟨0x4012, 0⟩

end Sys2Proof.Machine
end

