-- ==== Sys2Proof/Machine/Strobe.lean ====
section
/-! DEFINITION. Shadowed fields and strobes (R405-R409), the maltster's references (R415), the compare of clk 1 (R414), and the
lottery arbiters (R306-R312). -/

namespace Sys2Proof.Machine

/-! ### Shadows and strobes -/

/-- The strobe group of a BAR0 offset. -/
def State.groupOf (s : State) (off : Nat) : Option Nat := (s.rws off).map (·.group)

/-- The value that a write of an RW-S register leaves in its shadow: only its fields change; SOURCE 0b11 leaves SOURCE as it was
(Table 02-1). -/
def State.shadowValue (s : State) (off v mask : Nat) : Word :=
  let v := if off = 0x100 ∧ bits v 24 2 = 3 then setBits v 24 2 (bits (s.shadowNow off) 24 2) else v
  BitVec.ofNat 64 (v &&& mask)

/-- A host's write of an RW-S register reaches its shadow; a strobe in the same clk does not apply it (R408), and a write of the maltster's
in the same clk prevails over it (R405). -/
def State.putShadow (s : State) (off v : Nat) : State :=
  match s.rws off with
  | none => s
  | some i =>
    if s.cfg.maltster.contains off then s
    else { s with cfg := { s.cfg with shadowNew := (off, s.shadowValue off v i.mask) :: s.cfg.shadowNew.filter (fun p => p.1 != off) } }

/-- The maltster's write of a shadow, which comes second to a host's of the same clk (R405). -/
def State.setShadow (s : State) (off v : Nat) : State :=
  match s.rws off with
  | none => s
  | some i =>
    { s with cfg := { s.cfg with shadow := (off, s.shadowValue off v i.mask) :: s.cfg.shadow.filter (fun p => p.1 != off),
                                 shadowNew := s.cfg.shadowNew.filter (fun p => p.1 != off), maltster := setAdd s.cfg.maltster off } }

/-- This clk's shadow writes join those of the clks before it. -/
def State.shadowTake (s : State) : State :=
  { s with cfg := { s.cfg with
      shadow := s.cfg.shadowNew ++ s.cfg.shadow.filter (fun p => !s.cfg.shadowNew.any (fun q => q.1 == p.1)), shadowNew := [], maltster := [] } }

/-- Groups that hold a shadow write not yet applied: CFG_PEND.PENDING. -/
def State.pendGroups (s : State) : Nat :=
  (List.range 16).foldl (fun a n => if (s.cfg.shadowNew ++ s.cfg.shadow).any (fun p => s.groupOf p.1 == some n) then a + 2 ^ n else a) 0

/-- Copy the shadows of group n to the values in effect. -/
def State.applyGroup (s : State) (n : Nat) : State :=
  let mine (p : Nat × Word) : Bool := s.groupOf p.1 == some n
  { s with cfg := { s.cfg with
      eff := (s.cfg.shadow.filter mine).foldr (fun p e => smSet (BitVec.ofNat 64 (s.rwsReset p.1)) e p.1 p.2) s.cfg.eff,
      shadow := s.cfg.shadow.filter (fun p => !mine p), strobes := satAdd (2 ^ 32 - 1) s.cfg.strobes 1 } }

/-- Set CFG_REF_n of a group to the CRC of its values in effect, with EN set (R415). -/
def State.keepRef (s : State) (n : Nat) : State :=
  State.rwiSet { s with cfg := { s.cfg with maltster := setAdd s.cfg.maltster (0x100200 + 8 * n) } } (0x100200 + 8 * n) (s.cfgCrc n + 2 ^ 32)

/-- Apply the shadows of the groups in a mask together (R407). `at_` is the clk from which they are in effect: the LFSRs are loaded in
it (R308), and a newly enabled beat generator starts with it as clk 0 of beat 0 (Table 02-3). -/
def State.applyGroups (s : State) (mask at_ : Nat) : State :=
  let was := s.beatEnable
  let s := (bitList 8 mask).foldl (fun s n => if groupRegs s.variant n = [] then s else s.applyGroup n) s
  let s := if bitOf mask 2 then { s with hub := { s.hub with lfsrClk := at_, lfsrSeed := s.arbSeed } } else s
  if s.beatEnable && !was then
    { s with beat := { s.beat with tickClk := at_, tick := 0, periodEff := s.period, nextPeriod := s.period } }
  else s

/-- The maltster writes shadows, strobes their groups and keeps the references (R405, R415). -/
def State.maltsterSet (s : State) (l : List (Nat × Nat)) : State :=
  let s := l.foldl (fun s p => s.setShadow p.1 p.2) s
  let gs := (l.filterMap (fun p => s.groupOf p.1)).eraseDups
  let mask := gs.foldl (fun a n => a ||| 2 ^ n) 0
  gs.foldl State.keepRef (s.applyGroups mask s.beat.now)

/-- CFG_STROBE: the named groups' shadows apply in the next clk (R407). -/
def doCfgStrobe (v : Nat) (s : State) : State := { s with cfg := { s.cfg with strobe := s.cfg.strobe ||| BitVec.ofNat 16 v } }

/-- Whether tick a lies after tick b, both modulo 2^32 (R127, R408). -/
def tickAfter (a b : Nat) : Bool := decide (0 < (a + 2 ^ 32 - b % 2 ^ 32) % 2 ^ 32) && decide ((a + 2 ^ 32 - b % 2 ^ 32) % 2 ^ 32 < 2 ^ 31)

/-- Arm groups for the next tick, or for a named one (R408). -/
def State.arm (s : State) (mask : Nat) (at_ : Option Nat) (maltster : Bool) : State :=
  let m := BitVec.ofNat 16 mask
  let k : BitVec 16 := if maltster then m else 0
  let next := { s with cfg := { s.cfg with armNext := s.cfg.armNext ||| m, armM := s.cfg.armM ||| k } }
  match at_ with
  | some t =>
    if tickAfter t s.beat.tick then
      let old := (s.cfg.armAt.find? (fun p => p.1 == t)).elim (0, 0) (·.2)
      { s with cfg := { s.cfg with armAt := (t, old.1 ||| m, old.2 ||| k) :: s.cfg.armAt.filter (fun p => p.1 != t) } }
    else next
  | none => next

/-- CFG_STROBE_AT: ATTICK is the maltster's; from BAR0 the write arms for the next tick (R408). -/
def doCfgStrobeAt (v : Nat) (maltster : Bool) (s : State) : State :=
  s.arm (bits v 0 16) (if bitOf v 48 && maltster then some (bits v 16 32) else none) maltster

/-- CFG_STROBE_AT. -/
def execCfgStrobeAt (v : Word) (maltster : Bool) (s : State) : Host.Outcome State Fault Refusal :=
  .next (whenLive s (doCfgStrobeAt v.toNat maltster))

/-- A tick finds the armed groups: they are due at it, and disarmed. -/
def State.armDue (s : State) : State :=
  let now (p : Nat × BitVec 16 × BitVec 16) : Bool := p.1 == s.beat.tick % 2 ^ 32
  let l := s.cfg.armAt.filter now
  { s with cfg := { s.cfg with
      due := l.foldl (fun a p => a ||| p.2.1) s.cfg.armNext, dueM := l.foldl (fun a p => a ||| p.2.2) s.cfg.armM,
      armNext := 0, armM := 0, armAt := s.cfg.armAt.filter (fun p => !now p) } }

/-- CFG_PEND (Table 17-3). -/
def State.cfgPend (s : State) : Nat :=
  s.pendGroups + (s.cfg.armAt.foldl (fun a p => a ||| p.2.1) s.cfg.armNext).toNat * 2 ^ 16 + (s.cfg.armAt.head?.elim 0 (·.1)) * 2 ^ 32

/-- Apply what is due at the tick. The references of what the maltster armed are kept (R415). -/
def doStrobeAtApply (s : State) : State :=
  let keep := s.cfg.due.toNat &&& s.cfg.dueM.toNat
  let s := State.applyGroups { s with cfg := { s.cfg with due := 0, dueM := 0 } } s.cfg.due.toNat s.beat.now
  (bitList 16 keep).foldl State.keepRef s

/-- The value of BEAT_CTL that the marker of this tick counts as strobed (R408, R20). -/
def State.dueBeatCtl (s : State) : Nat := if bitOf s.cfg.due.toNat 0 then s.shadowOf 0x100 else s.eff 0x100

/-! ### The lottery (R306-R312) -/

/-- The LFSR's next value (R308). -/
def lfsrStep (x : Nat) : Nat := (2 * x + (bits x 31 1 + bits x 21 1 + bits x 1 1 + bits x 0 1) % 2) % 2 ^ 32

/-- The LFSR of arbiter a as loaded from SEED. -/
def lfsrLoad (seed a : Nat) : Nat :=
  let x := seed ^^^ (a * 0x9E3779B9 % 2 ^ 32)
  if x = 0 then 1 else x

/-- The LFSR of arbiter a in this clk. -/
def State.lfsr (s : State) (a : Nat) : Nat := iter (s.beat.now - s.hub.lfsrClk) lfsrStep (lfsrLoad s.hub.lfsrSeed a)

/-- A hub requester of class PREEMPT (Table 12-5); no tile requester is one (R65). -/
def preemptClass (a n : Nat) : Bool := decide (a < 16) && (n == 4 || n == 5 || n == 9)

/-- Arbiters and their requesters (R306, R308): ports 0 to 10, then three per tile. -/
def arbOk (v : Variant) (a : Nat) : Bool := (decide (a ≤ 10) && !(v == .s8 && a == 7)) || decide (16 ≤ a) && decide (a < 304)
/-- Whether n is a requester of arbiter a: the -8S has no LD1 (R7, R297). -/
def requesterOk (v : Variant) (a n : Nat) : Bool := if a < 16 then decide (n < 12) && !(v == .s8 && n == 5) else decide (n < 3)

/-- Tickets of requester n at arbiter a. -/
def State.tickets (s : State) (a n : Nat) : Nat := if a < 16 then s.hubTickets a n else s.tileTickets ((a - 16) / 3) n

/-- The aged requester with the highest loss count, then the lowest index. -/
def Arb.oldest (x : Arb) (limit : Nat) (p : List Nat) : Option Nat :=
  if limit = 0 then none else
  (p.filter (fun n => decide (limit ≤ smGet 0 x.loss n))).foldl (fun (b : Option Nat) n => match b with
    | none => some n
    | some m => if smGet 0 x.loss m < smGet 0 x.loss n then some n else b) none

/-- The requester whose ticket range holds x. -/
def pickTicket (t : Nat → Nat) : List Nat → Nat → Nat
  | [], _ => 0
  | [n], _ => n
  | n :: r, x => if x < t n then n else pickTicket t r (x - t n)

/-- The winner of a draw of arbiter a, its state x, among present requesters, and whether the age limit forced it (R307). -/
def State.drawWinner (s : State) (a : Nat) (x : Arb) (p : List Nat) : Nat × Bool :=
  match x.oldest s.ageLimit p with
  | some n => (n, true)
  | none =>
    let pre := p.filter (preemptClass a)
    let c := if pre.isEmpty then p else pre
    let sum := c.foldl (fun k n => k + s.tickets a n) 0
    let t (n : Nat) : Nat := if sum = 0 then 1 else s.tickets a n
    let sum := if sum = 0 then c.length else sum
    (pickTicket t c (s.lfsr a % sum), false)

/-- The loss counts after a draw: the winner's clears, the others' rise (R307). -/
def lossAfter (l : SMap Nat) (p : List Nat) (w : Nat) : SMap Nat :=
  p.foldl (fun l n => if n = w then smSet 0 l n 0 else smMod 0 l n (fun k => satAdd 255 k 1)) l

/-- Hold a draw (R307): the winner takes the grant. `tx` is what each requester's request belongs to. -/
def State.draw (s : State) (a : Nat) (p : List Nat) (tx : Nat → ReqTx) : State :=
  let w := s.drawWinner a (s.arb a) p
  s.modArb a (fun x => { x with
    grant := some { who := w.1, forced := w.2, clk := s.beat.now, tx := tx w.1 }, was := x.loss, loss := lossAfter x.loss p w.1,
    aged := if w.2 ∧ a ≤ 10 then satAdd (2 ^ 32 - 1) x.aged 1 else x.aged })

/-- Whether a draw may be held in this clk (R307, R311): no grant is held, or the held one has begun and ends, or its holder has
withdrawn. At most one draw is held in a clk. -/
def State.mayDraw (s : State) (a : Nat) (ends : Bool) : Bool :=
  match (s.arb a).grant with
  | none => true
  | some g => g.clk != s.beat.now && (ends || g.gone)

/-- The present requesters of arbiter a, rising. -/
def presentOf (v : Variant) (a : Nat) (present : List Nat) : List Nat :=
  (List.range 12).filter (fun n => requesterOk v a n && present.contains n)

/-- What the request of requester n belongs to. -/
def txOf (present : List PortReq) (n : Nat) : ReqTx := ((present.find? (fun r => r.who == n)).map (·.tx)).getD .other

/-- A draw at a hub port (R306, R307): where nobody asks, a grant that ends leaves the port free. -/
def State.portDraw (s : State) (a : Nat) (ends : Bool) (present : List PortReq) : State :=
  let p := presentOf s.variant a (present.map (·.who))
  if !arbOk s.variant a || !s.mayDraw a ends then s
  else if p.isEmpty then s.modArb a (fun x => { x with grant := none })
  else s.draw a p (txOf present)

/-- Every grant held for a transfer or a move that `hit` names is withdrawn (R311). -/
def State.withdraw (s : State) (hit : ReqTx → Bool) : State :=
  { s with arbs := smMap {} s.arbs (fun _ x => { x with grant := x.grant.map (fun g => if hit g.tx then { g with gone := true } else g) }) }

/-- ARB_PREEMPT: a present PREEMPT requester revokes an ordinary grant that the age limit did not force, and a draw is held over
every present requester, the cut one included (R310). The tracker's port, 10, has no preemption. -/
def doArbPreempt (p : Nat) (present : List PortReq) (s : State) : State :=
  match (s.arb p).grant with
  | none => s
  | some g =>
    let l := presentOf s.variant p (g.who :: present.map (·.who))
    if 10 ≤ p ∨ g.forced ∨ g.gone ∨ g.clk = s.beat.now ∨ preemptClass p g.who ∨ !l.any (preemptClass p) then s
    else (s.modArb p (fun x => { x with restart := satAdd (2 ^ 32 - 1) x.restart 1 })).draw p l
      (fun n => if n = g.who then g.tx else txOf present n)

/-- ARB_PREEMPT. -/
def execArbPreempt (p : Nat) (present : List PortReq) (s : State) : Host.Outcome State Fault Refusal :=
  .next (whenLive s (doArbPreempt p present))

/-! ### The compare (R414) -/

/-- The reference that a compare uses: one that the maltster has written in this clk stands with the strobe it belongs to, so that no strobe of
the maltster's raises 0xA010 (R415); a host's write of this clk governs from the next compare. -/
def State.refNow (s : State) (n : Nat) : Nat := if s.cfg.maltster.contains (0x100200 + 8 * n) then s.rwiNow (0x100200 + 8 * n) else s.cfgRef n

/-- CFG_INTEG_COMPARE: every enabled group's CRC is compared with its reference; a MISMATCH bit that sets is logged and counted,
and the maltster acts on it as R436 gives. `l3` is the maltster's taking of L3. -/
def compareGroup (l3 : State → State) (s : State) (n : Nat) : State :=
  let ref := s.refNow n
  let crc := s.cfgCrc n
  let bad := bitOf ref 32 && crc != bits ref 0 32
  if !bad then { s with cfg := { s.cfg with mismatch := s.cfg.mismatch &&& ~~~ BitVec.ofNat 16 (2 ^ n), consec := smSet 0 s.cfg.consec n 0 } }
  else
    let s := { s with cfg := { s.cfg with consec := smMod 0 s.cfg.consec n (· + 1) } }
    let new := !bitOf s.cfg.mismatch.toNat n
    let s := if new then
        State.logEvent { s with cfg := { s.cfg with mismatch := s.cfg.mismatch ||| BitVec.ofNat 16 (2 ^ n),
                                                    mismatchCnt := satAdd 0xFFFF s.cfg.mismatchCnt 1 } }
          0xA010 none 31 0 0xC n (crc + 2 ^ 32 * bits ref 0 32)
      else s
    let s := if new ∧ (n = 0 ∨ n = 3) ∧ bitOf s.evtCfg 1 then s.abortAll 0xA010 true else s
    if bits s.evtCfg 8 8 ≠ 0 ∧ smGet 0 s.cfg.consec n = bits s.evtCfg 8 8 then l3 s else s

end Sys2Proof.Machine
end

