-- ==== Sys2Proof/Machine/Engines.lean ====
section
/-! DEFINITION. The rows of the matrix engine and the vector chain (R90-R104, R137-R161): MM, MM_OVW, MM_DRAIN, ACC_ZERO,
CHAIN.RUN, CHAIN.RUN_ACC, their banks, units and draws, and the hand-off transfer of R153. -/

namespace Sys2Proof.Machine

/-! ### Banks and units (R59, R65, R102, R103, R110, R157) -/

/-- The ME arbiter of a tile (u = 0), or its VC arbiter (u = 1). -/
def unitArb (t u : Nat) : Nat := 16 + 3 * t + u

/-- An MM that has its ME passes still before it. -/
def InFlight.needsMe (x : InFlight) : Bool :=
  x.cls == 3 && decide (x.op < 3) && ((x.bank.any (fun b => x.wait == .bank b)) || x.wait == .unit 0 || decide (0 < x.me))

/-- An instruction that has lane groups still before it. -/
def InFlight.needsVc (x : InFlight) : Bool :=
  (x.cls == 4 || x.cls == 3 && x.op == 2) &&
    ((x.bank.any (fun b => x.wait == .bank b)) || x.wait == .unit 0 || x.wait == .unit 1 || decide (0 < x.vc))

/-- An instruction that needs unit u. -/
def InFlight.needs (x : InFlight) (u : Nat) : Bool := if u = 0 then x.needsMe else x.needsVc

/-- The draws of unit u that an instruction at work still needs. -/
def InFlight.draws (x : InFlight) (u : Nat) : Nat := if u = 0 then x.me else x.vc

/-- The instruction of a stream that unit u serves next: requests are served in program order (R59). -/
def State.unitAt (s : State) (t u : Nat) (st : Stream) : Option InFlight := (s.seq t st).inflight.find? (·.needs u)

/-- A stream asserts its request for the ME. -/
def State.asksMe (s : State) (t : Nat) (st : Stream) : Bool :=
  match s.unitAt t 0 st with
  | some x => x.wait == .unit 0 || decide (0 < x.me)
  | none => false

/-- Another stream asks for the ME. -/
def State.meRival (s : State) (t : Nat) (st : Stream) : Bool := [Stream.F, .B, .U].any (fun q => q != st && s.asksMe t q)

/-- A stream asserts its request for the VC; a drain does when its MM has no pass left to be drawn for (R104). -/
def State.asksVc (s : State) (t : Nat) (st : Stream) : Bool :=
  match s.unitAt t 1 st with
  | some x => x.wait == .unit 1 && (x.me == 0 || !s.meRival t st) || x.wait != .unit 0 && x.wait != .unit 1 &&
      !(x.bank.any (fun b => x.wait == .bank b)) && decide (0 < x.vc)
  | none => false

/-- A stream asserts its request for unit u. -/
def State.asks (s : State) (t u : Nat) (st : Stream) : Bool := if u = 0 then s.asksMe t st else s.asksVc t st

/-- The streams that ask for unit u. -/
def State.askers (s : State) (t u : Nat) : List Nat := ([Stream.F, .B, .U].filter (s.asks t u)).map streamNo

/-- An instruction has reserved bank b: from its first unit request until it completes (R103). -/
def InFlight.holdsBank (x : InFlight) (b : Nat) : Bool := x.bank == some b && x.wait != .bank b

/-- Bank b of a tile is reserved. -/
def State.bankHeld (s : State) (t b : Nat) : Bool := [Stream.F, .B, .U].any (fun st => (s.seq t st).inflight.any (·.holdsBank b))

/-- The instruction that takes bank b next: the earliest request, and of one clk in stream order; of one stream in program order. -/
def State.bankNext (s : State) (t b : Nat) : Option (Stream × InFlight) :=
  ([Stream.F, .B, .U].flatMap (fun st => ((s.seq t st).inflight.filter (fun x => x.wait == .bank b)).map (fun x => (st, x)))).foldl
    (fun (m : Option (Stream × InFlight)) p => match m with
      | none => some p
      | some q => if p.2.clk < q.2.clk then some p else some q) none

/-- Whether an instruction comes too late in its clk: one of a later stream has taken its bank in it, or the unit's draw of the clk, held
again with it present, would have another winner (log entry 90). -/
def State.tooLate (s : State) (t : Nat) (st : Stream) (bank : Option Nat) (u : Nat) : Bool :=
  let now := s.beat.now
  let late (b : Nat) : Bool := [Stream.B, .U].any (fun q => decide (streamNo st < streamNo q) &&
    (s.seq t q).inflight.any (fun y => y.holdsBank b && y.clk == now))
  bank.any late || decide (u < 2) && !(bank.any (s.bankHeld t)) && (s.unitAt t u st).isNone &&
    (match (s.arb (unitArb t u)).grant with
     | some g => g.clk == now && g.who != streamNo st &&
         (s.drawWinner (unitArb t u) { s.arb (unitArb t u) with loss := (s.arb (unitArb t u)).was }
           ((List.range 3).filter (fun n => n == g.who || n == streamNo st || (s.askers t u).contains n))).1 != g.who
     | none => false)

/-- A request that joins a draw held in its clk already, and does not win it, counts a loss in it (R307). -/
def State.joinDraw (s : State) (t : Nat) (st : Stream) (u : Nat) : State :=
  match (s.arb (unitArb t u)).grant with
  | some g =>
    if g.clk = s.beat.now ∧ g.who ≠ streamNo st ∧ (s.unitAt t u st).isNone then
      s.modArb (unitArb t u) (fun x => { x with loss := smMod 0 x.loss (streamNo st) (fun k => satAdd 255 k 1) })
    else s
  | none => s

/-- The passes of an MM (R109). -/
def mmPasses (d : Nat) : Nat := ceilDiv (mmK d) (min (mmKb (mmFa d)) (mmKb (mmFb d)))

/-- The draws that a chain of so many lane groups needs: one at its start and one after every 256 (R157). -/
def chainDraws (rows cols : Nat) : Nat := max 1 (ceilDiv (rows * ceilDiv cols 128) 256)

/-! ### The hand-off transfer (R153) -/

/-- Local offset of the hand-off descriptor. -/
def handOff (d : Nat) : Nat := cf d 992 20

/-- The kind of a hand-off descriptor by its header: DMA.WRITE or LINK.SEND. -/
def handKind (h : Nat) : Option XKind :=
  if bits h 0 4 = 2 ∧ bits h 4 8 = 1 then some .dmaWrite
  else if bits h 0 4 = 5 ∧ bits h 4 8 = 0 then some .linkSend else none

/-- Check a chain descriptor's body; a hand-off descriptor that is neither DMA.WRITE nor LINK.SEND fails at HANDOFF (R154). -/
def State.chainBodyCheck (s : State) (t d kind rows cols : Nat) (src : ChainSrc) : Option DFault :=
  let hand := if dkind d = 2 ∧ handOff d % 2 = 0 ∧ handOff d + 2 ≤ scratchEnd ∧ handKind (s.descHeader t (handOff d)) = none then some 124 else none
  match chainBody d kind rows cols src, hand with
  | some f, some h => some ⟨0x4011, min f.xinfo h⟩
  | some f, none => some f
  | none, some h => some ⟨0x4011, h⟩
  | none, none => none

/-- Check the hand-off descriptor of a chain with DKIND 0b10 as if an instruction of the stream had issued it. -/
def State.handCheck (s : State) (t c : Nat) (st : Stream) (d : Nat) : Option DFault :=
  if dkind d ≠ 2 then none else
  match handKind (s.descHeader t (handOff d)) with
  | some .linkSend =>
    if st = .F then some ⟨0x4010, 0⟩ else
    match s.descAt t (handOff d) 5 [0] none with
    | .error f => some f
    | .ok h => s.sendCheck t c h
  | _ =>
    match s.descAt t (handOff d) 2 [1] none with
    | .error f => some f
    | .ok h => s.dmaCheck t c 1 h

/-- Every check of a chain instruction. -/
def State.chainCheck (s : State) (t c : Nat) (st : Stream) (d kind rows cols : Nat) (src : ChainSrc) : Option DFault :=
  match s.chainBodyCheck t d kind rows cols src with
  | some f => some f
  | none => firstFault [s.chainRange t c d rows cols src, s.handCheck t c st d]

/-- Register the hand-off transfer of a chain as it is admitted (R153). The hand-off descriptor is read with the chain's, before any element
moves. -/
def State.handReg (s : State) (t c : Nat) (st : Stream) (x : InFlight) (d : Nat) : State × InFlight :=
  let hd := s.descBits t (handOff d)
  if dkind d ≠ 2 then (s, x) else
  match handKind hd with
  | some k =>
    let r := s.register t c st x (handOff d) k hd
    (r.1, { x with hand := some r.2, hdesc := hd })
  | none => (s, x)

/-! ### What the units do -/

/-- A granted MM: its product, and where START's drain follows, the request for the VC. -/
def State.meWork (s : State) (t c : Nat) (st : Stream) (x : InFlight) : State × InFlight :=
  let x := { x with wait := if x.op = 2 then .unit 1 else .none, me := mmPasses x.desc - 1, ran := some s.beat.now }
  s.runMm t c st x x.desc (x.op == 1 || x.op == 2 && bitOf x.desc 52)

/-- The chain descriptor, rows, columns and source of an instruction of the VC. -/
def InFlight.chainOf (x : InFlight) : Nat × Nat × Nat × ChainSrc :=
  if x.cls = 3 then (x.desc2, mmM x.desc, mmN x.desc, .acc (mmBank x.desc) (mmIntAcc x.desc) (bitOf x.desc 53))
  else (x.desc, cf x.desc 64 16, cf x.desc 80 24, if x.op = 0 then .scratch else .acc (bits x.opb 0 1) (bitOf x.desc 50) (bitOf x.desc 51))

/-- A granted chain: its rows, then its hand-off transfer asks for its tag, and the instruction waits for it. -/
def State.vcWork (s : State) (t c : Nat) (st : Stream) (x : InFlight) : State × InFlight :=
  let k := x.chainOf
  let x := { x with wait := .none, vc := chainDraws k.2.1 k.2.2.1 - 1, ran := some s.beat.now }
  let r := s.runChain t c st x k.1 k.2.1 k.2.2.1 k.2.2.2
  match x.hand, handKind x.hdesc with
  | some id, some kind =>
    let g := r.1.takeTag c id x.hdesc kind
    (g.1, if g.2 then r.2 else { r.2 with wait := .chainTag id })
  | _, _ => r

/-- ACC_ZERO writes +0 to every element of its bank (R100). -/
def State.zeroWork (s : State) (t : Nat) (x : InFlight) : State × InFlight :=
  (s.modTile t (·.modBank (x.bank.getD 0) (fun _ => [])), { x with wait := .none, ran := some s.beat.now })

/-- Do the work of an instruction of a stream, reading scratch as it stood before what others changed in the clk (R51). -/
def State.doWork (s : State) (t : Nat) (st : Stream) (x : InFlight) (f : State → State × InFlight) : State :=
  let r := f s.asBefore
  (s.afterAll r.1 0).modSeq t st (·.modFl x.seq (fun _ => r.2))

/-- The winner of a draw of unit u takes the grant: its instruction starts, or goes on. -/
def State.granted (s : State) (t u : Nat) (st : Stream) : State :=
  match s.unitAt t u st, s.tileCtx t with
  | some x, some c =>
    let s := s.modArb (unitArb t u) (fun a => { a with grant := a.grant.map (fun g => { g with insn := some x.seq }) })
    if x.wait = .unit u then s.doWork t st x (fun s => if u = 0 then s.meWork t c st x else s.vcWork t c st x)
    else s.modSeq t st (·.modFl x.seq (fun y => if u = 0 then { y with me := y.me - 1 } else { y with vc := y.vc - 1 }))
  | _, _ => s

/-- A unit that no grant holds is drawn for (R307). -/
def State.serveUnit (s : State) (t u : Nat) : State :=
  let p := s.askers t u
  if (s.arb (unitArb t u)).grant.isSome || p.isEmpty then s
  else
    let s := s.draw (unitArb t u) p (fun _ => .other)
    match (s.arb (unitArb t u)).grant with
    | some g => s.granted t u (streamOf g.who)
    | none => s

/-- A bank that nothing reserves goes to the next that waits for it; ACC_ZERO does its work then, any other asks for its unit (R103). -/
def State.serveBank (s : State) (t b : Nat) : State :=
  if s.bankHeld t b then s else
  match s.bankNext t b with
  | none => s
  | some (st, x) =>
    if x.cls = 3 ∧ x.op = 3 then s.doWork t st x (fun s => s.zeroWork t x)
    else s.modSeq t st (·.modFl x.seq (fun y => { y with wait := .unit (if x.cls = 3 then 0 else 1) }))

/-- Serve what waits for a bank or a unit of a tile. -/
def State.settle (s : State) (t : Nat) : State := (((s.serveBank t 0).serveBank t 1).serveUnit t 0).serveUnit t 1

/-- An instruction that completes gives back the units whose grants it holds. -/
def State.endGrants (s : State) (t : Nat) (st : Stream) (seq : Nat) : State :=
  let free (a : Arb) : Arb := { a with grant := a.grant.filter (fun g => !(g.who == streamNo st && g.insn == some seq)) }
  (s.modArb (unitArb t 0) free).modArb (unitArb t 1) free

/-- A draw of a tile's ME or VC: the grant held ends, where it does, and the streams that ask take part. -/
def State.unitDraw (s : State) (t u : Nat) (ends : Bool) : State :=
  if s.mayDraw (unitArb t u) ends then (s.modArb (unitArb t u) (fun x => { x with grant := none })).settle t else s

/-! ### The rows -/

/-- Issue an instruction of the ME or VC whose checks have passed: it asks for its bank, or for unit u. -/
def State.ask (s : State) (t : Nat) (st : Stream) (x : InFlight) (u : Nat) : Ran :=
  if s.tooLate t st x.bank u then { st := s, fl := x, skip := true }
  else match x.bank with
    | some b => { st := if s.bankHeld t b then s else s.joinDraw t st u, fl := { x with wait := .bank b } }
    | none => { st := s.joinDraw t st u, fl := { x with wait := .unit u } }

/-- MM or MM_OVW: check every operand, then ask for the bank and the ME. -/
def State.mmIssue (s : State) (t : Nat) (st : Stream) (k : OpInfo) (w : Insn) : State :=
  (s.issueDesc t st k w [k.op] (fun c _ d x s =>
    match s.mmCheck t c d false with
    | some f => { st := s, fl := x, fault := some f }
    | none => s.ask t st { x with bank := some (mmBank d) } 0)).settle t

/-- MM accumulates into a bank. -/
def execMm (t : TileId) (st : Stream) (w : Insn) (s : State) : Host.Outcome State Fault Refusal :=
  .next (whenLive s (fun s => s.mmIssue t.val st opMm w))

/-- MM_OVW overwrites the bank region. -/
def execMmOvw (t : TileId) (st : Stream) (w : Insn) (s : State) : Host.Outcome State Fault Refusal :=
  .next (whenLive s (fun s => s.mmIssue t.val st opMmOvw w))

/-- ACC_ZERO. It uses no unit that an arbiter grants. -/
def execAccZero (t : TileId) (st : Stream) (w : Insn) (s : State) : Host.Outcome State Fault Refusal :=
  .next (whenLive s (fun s => (s.issue t.val st opAccZero w noPre Seq.next (fun _ x s =>
    s.ask t.val st { x with bank := some (bits w.opb.toNat 0 1) } 2)).settle t.val))

/-- Issue a chain whose checks have passed. -/
def State.chainAsk (s : State) (t c : Nat) (st : Stream) (x : InFlight) (d u : Nat) : Ran :=
  let r := s.ask t st x u
  if r.skip then r
  else
    let h := r.st.handReg t c st r.fl d
    { r with st := h.1, fl := h.2 }

/-- CHAIN.RUN on a scratch tensor. -/
def execChainRun (t : TileId) (st : Stream) (w : Insn) (s : State) : Host.Outcome State Fault Refusal :=
  .next (whenLive s (fun s => (s.issueDesc t.val st opChainRun w [0] (fun c _ d x s =>
    match s.chainCheck t.val c st d 0 (cf d 64 16) (cf d 80 24) .scratch with
    | some f => { st := s, fl := x, fault := some f }
    | none => s.chainAsk t.val c st x d 1)).settle t.val))

/-- CHAIN.RUN_ACC on a region of bank OPB [0]. -/
def execChainRunAcc (t : TileId) (st : Stream) (w : Insn) (s : State) : Host.Outcome State Fault Refusal :=
  .next (whenLive s (fun s => (s.issueDesc t.val st opChainRunAcc w [1] (fun c _ d x s =>
    let b := bits w.opb.toNat 0 1
    match s.chainCheck t.val c st d 1 (cf d 64 16) (cf d 80 24) (.acc b (bitOf d 50) (bitOf d 51)) with
    | some f => { st := s, fl := x, fault := some f }
    | none => s.chainAsk t.val c st { x with bank := some b } d 1)).settle t.val))

/-- MM_DRAIN computes as MM or MM_OVW, as START selects, then drains the region through the chain descriptor at OPB
(R104). Its record carries both counts. -/
def execMmDrain (t : TileId) (st : Stream) (w : Insn) (s : State) : Host.Outcome State Fault Refusal :=
  .next (whenLive s (fun s => (s.issueDesc t.val st opMmDrain w [2] (fun c _ d x s =>
    match mmBody d true with
    | some f => { st := s, fl := x, fault := some f }
    | none =>
      match s.descAt t.val (bits w.opb.toNat 0 20) 4 [1] none with
      | .error f => { st := s, fl := x, fault := some f }
      | .ok k =>
        let src := ChainSrc.acc (mmBank d) (mmIntAcc d) (bitOf d 53)
        match firstFault [s.chainBodyCheck t.val k 2 (mmM d) (mmN d) src, s.mmCheck t.val c d true,
                          s.chainCheck t.val c st k 2 (mmM d) (mmN d) src] with
        | some f => { st := s, fl := x, fault := some f }
        | none => s.chainAsk t.val c st { x with bank := some (mmBank d), desc2 := k } k 0)).settle t.val))

end Sys2Proof.Machine
end

