-- ==== Sys2Proof/Machine/Arbiters.lean ====
section
/-! DEFINITION. ARB_DRAW (R306-R308): the draws of the hub's ports, of the tracker's shared tags, and of each tile's ME, VC and DMA
engine. -/

namespace Sys2Proof.Machine

/-- The requests of a piece at ca that hold a request tag: to BULK, CELLAR or a host (R259). -/
def State.tagSide (s : State) (c ca : Nat) : Nat :=
  match s.translate c ca with
  | .host _ => 1
  | .mem lgn _ => b2n (decide (2 ≤ (s.pent lgn).tier))
  | _ => 0

/-- The request tags that a transfer's next request of up to 4 KiB holds, at its source and its destination. -/
def State.reqTags (s : State) (f : Xfer) : Nat :=
  let i := dmaReqs f.kind f.desc - f.left
  let per := max 1 (ceilDiv (dmaRlen f.desc) 4096)
  let o := 4096 * (i % per)
  (if f.kind = .dmaFill then 0 else s.tagSide f.ctx (dmaSrcRow f.desc (i / per) + o)) +
    (if dmaLedg f.desc then 0 else s.tagSide f.ctx (dmaDstRow f.desc (i / per) + o))

/-- The winner's earliest transfer makes its next request, with the request tags it holds; where they are not free it waits, and is
counted once (R259, R261). -/
def State.dmaGrant (s : State) (t n : Nat) : State :=
  match s.xfers.find? (fun f => f.tile == t && f.stream == n && f.asksDma) with
  | none => s
  | some f =>
    let k := s.reqTags f
    if k ≤ min s.sharedFree (s.ctxRoom f.ctx) then
      (s.modXfer f.id (fun f => { f with left := f.left - 1, req := f.req + k, reqWait := false })).markHigh
    else if f.reqWait then s
    else (s.modXfer f.id (fun f => { f with reqWait := true })).countWait

/-- A draw of a tile's DMA engine. -/
def State.dmaDraw (s : State) (t : Nat) (ends : Bool) : State :=
  let a := 18 + 3 * t
  let p := s.dmaStreams t
  if !s.mayDraw a ends then s
  else if p.isEmpty then s.modArb a (fun x => { x with grant := none })
  else
    let s := s.draw a p (fun _ => .other)
    match (s.arb a).grant with
    | some g => s.dmaGrant t g.who
    | none => s

/-- ARB_DRAW: an arbiter holds a draw. `ends`: the grant held ends in this clk. At a hub port `present` names the requests asserted; at a
tile the requests are its instructions' and transfers' (R306). -/
def doArbDraw (a : Nat) (ends : Bool) (present : List PortReq) (s : State) : State :=
  if a < 16 then s.portDraw a ends present
  else if 304 ≤ a then s
  else if (a - 16) % 3 = 2 then s.dmaDraw ((a - 16) / 3) ends
  else s.unitDraw ((a - 16) / 3) ((a - 16) % 3) ends

/-- ARB_DRAW. -/
def execArbDraw (a : Nat) (d : DrawOf) (s : State) : Host.Outcome State Fault Refusal :=
  .next (whenLive s (doArbDraw a d.ends d.present))

end Sys2Proof.Machine
end

