-- ==== Sys2Proof/Machine/Cask.lean ====
section
/-! DEFINITION. The cask (R162-R176): its directory, placement and victims, CASK.PUT, CASK.GET and CASK.RELEASE, a stalled PUT's
retry and its end in CASK_FULL. -/

namespace Sys2Proof.Machine

/-! ### Descriptors (Table 07-3) -/

def caskBit49 (d : Nat) : Bool := bitOf d 49
def caskCmp (d : Nat) : Bool := bitOf d 50
def caskMin (d : Nat) : Nat := dfield d 51 2
def caskKind (d : Nat) : Nat := dfield d 48 1
def caskLayer (d : Nat) : Nat := dfield d 64 12
def caskMb (d : Nat) : Nat := dfield d 80 10
/-- SRC or DST as a memory key. -/
def caskKey (d : Nat) : Nat := 32 * dfield d 96 32
def caskSize (d : Nat) : Nat := dfield d 128 20
def caskRpc (d : Nat) : Nat := dfield d 160 24
def caskTbl (d : Nat) : Nat := dfield d 192 6

/-- The body checks of Table 07-4 for PUT (0), GET (1) and RELEASE (2). -/
def caskBody (op d : Nat) : Option DFault :=
  bodyFault (
    [(2, dfield d 16 2 != 0), (6, op == 0 && caskCmp d && caskMin d == 0), (6, op != 0 && caskCmp d),
     (6, if op = 0 then caskMin d == 3 else caskMin d != 0), (12, op == 2 && dfield d 96 32 != 0),
     (16, if op = 2 then caskSize d != 0 else caskSize d == 0 || decide (0x80000 < caskSize d)),
     (20, !(op == 0 && caskBit49 d) && caskRpc d != 0), (24, !(op == 0 && caskCmp d) && caskTbl d != 0)] ++
    rsvFields d [(53, 11), (76, 4), (90, 6), (148, 12), (184, 8), (198, 314)])

/-- SRC or DST lies in the tile's own scratchpad, outside its arena (R167). -/
def State.caskReach (s : State) (t d : Nat) : Option DFault :=
  let n := 32 * caskSize d
  if localKey t 0 ≤ caskKey d ∧ caskKey d + n ≤ localKey t scratchEnd ∧ !s.inArena t (caskKey d) n then none else some ⟨0x4012, 0⟩

/-! ### The directory (R163, R166) -/

/-- A slot holds the entry of a key. -/
def CaskSlot.holds (k : CaskSlot) (layer mb kind par : Nat) : Bool :=
  k.valid && k.layer == layer && k.mb == mb && k.kind == kind && k.par == par

/-- The slot of a key. -/
def Cask.find (x : Cask) (layer mb kind par : Nat) : Option (Nat × CaskSlot) := x.dir.find? (fun p => p.2.holds layer mb kind par)

/-- The 16 bytes of a directory slot (Table 07-2); a free slot is zero. -/
def CaskSlot.bytes (k : CaskSlot) : List Byte :=
  if k.valid then
    toBytes 16 (k.layer + k.mb * 2 ^ 12 + k.kind * 2 ^ 22 + k.par * 2 ^ 23 + 2 ^ 24 + b2n k.dropped * 2 ^ 25 + b2n k.recomp * 2 ^ 26 +
      k.tier * 2 ^ 27 + b2n k.cmp * 2 ^ 29 + k.loc * 2 ^ 32 + k.size * 2 ^ 64 + k.tbl * 2 ^ 84 + k.rpc * 2 ^ 96)
  else List.replicate 16 0

/-- Units of an entry (R166). -/
def caskUnits (size : Nat) : Nat := ceilDiv (32 * size) 65536

/-- The cask of tile t changed, its directory's bytes in the arena's unit 0 with it (R166). -/
def State.setCask (s : State) (t : Nat) (k : Cask) : State :=
  let old := (s.tile t).cask
  let s := s.modTile t (fun x => { x with cask := k })
  (((old.dir ++ k.dir).map (·.1)).eraseDups.filter (fun i => smGet {} old.dir i != smGet {} k.dir i)).foldl (fun s i =>
    s.wrClk (localKey t k.abase + 16 * i) (smGet {} k.dir i).bytes) s

/-- Slot i is freed, its units with it; both serve placements from the next clk (R170). -/
def Cask.free (x : Cask) (now i : Nat) : Cask :=
  { x with dir := smSet {} x.dir i {}, freedClk := now,
           freed := (if x.freedClk = now then x.freed else []) ++ [(i, smGet {} x.dir i)] }

/-- Every entry of a step parity is freed (R45, R36). -/
def Cask.freePar (x : Cask) (now par : Nat) : Cask :=
  (x.dir.filter (fun p => p.2.valid && p.2.par == par)).foldl (fun x p => x.free now p.1) x

/-- First unit and units of a tier's place (R164); unit 0 of the arena is the directory. Of a spill area, what a region holds. -/
def Cask.room (x : Cask) (tier : Nat) : Nat × Nat :=
  if tier = 0 then (1, x.aunits - 1) else (0, 32 * (if tier = 1 then min x.gcnt1 x.lim1 else min x.gcnt2 x.lim2))

/-- The unit runs of a tier that are taken, those freed in this clk included (R170). -/
def Cask.runs (x : Cask) (now tier : Nat) : List (Nat × Nat) :=
  ((x.dir ++ (if x.freedClk = now then x.freed else [])).filter (fun p => p.2.valid && !p.2.dropped && p.2.tier == tier)).map
    (fun p => (p.2.loc, caskUnits p.2.size))

/-- The lowest run of `need` free units of a tier. -/
def Cask.fit (x : Cask) (now tier need : Nat) : Option Nat :=
  let r := x.room tier
  let taken := x.runs now tier
  let ok (p : Nat) : Bool := decide (r.1 ≤ p) && decide (p + need ≤ r.1 + r.2) &&
    taken.all (fun q => decide (p + need ≤ q.1) || decide (q.1 + q.2 ≤ p))
  ((r.1 :: taken.map (fun q => q.1 + q.2)).filter ok).foldl (fun (a : Option Nat) p => some (match a with
    | some b => min b p
    | none => p)) none

/-- The lowest-numbered free slot. -/
def Cask.freeSlot (x : Cask) (now : Nat) : Option Nat :=
  let used := ((x.dir.filter (fun p => p.2.valid)).map (·.1)) ++ (if x.freedClk = now then x.freed.map (·.1) else [])
  (List.range (min 4096 (used.length + 1))).find? (fun i => !used.contains i)

/-- An admitted PUT or GET of a slot's entry has not completed: its bytes are still moving (R168, R175). A GET that has branched moves
none, and keeps no descriptor. -/
def Tile.caskBusy (x : Tile) (k : CaskSlot) : Bool :=
  (x.seqF.inflight ++ x.seqB.inflight).any (fun f =>
    f.cls == 7 && decide (f.op < 2) && f.wait != .cask && f.desc != 0 && k.holds (caskLayer f.desc) (caskMb f.desc) (caskKind f.desc) (f.step % 2))

/-- The first victim of a tier for a parity (R168): ascending LAYER, then MB, then X before DY. -/
def Tile.caskVictim (x : Tile) (tier par : Nat) : Option Nat :=
  let key (k : CaskSlot) : Nat := k.layer * 2 ^ 12 + k.mb * 2 + k.kind
  ((x.cask.dir.filter (fun p => p.2.valid && !p.2.dropped && p.2.recomp && p.2.tier == tier && p.2.par == par && !x.caskBusy p.2)).foldl
    (fun (a : Option (Nat × CaskSlot)) p => match a with
      | none => some p
      | some q => if key p.2 < key q.2 then some p else a) none).map (·.1)

/-- A victim is dropped: its units are free at once for the placement that dropped it, and its slot stays (R168). -/
def Cask.dropVictim (x : Cask) (i : Nat) : Cask :=
  { x with dir := smMod {} x.dir i (fun k => { k with dropped := true }), dropCnt := satAdd (2 ^ 48 - 1) x.dropCnt 1 }

/-- The units of the victims that a placement dropped serve no other placement of the clk (R170): x is the cask before it. -/
def Cask.noteDrops (y x : Cask) (now : Nat) : Cask :=
  let l := x.dir.filter (fun p => p.2.valid && !p.2.dropped && (smGet {} y.dir p.1).dropped)
  if l.isEmpty then y else { y with freed := (if y.freedClk = now then y.freed else []) ++ l, freedClk := now }

/-- Drop victims of a tier until a run fits or no victim is left. -/
def dropUntilFit (fuel : Nat) (now tier par need : Nat) (x : Tile) : Tile :=
  match fuel with
  | 0 => x
  | n + 1 =>
    if (x.cask.fit now tier need).isSome then x
    else match x.caskVictim tier par with
      | none => x
      | some i => dropUntilFit n now tier par need { x with cask := x.cask.dropVictim i }

/-- Where a PUT came to lie: a tier and a unit, dropped as it arrived, or nowhere yet. -/
inductive Placed where
  | at_ (tier loc : Nat)
  | dropped
  | stall
deriving DecidableEq, Repr

/-- Place a PUT's entry by the rule of R168: the tile after it, and where the entry lies. -/
def Tile.placeEntry (x : Tile) (now d par : Nat) : Tile × Placed :=
  let need := caskUnits (caskSize d)
  let tiers := [0, 1, 2].filter (fun t => decide (caskMin d ≤ t) && decide (0 < (x.cask.room t).2))
  match x.cask.freeSlot now with
  | none => (x, .stall)
  | some i =>
    let slot : CaskSlot := { layer := caskLayer d, mb := caskMb d, kind := caskKind d, par := par, valid := true, recomp := caskBit49 d,
                             size := caskSize d, rpc := caskRpc d }
    let placed (p : Nat × Nat) : CaskSlot :=
      { slot with tier := p.1, loc := p.2, cmp := caskCmp d && p.1 != 0, tbl := if caskCmp d then caskTbl d else 0 }
    let take (x : Tile) (p : Nat × Nat) : Tile × Placed :=
      ({ x with cask := { x.cask with dir := smSet {} x.cask.dir i (placed p) } }, .at_ p.1 p.2)
    let found (x : Tile) (t : Nat) : Option (Nat × Nat) := (x.cask.fit now t need).map (fun l => (t, l))
    match tiers.findSome? (found x) with
    | some p => take x p
    | none =>
      if caskBit49 d then
        let gone : CaskSlot := { slot with dropped := true }
        ({ x with cask := { x.cask with dir := smSet {} x.cask.dir i gone,
                                        dropCnt := satAdd (2 ^ 48 - 1) x.cask.dropCnt 1 } }, .dropped)
      else
        let r := tiers.foldl (fun (a : Tile × Option (Nat × Nat)) t => match a.2 with
          | some _ => a
          | none =>
            let y := dropUntilFit 4096 now t par need a.1
            (y, found y t)) (x, none)
        let y := match r.2 with
          | some p => take r.1 p
          | none => (r.1, .stall)
        ({ y.1 with cask := y.1.cask.noteDrops x.cask now }, y.2)

/-! ### Moving an entry's bytes (R171, R232) -/

/-- Context address of a unit of a tier's place; the arena's is its window address. -/
def Cask.unitCa (x : Cask) (t tier loc : Nat) : Nat :=
  if tier = 0 then scratchBase + localKey t x.abase + 65536 * loc else (if tier = 1 then x.gbase1 else x.gbase2) * granule + 65536 * loc

/-- Copy a PUT's bytes to its place: compressed in slot form where CMP is set and it is spilled. The poison travels. -/
def State.caskStore (s : State) (t c d tier loc : Nat) : State :=
  let n := 32 * caskSize d
  let ca := (s.tile t).cask.unitCa t tier loc
  let l := s.scratchBytes (caskKey d, n)
  let s := s.heatCa c ca n
  if tier ≠ 0 ∧ caskCmp d then
    ((chunks 4096 l).foldl (fun (a : State × Nat) b => ((a.1.putBlock c (caskTbl d) a.2 (s.table c (caskTbl d)) b).st, a.2 + 4096)) (s, ca)).1
  else (s.putRowCa c ca l (slotFull [(ca, n)]) true).st

/-- Copy a resident entry to a GET's DST, expanding it; its record takes the damage and the poison (R171, R230, R231). -/
def State.caskLoad (s : State) (t c : Nat) (st : Stream) (x : InFlight) (k : CaskSlot) : State × InFlight :=
  let d := x.desc
  let n := 32 * caskSize d
  let ca := (s.tile t).cask.unitCa t k.tier k.loc
  let slots := s.slotsOf c [(ca, n)]
  let l : List MByte := if k.tier = 0 then s.scratchBytes (ca - scratchBase, n) else (List.range n).map (fun j => s.readByte c slots (ca + j))
  let s := s.heatCa c ca n
  let s := (s.putRowCa c (scratchBase + caskKey d) l (fun _ => true) true).st
  let bad := slots.countP (fun q => q.damage.isSome)
  match firstDamage slots with
  | some (i, code) => (s.logTile code (some c) t st x.pc x.seq i,
      { x with status := BitVec.ofNat 16 code, xinfo := min 0xFFFF i, counts := { x.counts with cmp := x.counts.cmp + bad } })
  | none => (s, if l.any (·.2) then { x with status := 0x2002 } else x)

/-! ### The rows (R167-R174) -/

/-- A tile without a cask does not read the descriptor (R174). -/
def State.caskPre (s : State) (t : Nat) (_ : Seq) : Option Nat := if (s.tile t).cask.aunits = 0 then some 0x4010 else none

/-- Issue a cask instruction: its descriptor, body and reach checks, then its work. -/
def State.caskIssue (s : State) (t : Nat) (st : Stream) (k : OpInfo) (w : Insn) (body : Nat → Nat → InFlight → State → Ran) : State :=
  s.issue t st k w (s.caskPre t) Seq.next (fun c x s =>
    match s.readDesc t w (s.seq t st).loops k.cls [k.op] with
    | .error f => { st := s, fl := x, fault := some f }
    | .ok (o, d) =>
      let x := { x with desc := d, off := o }
      match (match caskBody k.op d with
        | some f => some f
        | none => if k.op = 2 then none else s.caskReach t d) with
      | some f => { st := s, fl := x, fault := some f }
      | none => body c d x s)

/-- Note or clear the stalled PUT of a stream (R169). -/
def Cask.setStall (x : Cask) (st : Stream) (v : Option Nat) : Cask := if st = .F then { x with stallF := v } else { x with stallB := v }
/-- The stalled PUT of a stream. -/
def Cask.stall (x : Cask) (st : Stream) : Option Nat := if st = .F then x.stallF else x.stallB

/-- The cask faults of a PUT (Table 07-4): its recompute PC, its frozen layer, its key held already. -/
def State.putFault (s : State) (t c d par : Nat) : Option DFault :=
  let frozen := match (s.ctx c).prog with
    | some p => p.frozen.contains (caskLayer d)
    | none => false
  if caskBit49 d ∧ (s.tile t).seqB.plen ≤ caskRpc d then some ⟨0x4015, 0⟩
  else if caskKind d = 1 ∧ frozen = true then some ⟨0x4019, 0⟩
  else if ((s.tile t).cask.find (caskLayer d) (caskMb d) (caskKind d) par).isSome then some ⟨0x4018, 0⟩
  else none

/-- A placement of the F stream comes too late in a clk in which the B stream has placed (R170; log entry 90). -/
def State.caskLate (s : State) (t : Nat) (st : Stream) : Bool := st == .F && (s.tile t).cask.placedB == some s.beat.now

/-- Try to place a PUT: the state, and whether the PUT is done with its placement. -/
def State.caskPlace (s : State) (t c : Nat) (st : Stream) (d par : Nat) : State × Bool :=
  let s := if st = .F then s else s.modTile t (fun y => { y with cask := { y.cask with placedB := some s.beat.now } })
  let r := (s.tile t).placeEntry s.beat.now d par
  let s := s.setCask t r.1.cask
  match r.2 with
  | .at_ tier loc => (s.caskStore t c d tier loc, true)
  | .dropped => (s, true)
  | .stall => (s, false)

/-- CASK.PUT stashes an entry, drops it as it arrives, or stalls. -/
def execCaskPut (t : TileId) (st : Stream) (w : Insn) (s : State) : Host.Outcome State Fault Refusal :=
  .next (whenLive s (fun s => s.caskIssue t.val st opCaskPut w (fun c d x s =>
    match s.putFault t.val c d (x.step % 2) with
    | some f => { st := s, fl := x, fault := some f }
    | none =>
      if s.caskLate t.val st then { st := s, fl := x, skip := true } else
      let r := s.caskPlace t.val c st d (x.step % 2)
      if r.2 then { st := r.1, fl := x }
      else { st := r.1.modTile t.val (fun y => { y with cask := y.cask.setStall st (some x.seq) }), fl := { x with wait := .cask } })))

/-- CASK.GET delivers a resident entry, or branches to the recompute program of a dropped one (R171). With REL a dropped slot is
released at the branch, a resident one when the GET completes. -/
def execCaskGet (t : TileId) (st : Stream) (w : Insn) (s : State) : Host.Outcome State Fault Refusal :=
  .next (whenLive s (fun s => s.caskIssue t.val st opCaskGet w (fun c d x s =>
    match (s.tile t.val).cask.find (caskLayer d) (caskMb d) (caskKind d) (x.step % 2) with
    | none => { st := s, fl := x, fault := some ⟨0x4017, 0⟩ }
    | some (i, k) =>
      if k.size ≠ caskSize d then { st := s, fl := x, fault := some ⟨0x4017, 0⟩ }
      else if k.dropped then
        if 8 ≤ (s.seq t.val st).calls.length then { st := s, fl := x, fault := some ⟨0x4014, 0⟩ }
        else
          let s := if caskBit49 d then s.setCask t.val ((s.tile t.val).cask.free s.beat.now i) else s
          { st := s, fl := { x with desc := 0 }, jump := some k.rpc }
      else
        let r := s.caskLoad t.val c st x k
        { st := r.1, fl := r.2 })))

/-- CASK.RELEASE frees the slots and units of its key, of both kinds with BOTHK; one that names no entry does nothing (R172). -/
def execCaskRelease (t : TileId) (st : Stream) (w : Insn) (s : State) : Host.Outcome State Fault Refusal :=
  .next (whenLive s (fun s => s.caskIssue t.val st opCaskRelease w (fun _ d x s =>
    let kinds := if caskBit49 d then [0, 1] else [caskKind d]
    let cask := kinds.foldl (fun (k : Cask) kind => match k.find (caskLayer d) (caskMb d) kind (x.step % 2) with
      | some p => k.free s.beat.now p.1
      | none => k) (s.tile t.val).cask
    { st := s.setCask t.val cask, fl := x })))

/-- The stalled PUT of a stream, as it stands in the stream's in-flight list. -/
def State.stalledPut (s : State) (t : Nat) (st : Stream) : Option InFlight :=
  (s.seq t st).inflight.find? (fun x => x.wait == .cask)

/-- A stalled PUT goes on: it is no longer stalled, and completes with a status. -/
def State.endStall (s : State) (t : Nat) (st : Stream) (x : InFlight) (status : BitVec 16) : State :=
  (s.modTile t (fun y => { y with cask := y.cask.setStall st none })).modSeq t st (fun q => q.modFl x.seq (fun y => { y with wait := .none, status := status }))

/-- CASK_PUT_RETRY: in a clk after one in which units or slots were freed, a stalled PUT retries its placement, until the tick
that ends its beat (R169, R170). It reads scratch as it stood before this clk's writes (R51). -/
def doCaskPutRetry (t : Nat) (st : Stream) (s : State) : State :=
  match s.stalledPut t st, s.tileCtx t with
  | some x, some c =>
    let k := (s.tile t).cask
    if x.clk ≤ k.freedClk ∧ k.freedClk < s.beat.now ∧ s.beat.tickClk ≤ x.clk ∧ !s.caskLate t st then
      let r := s.asBefore.caskPlace t c st x.desc (x.step % 2)
      let a := s.afterAll r.1 0
      if r.2 then a.endStall t st x 0 else a
    else s
  | _, _ => s

/-- CASK_PUT_RETRY. -/
def execCaskPutRetry (t : TileId) (st : Stream) (s : State) : Host.Outcome State Fault Refusal :=
  .next (whenLive s (doCaskPutRetry t.val st))

/-- The applied verdict of the tick aborts step n of context c, and its abort is not yet taken. -/
def State.abortDue (s : State) (c n : Nat) : Bool :=
  (match s.board.applied with
   | some v => bitOf v.abortM.toNat c
   | none => false) && (s.ctx c).step.abortSteps.contains n

/-- CASK_FULL: at the tick that ends its beat a stalled PUT completes without writing, the event is logged, and the step aborts
without retry (R169). Where that tick aborts its step, the abort ends it instead, silently (R176). -/
def doCaskFull (t : Nat) (st : Stream) (s : State) : State :=
  match s.stalledPut t st, s.tileCtx t with
  | some x, some c =>
    if s.beat.tickClk ≤ x.clk ∨ s.abortDue c x.step then s else
    let s := s.endStall t st x 0x4003
    let s := s.retire t st { x with wait := .none, status := 0x4003 }
    let s := s.logTile 0x4003 (some c) t st x.pc x.seq (caskLayer x.desc + 2 ^ 16 * caskMb x.desc)
    s.requestAbort c 0x4003 (some x.step) (placeOf t st) false
  | _, _ => s

/-- CASK_FULL. -/
def execCaskFull (t : TileId) (st : Stream) (s : State) : Host.Outcome State Fault Refusal :=
  .next (whenLive s (doCaskFull t.val st))

/-- The cask of a tile when steps abort (R176, R36): a stalled PUT of an aborted step completes with STATUS 0x4003, silently, and
the steps' entries become free. -/
def State.caskAbort (s : State) (t : Nat) (steps : List Nat) : State :=
  let s := [Stream.F, .B].foldl (fun s st => match s.stalledPut t st with
    | some x => if steps.contains x.step then (s.endStall t st x 0x4003).retire t st { x with wait := .none, status := 0x4003 } else s
    | none => s) s
  s.setCask t (steps.foldl (fun k n => k.freePar s.beat.now (n % 2)) (s.tile t).cask)

end Sys2Proof.Machine
end

