-- ==== Sys2Proof/Machine/Crypto.lean ====
section
/-! DEFINITION. The published functions that chapter 19 names with their standards: SHA3-512 (FIPS 202), KMAC256 (SP 800-185) and
AES-256-GCM (SP 800-38D with FIPS 197). The manual names them and gives no algorithm: their bodies are PRESUMED from the standards (log
entry 40). -/

namespace Sys2Proof.Machine

/-! ### Keccak -/

/-- Lane i of a state. -/
def kLane (a : List (BitVec 64)) (i : Nat) : BitVec 64 := a.getD i 0

/-- Round constants of Keccak-f[1600]. -/
def kRound : List (BitVec 64) :=
  [0x1, 0x8082, 0x800000000000808A, 0x8000000080008000, 0x808B, 0x80000001, 0x8000000080008081, 0x8000000000008009] ++
  [0x8A, 0x88, 0x80008009, 0x8000000A, 0x8000808B, 0x800000000000008B, 0x8000000000008089, 0x8000000000008003] ++
  [0x8000000000008002, 0x8000000000000080, 0x800A, 0x800000008000000A, 0x8000000080008081, 0x8000000000008080, 0x80000001, 0x8000000080008008]

/-- Rotation of lane x + 5 y. -/
def kRot : List Nat := [0, 1, 62, 28, 27] ++ [36, 44, 6, 55, 20] ++ [3, 10, 43, 25, 39] ++ [41, 45, 15, 21, 8] ++ [18, 2, 61, 56, 14]

/-- One round of Keccak-f[1600]. -/
def kStep (a : List (BitVec 64)) (rc : BitVec 64) : List (BitVec 64) :=
  let c := (List.range 5).map (fun x => (List.range 5).foldl (fun v y => v ^^^ kLane a (x + 5 * y)) 0)
  let d := (List.range 5).map (fun x => kLane c ((x + 4) % 5) ^^^ (kLane c ((x + 1) % 5)).rotateLeft 1)
  let t := (List.range 25).map (fun i => (kLane a i ^^^ kLane d (i % 5)).rotateLeft (kRot.getD i 0))
  -- lane (X, Y) of the next state's B comes from lane (x, y) with X = y, Y = 2 x + 3 y
  let b := (List.range 25).map (fun j => let y := j % 5; kLane t ((j / 5 + 2 * y) * 3 % 5 + 5 * y))
  let e := (List.range 25).map (fun i =>
    let r := i / 5 * 5
    kLane b i ^^^ (~~~ kLane b (r + (i + 1 - r) % 5) &&& kLane b (r + (i + 2 - r) % 5)))
  e.set 0 (kLane e 0 ^^^ rc)

/-- Keccak-f[1600]. -/
def kPerm (a : List (BitVec 64)) : List (BitVec 64) := kRound.foldl kStep a

/-- Absorb the blocks of a padded message of `rate` bytes each. -/
def kAbsorb (rate : Nat) : Nat → List Byte → List (BitVec 64) → List (BitVec 64)
  | 0, _, a => a
  | n + 1, l, a =>
    let blk := l.take rate
    kAbsorb rate n (l.drop rate) (kPerm ((List.range 25).map (fun i =>
      kLane a i ^^^ BitVec.ofNat 64 (ofBytes ((blk.drop (8 * i)).take (if 8 * i < rate then 8 else 0))))))

/-- A Keccak sponge with one block of output: rate in bytes, domain suffix, message, output bytes. -/
def kSponge (rate suffix : Nat) (msg : List Byte) (out : Nat) : List Byte :=
  let n := msg.length / rate + 1
  let pad := n * rate - msg.length
  let p := (List.range pad).map (fun i =>
    BitVec.ofNat 8 ((if i = 0 then suffix else 0) + (if i + 1 = pad then 0x80 else 0)))
  ((kAbsorb rate n (msg ++ p) (List.replicate 25 0)).flatMap (fun w => toBytes 8 w.toNat)).take out

/-- SHA3-512 of a byte string, its first byte as the least significant. -/
def sha3_512 (l : List Byte) : BitVec 512 := BitVec.ofNat 512 (ofBytes (kSponge 72 0x06 l 64))

/-- Bytes of a number, most significant first, at least one. -/
def bigBytes (n : Nat) : List Byte := (toBytes (max 1 (n.log2 / 8 + 1)) n).reverse

/-- left_encode of SP 800-185. -/
def leftEncode (n : Nat) : List Byte := BitVec.ofNat 8 (bigBytes n).length :: bigBytes n

/-- right_encode of SP 800-185. -/
def rightEncode (n : Nat) : List Byte := bigBytes n ++ [BitVec.ofNat 8 (bigBytes n).length]

/-- encode_string of SP 800-185. -/
def encodeString (l : List Byte) : List Byte := leftEncode (8 * l.length) ++ l

/-- bytepad of SP 800-185. -/
def bytePad (l : List Byte) (w : Nat) : List Byte :=
  let x := leftEncode w ++ l
  x ++ List.replicate ((w - x.length % w) % w) 0

/-- The bytes of a string of ASCII characters. -/
def asciiBytes (x : String) : List Byte := x.toList.map (fun c => BitVec.ofNat 8 c.toNat)

/-- KMAC256 of a key, a label and data, with an output of `n` bytes, at most 136 (R444). -/
def kmac256 (key : List Byte) (label : String) (data : List Byte) (n : Nat) : List Byte :=
  kSponge 136 0x04 (bytePad (encodeString (asciiBytes "KMAC") ++ encodeString (asciiBytes label)) 136 ++ bytePad (encodeString key) 136 ++
    data ++ rightEncode (8 * n)) n

/-! ### AES-256 -/

/-- Twice a byte in the field of AES. -/
def aesX2 (b : Nat) : Nat := if 128 ≤ b then (2 * b % 256) ^^^ 0x1B else 2 * b

/-- The product of two bytes in the field of AES. -/
def aesMul (a b : Nat) : Nat :=
  ((List.range 8).foldl (fun (p : Nat × Nat) i => (if bitOf b i then p.1 ^^^ p.2 else p.1, aesX2 p.2)) (0, a)).1

/-- The inverse of a byte, 0 for 0: its 254th power. -/
def aesInv (a : Nat) : Nat :=
  let a2 := aesMul a a
  let a3 := aesMul a2 a
  let a12 := aesMul (aesMul a3 a3) (aesMul a3 a3)
  let a15 := aesMul a12 a3
  let sq (x : Nat) : Nat := aesMul x x
  aesMul (sq (sq (sq (sq a15)))) (aesMul a12 a2)

/-- SubBytes of one byte. -/
def aesSub (a : Nat) : Nat :=
  let b := aesInv a
  let rot (k : Nat) : Nat := (b * 2 ^ k + b / 2 ^ (8 - k)) % 256
  b ^^^ rot 1 ^^^ rot 2 ^^^ rot 3 ^^^ rot 4 ^^^ 0x63

/-- The round keys of AES-256 as words, each a list of four bytes: word i from the earlier ones. -/
def aesSchedule (key : List Nat) : List (List Nat) :=
  let k0 := (List.range 8).map (fun i => (List.range 4).map (fun j => key.getD (4 * i + j) 0))
  ((List.range 52).foldl (fun (p : List (List Nat) × Nat) i =>
    let n := i + 8
    let w := p.1.getD (n - 1) []
    let old := p.1.getD (n - 8) []
    let g (j : Nat) : Nat := w.getD j 0
    let t := if n % 8 = 0 then [aesSub (g 1) ^^^ p.2, aesSub (g 2), aesSub (g 3), aesSub (g 0)]
             else if n % 8 = 4 then w.map aesSub else w
    (p.1 ++ [(old.zip t).map (fun q => q.1 ^^^ q.2)], if n % 8 = 0 then aesX2 p.2 else p.2)) (k0, 1)).1

/-- AddRoundKey. -/
def aesAdd (ks : List (List Nat)) (r : Nat) (st : List Nat) : List Nat :=
  (st.zip ((ks.drop (4 * r)).take 4).flatten).map (fun p => p.1 ^^^ p.2)

/-- SubBytes and ShiftRows. -/
def aesSubShift (st : List Nat) : List Nat := (List.range 16).map (fun i => aesSub (st.getD ((i + 4 * (i % 4)) % 16) 0))

/-- MixColumns. -/
def aesMix (st : List Nat) : List Nat :=
  (List.range 16).map (fun i =>
    let c (k : Nat) : Nat := st.getD (i / 4 * 4 + (i + k) % 4) 0
    aesX2 (c 0) ^^^ aesX2 (c 1) ^^^ c 1 ^^^ c 2 ^^^ c 3)

/-- AES-256 of one block of 16 bytes. -/
def aes256 (ks : List (List Nat)) (blk : List Nat) : List Nat :=
  let mid := (List.range 13).foldl (fun st r => aesAdd ks (r + 1) (aesMix (aesSubShift st))) (aesAdd ks 0 blk)
  aesAdd ks 14 (aesSubShift mid)

/-! ### GCM -/

/-- A block of bytes as a number, its first byte the most significant. -/
def gcmNum (l : List Nat) : Nat := l.foldl (fun a b => 256 * a + b) 0

/-- A number as 16 bytes, the most significant first. -/
def gcmBlock (n : Nat) : List Nat := ((toBytes 16 n).map (·.toNat)).reverse

/-- The product in GCM's field. -/
def gcmMul (x y : Nat) : Nat :=
  ((List.range 128).foldl (fun (p : Nat × Nat) i =>
    (if bitOf x (127 - i) then p.1 ^^^ p.2 else p.1,
     if p.2 % 2 = 1 then (p.2 / 2) ^^^ (0xE1 * 2 ^ 120) else p.2 / 2)) (0, y)).1

/-- GHASH over blocks of 16 bytes, the last padded with zeros: `n` blocks of l. -/
def ghash (h : Nat) : Nat → List Nat → Nat → Nat
  | 0, _, a => a
  | n + 1, l, a =>
    let b := l.take 16
    ghash h n (l.drop 16) (gcmMul (a ^^^ gcmNum (b ++ List.replicate (16 - b.length) 0)) h)

/-- The key stream of GCM from counter block j0 + 1 on, applied to l: `n` blocks. -/
def gcmCtr (ks : List (List Nat)) (iv : Nat) : Nat → Nat → List Nat → List Nat
  | 0, _, _ => []
  | n + 1, i, l =>
    ((l.take 16).zip (aes256 ks (gcmBlock (iv * 2 ^ 32 + i)))).map (fun p => p.1 ^^^ p.2) ++ gcmCtr ks iv n (i + 1) (l.drop 16)

/-- Encrypt or decrypt under AES-256-GCM with a 96-bit IV, given most significant byte first. -/
def gcmCrypt (key : List Byte) (iv : BitVec 96) (l : List Byte) : List Byte :=
  (gcmCtr (aesSchedule (key.map (·.toNat))) iv.toNat (ceilDiv l.length 16) 2 (l.map (·.toNat))).map (BitVec.ofNat 8)

/-- The AES-256-GCM tag of additional data and cipher bytes. -/
def gcmTag (key : List Byte) (iv : BitVec 96) (aad cipher : List Byte) : List Byte :=
  let ks := aesSchedule (key.map (·.toNat))
  let h := gcmNum (aes256 ks (List.replicate 16 0))
  let s := ghash h (ceilDiv aad.length 16) (aad.map (·.toNat)) 0
  let s := ghash h (ceilDiv cipher.length 16) (cipher.map (·.toNat)) s
  let s := gcmMul (s ^^^ (8 * aad.length * 2 ^ 64 + 8 * cipher.length)) h
  ((gcmBlock s).zip (aes256 ks (gcmBlock (iv.toNat * 2 ^ 32 + 1)))).map (fun p => BitVec.ofNat 8 (p.1 ^^^ p.2))

end Sys2Proof.Machine
end

