-- ==== Sys2Proof/Machine/Mbx.lean ====
section
/-! DEFINITION. The mailbox (R377-R384): posts, service, the order of the checks, replies, detached commands and the done ring. -/

namespace Sys2Proof.Machine

/-! ### Replies and done entries -/

/-- The index of an issuer in the order of R379. -/
def issuerNo : Issuer → Nat
  | .fn f => f
  | .mgmt => 16

/-- A reply body, its length rounded up to a multiple of 8 (R381). -/
def padBody (l : List Byte) : List Byte := l ++ List.replicate ((8 - l.length % 8) % 8) 0

/-- The reply to a command: into the reply slot with DONE, BUSY clear and vector 0 (R378), or to the management side (R457). -/
def State.reply (s : State) (f : Nat) (k : Cmd) (status : Nat) (body : List Byte) (detached : Bool := false) : State :=
  let l := if status = 0 then padBody body else []
  let r : Reply := ⟨k.cmd, k.seq, l.length, k.ctx, detached, status, l⟩
  if 16 ≤ f then s.send (.mgmt r)
  else (s.modFn f (fun x => { x with busy := none, posted := none, done := true, reply := some r,
                                     served := satAdd (2 ^ 32 - 1) x.served 1 })).msix f 0

/-- The done entry of a detached command (R382): at HEAD, with at most 48 reply bytes, and 0xA020. -/
def State.doneEntry (s : State) (f : Nat) (k : Cmd) (status : Nat) (body : List Byte) : State :=
  let l := if status = 0 then (padBody body).take 48 else []
  let r : Reply := ⟨k.cmd, k.seq, l.length, k.ctx, false, status, l⟩
  let s := s.modFn f (fun x => { x with ring := smSet {} x.ring x.head r, head := (x.head + 1) % 16,
                                        detached := x.detached.erase k })
  s.logEvent 0xA020 (if k.ctx < 16 then some k.ctx else none) f 0 7 f 0

/-- The final reply of a command that did not reply at once. -/
def State.lateReply (s : State) (f status : Nat) (body : List Byte) : State :=
  match (s.fn f).busy with
  | none => s
  | some k => s.reply f k status body

/-- The detached commands of a context, with their functions. -/
def State.detachedOf (s : State) (c : Nat) : List (Nat × Cmd) :=
  (List.range 16).flatMap (fun f => ((s.fn f).detached.filter (fun k => k.ctx == c)).map (fun k => (f, k)))

/-- Free the checkpoints of a context under an ID, with their frames (R391). -/
def State.freeCkpt (s : State) (c : Nat) (id : Word) : State :=
  let mine (k : Ckpt) : Bool := k.ctx == c && k.ckid == id
  let gone := (s.cel.ckpts.filter mine).flatMap (·.frames)
  let s := { s with cel := gone.foldl Cellar.dropFrame { s.cel with ckpts := s.cel.ckpts.filter (fun k => !mine k) } }
  { s with poison := s.poison.filter (fun w => !gone.any (fun f => decide (daKey 3 f 0 / 16 ≤ w) && decide (w < daKey 3 (f + 1) 0 / 16))) }

/-- R383: the detached commands of a context end ABORTED, and a checkpoint that was being sealed is freed. -/
def State.endDetached (s : State) (c : Nat) : State :=
  (s.detachedOf c).foldl (fun s p =>
    let s := match p.2.wait with
      | .sealCel id _ _ => s.freeCkpt c id
      | _ => s
    s.doneEntry p.1 p.2 0x000E []) s

/-! ### Checks (R384) -/

/-- Who may issue a command (Table 16-4). -/
inductive May where
  | any | own | ownPf | free | pf
deriving DecidableEq, Repr

/-- The Step column of Table 16-4. -/
inductive StepRule where
  | none | idle | idleNoRun | idleForce
deriving DecidableEq, Repr

/-- What Table 16-4 gives a command: code, request length, issuer, step rule, whether it runs detached, and whether R383 refuses it
beside its step rule. -/
structure CmdInfo where
  code : Nat
  len : Nat
  may : May
  step : StepRule := .none
  detached : Bool := false
  held : Bool := false
deriving DecidableEq, Repr

/-- No step of context c is open or pending. -/
def State.idle (s : State) (c : Nat) : Bool := (s.ctx c).step.flight.isEmpty

/-- The issuer check. A Free command from a function that owns a context is NOT_OWNER (DEDUCED, log entry 23); CTX_ADOPT looks past
the frozen context that it names (R371). -/
def State.issuerBad (s : State) (f c : Nat) (may : May) (code : Nat) : Option Nat :=
  let mine := if f < 16 then s.fnCtx f else none
  match may with
  | .any => none
  | .pf => if f = 16 ∨ f % 8 = 0 then none else some 0x000A
  | .own => if mine = some c then none else some 0x0005
  | .ownPf =>
    let vf : Bool := match (s.ctx c).owner with
      | some o => decide (c < 16) && (s.ctx c).st == .isOpen && decide (f < 16) && f % 8 == 0 && o.val / 8 == f / 8
      | none => false
    if mine == some c || vf then none else some 0x0005
  | .free =>
    if 16 ≤ f then some 0x0005
    else if mine = none ∨ (code = 0x0013 ∧ mine = some c ∧ (s.ctx c).frozen) then none else some 0x0005

/-- Header fields: a reserved bit, a flag of another command, or a context named by a command that acts on none (R381). -/
def hdrBad (h : ReqHdr) (i : CmdInfo) : Option Nat :=
  if h.rsv || (h.force && i.code != 0x0011) || (h.last && i.code != 0x0080) || (h.keep && i.code != 0x0091) || (h.del && i.code != 0x0060) ||
    ((i.may == .any || i.may == .pf) && h.ctx != 0xFF) || (i.may != .any && i.may != .pf && decide (16 ≤ h.ctx)) then some 0x0004 else none

/-- The commands that recovery mode serves (R447). -/
def recoveryServes (code : Nat) : Bool := [0x0001, 0x0080, 0x0081, 0x00B0, 0x00C0].contains code

/-- The commands refused while the PUF root has failed (R445), and while TEST holds no root (R458; DEDUCED, log entry 35). -/
def needsRoot (code : Nat) : Bool := [0x00A0, 0x00A1, 0x0060, 0x0061, 0x0070].contains code

/-- The state checks that the table gives: HELLO first (R380), recovery mode (R447), the PUF root (R445), the step rule (R385), the
done ring (R382) and R383. -/
def State.stateBad (s : State) (f : Nat) (h : ReqHdr) (i : CmdInfo) : Option Nat :=
  let c := h.ctx
  let named := i.may != .any && i.may != .pf
  let det := named && !(s.detachedOf c).isEmpty
  let idleRule : Bool := match i.step with
    | .none => false
    | .idleForce => !h.force
    | _ => true
  if f < 16 ∧ (s.fn f).needHello ∧ i.code ≠ 0x0001 then some 0x0007
  else if s.boot.recovery ∧ !(recoveryServes i.code && (f == 16 || f % 8 == 0)) then some 0x0007
  else if (s.boot.pufFail ∨ s.boot.test) ∧ needsRoot i.code then some 0x000B
  else if named ∧ idleRule ∧ !s.idle c then some 0x0007
  else if i.step = .idleNoRun ∧ (s.ctx c).step.running then some 0x0007
  else if i.detached ∧ 16 ≤ (s.fn f).detached.length then some 0x0006
  else if det ∧ (idleRule || i.held) then some 0x0006
  else none

/-- The first failure of a list of checks. -/
def firstBad : List (Option Nat) → Option Nat
  | [] => none
  | some k :: _ => some k
  | none :: r => firstBad r

/-! ### Posts and service (R378, R379) -/

/-- What a command came to. -/
inductive Ans where
  | done (status : Nat) (body : List Byte)
  | wait (w : CmdWait)
  | detach (w : CmdWait)
deriving DecidableEq, Repr

/-- The command codes of Table 16-4. -/
def cmdCodes : List Nat :=
  [0x0001, 0x0010, 0x0011, 0x0012, 0x0013, 0x0020, 0x0021, 0x0022, 0x0023, 0x0030, 0x0031, 0x0040, 0x0041, 0x0042, 0x0043, 0x0050, 0x0051,
   0x0060, 0x0061, 0x0062, 0x0070, 0x0071, 0x0072, 0x0073, 0x0080, 0x0081, 0x0082, 0x0090, 0x0091, 0x00A0, 0x00A1, 0x00B0, 0x00C0]

/-- The header of a copied request. -/
def postHdr (l : List Byte) : Nat := ofBytes (l.take 16)

/-- Whether a copied request is the one a command row serves: CMD, SEQ, LEN, CTX and the flags. -/
def postIs (l : List Byte) (h : ReqHdr) (code : Nat) : Bool :=
  let x := postHdr l
  bits x 0 16 == code && bits x 16 16 == h.seq.toNat && bits x 32 32 == h.len && bits x 64 8 == h.ctx && bitOf x 72 == h.force &&
  bitOf x 73 == h.last && bitOf x 74 == h.keep && bitOf x 75 == h.del

/-- A post is accepted (R378). -/
def State.accept (s : State) (f : Nat) (seq : BitVec 16) : State :=
  s.modFn f (fun x => { x with seq := seq, done := false, reset := false, reply := none, postClk := s.beat.now })

/-- A post that finds the mailbox busy is ignored and counted (R378). -/
def State.lostPost (s : State) (f : Nat) : State := s.modFn f (fun x => { x with lost := satAdd 0xFFFF x.lost 1 })

/-- Whether a function's mailbox can be reached: it exists and its port is up. -/
def State.fnReach (s : State) (f : Nat) : Bool := s.fnExists f && (s.hport (f / 8)).up && !(s.hport (f / 8)).perst

/-- The answer to an accepted command. -/
def State.answer (s : State) (f : Nat) (k : Cmd) (a : Ans) : State :=
  match a with
  | .done st body => s.reply f k st body
  | .wait w => s.modFn f (fun x => { x with busy := some { k with wait := w }, posted := none })
  | .detach w => State.reply (s.modFn f (fun x => { x with detached := x.detached ++ [{ k with wait := w }] })) f k 1 [] true

/-- Serve one command: the checks of R384 in their order, `own` the command's own (fields, then state, then resources), and its
effect `act`; `after` follows the reply (R396). -/
def State.serve (s : State) (h : ReqHdr) (i : CmdInfo) (fields state : List (Option Nat)) (act : State → State × Ans)
    (after : State → State := id) : State :=
  let f := issuerNo h.issuer
  let k : Cmd := { cmd := i.code, seq := h.seq, ctx := h.ctx }
  match firstBad ([if h.len = i.len then none else some 0x0003, s.issuerBad f h.ctx i.may i.code, hdrBad h i] ++ fields ++
      [s.stateBad f h i] ++ state) with
  | some st => s.reply f k st []
  | none =>
    let r := act s
    let good := match r.2 with
      | .done st _ => st == 0
      | _ => true
    if good then after (r.1.answer f k r.2) else r.1.answer f k r.2

/-- Whether the management connector carries a command (R457). -/
def mgmtServes (code : Nat) : Bool := [0x0001, 0x00A0, 0x00A1, 0x00B0, 0x00C0, 0x0091, 0x0080, 0x0081, 0x0082].contains code

/-- The maltster is serving: the watchdog has not expired (R376). -/
def State.serving (s : State) : Bool := !s.evt.wdog && s.pwr.clkOk

/-- The maltster may take a post that issuer f made in clk k (R379): no command is in service, and no other function has an accepted post from
an earlier clk, or from the same clk with a lower index. -/
def State.postTurn (s : State) (f k : Nat) : Bool :=
  (List.range 16).all (fun g => g == f || (s.fn g).busy.isNone &&
    ((s.fn g).posted.isNone || decide (k < (s.fn g).postClk) || ((s.fn g).postClk == k && decide (f < g))))

/-- Another management message is in service (R457). -/
def State.mgmtBusy (s : State) (m : Nat × BitVec 16) : Bool := match (s.fn 16).mgmt with
  | some k => k != m
  | none => false

/-- A management message is served or refused; one whose turn has not come is in service until its row comes again, and any other is answered
BUSY meanwhile (R457). -/
def State.mgmtCommand (s : State) (h : ReqHdr) (i : CmdInfo) (fields state : List (Option Nat)) (act : State → State × Ans)
    (after : State → State) : State :=
  let k : Cmd := { cmd := i.code, seq := h.seq, ctx := h.ctx }
  if s.mgmtBusy (i.code, h.seq) then s.reply 16 k 0x0006 [] else
  let s := if (s.fn 16).mgmt.isSome then s.modFn 16 (fun x => { x with mgmt := none }) else s
  if !mgmtServes i.code then (s.logEvent 0x8008 none 16 0 0 0 i.code).reply 16 k 0x0002 []
  else if (!s.serving || s.boot.recovery || s.pwr.l3 != .none) && i.code != 0x00B0 && i.code != 0x00C0 then s.reply 16 k 0x0006 []
  else if i.code != 0x00B0 && i.code != 0x00C0 && !s.postTurn 16 s.beat.now then
    s.modFn 16 (fun x => { x with mgmt := some (i.code, h.seq) })
  else s.serve h i fields state act after

/-- A command row: the function posts it, or the maltster takes the post that the function's write of MBX_POST.GO left, and serves
it. A post whose turn has not come, or while the watchdog has expired, is accepted and not served: its row comes again. A management message
whose turn has not come comes again too (DEDUCED, log entry 89). -/
def State.command (s : State) (h : ReqHdr) (i : CmdInfo) (fields state : List (Option Nat)) (act : State → State × Ans)
    (after : State → State := id) : State :=
  match h.issuer with
  | .mgmt => s.mgmtCommand h i fields state act after
  | .fn f =>
    if !s.fnReach f then s else
    match (s.fn f).busy, (s.fn f).posted with
    | some _, _ => s.lostPost f
    | none, some l =>
      if !postIs l h i.code then s.lostPost f
      else if s.serving && s.postTurn f (s.fn f).postClk then s.serve h i fields state act after else s
    | none, none =>
      let s := s.accept f h.seq
      if s.serving && s.postTurn f s.beat.now then s.serve h i fields state act after
      else s.modFn f (fun x => { x with posted := some (toBytes 16 (i.code + h.seq.toNat * 2 ^ 16 + h.len % 2 ^ 32 * 2 ^ 32 + h.ctx % 256 * 2 ^ 64 +
        b2n h.force * 2 ^ 72 + b2n h.last * 2 ^ 73 + b2n h.keep * 2 ^ 74 + b2n h.del * 2 ^ 75)) })

/-- A field check. -/
def bad (b : Bool) (status : Nat) : Option Nat := if b then some status else none

/-- Fields of a request or reply: `n` little-endian bytes. -/
def leB (n x : Nat) : List Byte := toBytes n x

end Sys2Proof.Machine
end

