-- ==== Sys2Proof/Machine/Kiln.lean ====
section
/-! DEFINITION. The update path (R178-R214): the gradient ledger and its combiner, KILN.UPDATE and its deferral, the kiln
recipes, the conditioning engines, mirrored updates, and their rows. -/

namespace Sys2Proof.Machine

/-! ### The ledger directory (Table 08-2) -/

/-- A context address moved by the shadow's granule offset where `sh` says so (R209). -/
def shadowed (sh : Bool) (delta a : Nat) : Nat := if sh then (a + delta) % 2 ^ 48 else a

/-- Context address of the directory entry of a slice, or of its shadow. -/
def State.ledAddr (s : State) (c : Nat) (sh : Bool) (k : Nat) : Nat := shadowed sh (s.ctx c).shd1 ((s.ctx c).lbase + 32 * k)
/-- Context address of a slice's data, or of its shadow's. -/
def State.ledData (s : State) (c : Nat) (sh : Bool) (k : Nat) : Nat := shadowed sh (s.ctx c).shd1 ((s.ctx c).dbase + 65536 * k)
/-- The directory entry of a slice. -/
def State.led (s : State) (c : Nat) (sh : Bool) (k : Nat) : Nat := ofBytes (s.rdCa c (s.ledAddr c sh k) 32)
/-- Write the directory entry of a slice. -/
def State.setLed (s : State) (c : Nat) (sh : Bool) (k v : Nat) : State := s.wrCa c (s.ledAddr c sh k) (toBytes 32 v)

def ledExpect (e : Nat) : Nat := bits e 0 8
def ledArrived (e : Nat) : Nat := bits e 8 8
def ledState (e : Nat) : Nat := bits e 16 3
def ledStep (e : Nat) : Nat := bits e 64 32
def ledNelem (e : Nat) : Nat := bits e 96 15
def ledMoma (e : Nat) : Nat := bits e 112 48
def ledMsta (e : Nat) : Nat := bits e 160 48
def ledMslot (e : Nat) : Nat := bits e 208 16
def ledWslot (e : Nat) : Nat := bits e 224 16

/-- Set STATE of a slice's entry. -/
def State.setLedState (s : State) (c : Nat) (sh : Bool) (k v : Nat) : State := s.setLed c sh k (setBits (s.led c sh k) 16 3 v)

/-- The slice of an update. -/
def updSlice (d : Nat) : Nat := dfield d 80 24

/-- Whether a parked update of a step waits for a slice. -/
def State.parked (s : State) (c : Nat) (sh : Bool) (k step : Nat) : Bool :=
  s.upds.any (fun u => u.ctx == c && u.shadow == sh && u.stage == .deferred && u.step == step && updSlice u.desc == k && !bitOf u.desc 57)

/-- The record slot that holds the authoritative state: SEL, or 0 in ONE_SLOT mode (R211). -/
def Ctx.sealSlot (x : Ctx) : Nat := if x.oneSlot then 0 else b2n x.sel

/-- FP32 words as bytes. -/
def wordBytes (l : List F32) : List Byte := l.flatMap (fun v => toBytes 4 v.toNat)
/-- The FP32 words in n × 4 bytes at a context address. -/
def State.rdWords (s : State) (c a n : Nat) : List Nat := unpackBytes 4 (s.rdCa c a (4 * n))

/-- The buddy of a logical ID (R209, R340). -/
def State.buddyOf (s : State) (l : Nat) : Nat := (l + 1) % max 1 s.board.nact

/-- Send a completed sum to the buddy as MIRROR flits, coded if MCMP names a table (R340). -/
def State.sendMirror (s : State) (c k step : Nat) : State :=
  let p := s.portOfLid (s.buddyOf s.ownLid)
  if !(s.ctx c).mirror || !s.linked p then s else
  let a := s.ledData c false k
  let l : List MByte := (List.range (4 * ledNelem (s.led c false k))).map (fun i => (s.rdCaByte c (a + i), s.caPoison c (a + i)))
  let raw : List MByte := if s.board.mcmpEn then
      (chunks 4096 l).flatMap (fun b => (packStream (s.table c s.board.mcmp) s.board.mcmp (b.map (·.1))).map (fun x => (x, b.any (·.2))))
    else l
  s.putTransfer p { ftype := .mirror, cmp := s.board.mcmpEn, ctx := c, srcLid := s.board.lid } raw (.sum k step)

/-- Forward an update's descriptor to the buddy as a CONTROL message on the port of its sums (R209, R340). -/
def State.sendUpdate (s : State) (c step d : Nat) : State :=
  s.putControl (s.portOfLid (s.buddyOf s.ownLid)) c (toBytes 128 d) (.update step)

/-- A slice's last addition has landed: COMPLETE, or DEFERRED for a parked update; its semaphore is signalled (R182). -/
def State.completeSlice (s : State) (c k step : Nat) : State :=
  let e := s.led c false k
  let s := s.setLedState c false k (if s.parked c false k step then 4 else 2)
  let s := if bitOf e 19 then { s with rsigs := s.rsigs ++ [RSig.mk (bits e 20 7) (bits e 32 8) 1 c (some step) none] } else s
  s.sendMirror c k step

/-! ### The combiner (R181-R185, R337, R338) -/

/-- A contribution leaves the list. -/
def State.dropContrib (s : State) (x : Contrib) : State := { s with contribs := s.contribs.erase x }

/-- The DMA.WRITE of a local contribution is done. -/
def State.contribDone (s : State) (x : Contrib) (status : Nat) : State :=
  match x.xfer with
  | none => s
  | some id => s.modXfer id (fun f => { f with done := true, status := if status = 0 then f.status else BitVec.ofNat 16 status })

/-- A slice of a context's ledger met poison: the step aborts (R265). -/
def State.ledgerPoison (s : State) (c k lid step : Nat) : State :=
  (s.logDev 0x2002 (some c) (k + 2 ^ 32 * lid)).requestAbort c 0x2002 (some step) 0 true

/-- Add a contribution that is next in order to its slice; the first is stored unchanged (R181). A sum held poisoned takes nothing more
(R265). -/
def State.combine (s : State) (x : Contrib) : State :=
  let e := s.led x.ctx false x.slice
  let a := s.ledData x.ctx false x.slice
  if ledArrived e ≠ 0 && s.rdCaPoison x.ctx a (4 * ledNelem e) then
    ((s.dropContrib x).contribDone x 0x2002).ledgerPoison x.ctx x.slice x.lid x.step
  else
  let vals := if ledArrived e = 0 then x.vals
    else ((s.rdWords x.ctx a (ledNelem e)).zip x.vals).map (fun p => BitVec.ofNat 32 (fadd p.1 p.2.toNat))
  let s := (s.heatCa x.ctx a (4 * ledNelem e)).wrEngine x.ctx a (wordBytes vals)
  let e := setBits e 8 8 (ledArrived e + 2 ^ x.lid)
  let s := ((s.setLed x.ctx false x.slice e).dropContrib x).contribDone x 0
  if ledArrived e = ledExpect e then s.completeSlice x.ctx x.slice x.step else s

/-- The lowest logical ID of EXPECT that has not been combined. -/
def ledNext (e : Nat) : Option Nat := (bitList 8 (ledExpect e)).find? (fun l => !bitOf (ledArrived e) l)

/-- Combine the staged contributions of a slice that are next in order. -/
def combineStaged (fuel : Nat) (c k step : Nat) (s : State) : State :=
  match fuel with
  | 0 => s
  | n + 1 =>
    match ledNext (s.led c false k) with
    | none => s
    | some l =>
      match s.contribs.find? (fun x => x.ctx == c && x.slice == k && x.step == step && x.lid == l && x.staged) with
      | none => s
      | some x => combineStaged n c k step (State.combine (s.modCtx c (fun y => { y with cmbFull := false })) x)

/-- Staging entries in use: LNK_CMB.USED. -/
def State.cmbUsed (s : State) (c : Nat) : Nat := s.contribs.countP (fun x => x.ctx == c && x.staged)

/-- The granules at which a write of the combiner to a slice must wait (R245, R255). -/
def State.ledBlocks (s : State) (c k : Nat) : List Nat :=
  s.writeBlocks c (s.ledAddr c false k) 32 ++ s.writeBlocks c (s.ledData c false k) (4 * ledNelem (s.led c false k))

/-- LEDGER_CONTRIBUTION: combine it, stage it, or withhold it (R181-R185, R337, R338). Where its slice's granule is in a move or not yet
filled, it is held (R245, R255). -/
def doLedgerContribution (c k lid : Nat) (s : State) : State :=
  match s.contribs.find? (fun x => x.ctx == c && x.slice == k && x.lid == lid && !x.staged) with
  | none => s
  | some x =>
    let e := s.led c false k
    let mine := ledState e != 0 && ledStep e == x.step % 2 ^ 32
    if ledState e ≠ 0 ∧ ledStep e ≠ x.step % 2 ^ 32 then s           -- R184: held until the previous step commits
    else if x.poison then ((s.dropContrib x).contribDone x 0x2002).ledgerPoison c k lid x.step
    else if !bitOf (ledExpect e) lid || (mine && (bitOf (ledArrived e) lid || s.contribs.any (fun y => y.ctx == c && y.slice == k && y.lid == lid && y.staged && y.step == x.step))) ||
        x.vals.length != ledNelem e || !x.whole || decide ((s.ctx c).slices ≤ k) then
      let s := (s.dropContrib x).contribDone x 0x2008
      (s.logDev 0x2008 (some c) (k + 2 ^ 32 * lid)).requestAbort c 0x2008 (some x.step) 0 false
    else if !(s.ledBlocks c k).isEmpty then (s.ledBlocks c k).foldl State.unblock s
    else
      let s := if mine then s else s.setLed c false k (setBits (setBits (setBits e 8 8 0) 16 3 1) 64 32 x.step)
      if ledNext (s.led c false k) = some lid then combineStaged 8 c k x.step (s.combine x)
      else if s.cmbUsed c < (s.ctx c).cmbSlots then
        State.contribDone { s with contribs := s.contribs.map (fun y => if y = x then { y with staged := true } else y) } x 0
      else
        let s := if (s.ctx c).step.loggedStall.contains x.step then s
          else (s.logDev 0x500D (some c) 0).modStep c (fun q => { q with loggedStall := x.step :: q.loggedStall })
        s.modCtx c (fun y => { y with cmbFull := true })

/-- LEDGER_CONTRIBUTION. -/
def execLedgerContribution (c : CtxId) (slice : Nat) (lid : Nat) (s : State) : Host.Outcome State Fault Refusal :=
  .next (whenLive s (doLedgerContribution c.val slice lid))

/-! ### The update descriptor (Table 08-3) -/

def updRows (d : Nat) : Nat := dfield d 64 8
def updCols (d : Nat) : Nat := dfield d 72 8
def updMom (d : Nat) : Nat := dfield d 128 48
def updMst (d : Nat) : Nat := dfield d 192 48
def updBuild (d : Nat) : Bool := bitOf d 57
def updRecipe (d : Nat) : Nat := dfield d 48 3
/-- Elements of the slice. -/
def updN (d : Nat) : Nat := updRows d * updCols d
/-- The working weight as an operand. -/
def updDst (d : Nat) : Rows :=
  ⟨dfield d 320 32, dfield d 416 32, 0, dfield d 464 4, dfield d 468 2, blockSize (dfield d 468 2) (dfield d 470 2), dfield d 352 32,
   dfield d 384 32, dfield d 448 16, updRows d, updCols d⟩

/-- The body checks of R187. -/
def State.updBody (s : State) (c d : Nat) : Option DFault :=
  let o := updDst d
  let blk := if o.mode = 1 ∨ o.mode = 2 then o.bs else 1
  bodyFault (
    [(2, dfield d 16 2 != 1), (6, decide (3 < updRecipe d)), (6, dfield d 52 2 == 3), (6, bitOf d 55 && updRecipe d != 0),
     (7, bitOf d 56 && updRecipe d != 3), (8, updRows d == 0 || decide (128 < updRows d)),
     (9, updCols d == 0 || decide (128 < updCols d)), (9, updCols d % blk != 0), (10, decide ((s.ctx c).slices ≤ updSlice d)),
     (58, !scaleModeOk o.mode o.fmt), (59, scaleModeOk o.mode o.fmt && !rndOk (dfield d 472 2) o.fmt),
     (80, dfield d 640 48 != 0 && decide (o.mode < 2))] ++
    rsvFields d [(58, 6), (104, 24), (128, 8), (176, 16), (192, 8), (240, 16), (256, 7), (304, 16), (475, 37), (512, 8), (560, 16),
                 (576, 6), (624, 16), (640, 4), (688, 16), (752, 16), (824, 8), (912, 112)])

/-- The operand checks of R187, R388 and R246. SEMTILE must be a tile of the context whether or not SEMEN is set. A BUILD reads no
hyperparameter block and no moment: the regions of HYP and MOM are not asked for (R196). -/
def State.updReach (s : State) (t c d : Nat) : Option DFault :=
  let o := updDst d
  let w := 32 * o.base / 0x2000000
  let ok (e : Nat × Nat) : Bool :=
    s.scratchOk c e.1 e.2 && decide (e.1 / 0x2000000 = w) && decide ((e.1 + e.2 - 1) / 0x2000000 = w) && decide (w < 96) && !s.inArena w e.1 e.2
  let inExport (a : Nat) : Bool := match s.regionOf c (a / granule) with
    | some r => r.exporting
    | none => false
  if !o.exts.all ok || s.tileCtx (dfield d 904 7) != some c || inExport (updMom d) || inExport (updMst d) then some ⟨0x4012, 0⟩
  else
    let row := 32 * dfield d 416 32
    let b0 := dfield d 768 32 * dfield d 800 24
    let b1 := (dfield d 768 32 + updRows d - 1) * dfield d 800 24 + (updCols d - 1) / o.bs
    firstFault ((if updBuild d then [] else [s.rowReach t c (updMom d) 1, s.rowReach t c (dfield d 256 48) 128]) ++
      [s.rowReach t c (updMst d) 1] ++
      (List.range o.rows).map (fun r => s.rowReach t c (dfield d 512 48 + r * row) (o.rowExt r).2) ++
      (if o.mode = 0 then [] else [s.rowReach t c (dfield d 576 48) 1]) ++
      (if dfield d 640 48 = 0 then [] else [s.rowReach t c (dfield d 640 48) (16 * o.rows)]) ++
      (if dfield d 640 48 ≠ 0 ∧ o.mode = 2 then [s.rowReach t c (dfield d 704 48 + b0 / 8) (b1 / 8 - b0 / 8 + 1)] else []))

/-- Every check of a KILN.UPDATE after its header; last the second update of a slice (R189) and records that are not the
directory entry's (R211). -/
def State.updCheck (s : State) (t c step d : Nat) : Option DFault :=
  match s.updBody c d with
  | some f => some f
  | none =>
    match s.updReach t c d with
    | some f => some f
    | none =>
      let e := s.led c false (updSlice d)
      if (s.ctx c).step.updated.contains (step, updSlice d) ∨ ledMoma e ≠ updMom d ∨ ledMsta e ≠ updMst d then some ⟨0x2008, 0⟩ else none

/-! ### Issue and deferral (R188, R204, R205, R250, R258) -/

/-- Context address of an update's moment record and of its master record. -/
def State.momAddr (s : State) (u : Upd) : Nat := shadowed u.shadow (s.ctx u.ctx).shd1 (updMom u.desc)
def State.mstAddr (s : State) (u : Upd) : Nat := shadowed u.shadow (s.ctx u.ctx).shd2 (updMst u.desc)

/-- The logical granule at a context address. -/
def State.lgnOf (s : State) (c a : Nat) : Option Nat :=
  match s.translate c a with
  | .mem l _ => some l
  | _ => none

/-- Where a granule counts as lying when an update is issued (R258): in DTIER while it is evicted or relocated. -/
def PEntry.issueAt (e : PEntry) : Nat × Nat := if e.mstate = 2 ∨ e.mstate = 3 then (e.dtier, e.dloc) else (e.tier, e.loc)

/-- The granules that an update needs: each with whether it is the moment granule. A BUILD needs its master only (R196). -/
def State.updNeeds (s : State) (u : Upd) : List (Nat × Bool) :=
  (if updBuild u.desc then [] else (match s.lgnOf u.ctx (s.momAddr u) with
    | some l => [(l, true)]
    | none => [])) ++
  (match s.lgnOf u.ctx (s.mstAddr u) with
    | some l => [(l, false)]
    | none => [])

/-- Whether a needed granule is in place: moments in BANK on a stack with an active kiln group, masters in BULK. -/
def State.inPlace (s : State) (n : Nat × Bool) : Bool :=
  let p := (s.pent n.1).issueAt
  if n.2 then p.1 == 1 && (s.unit (8 + bankStack s.variant p.2)).active else p.1 == 2

/-- An update changed by f. -/
def State.modUpd (s : State) (id : Nat) (f : Upd → Upd) : State := { s with upds := s.upds.map (fun u => if u.id = id then f u else u) }

/-- Pin a granule for an update; PCNT never passes 4,095 (R250). -/
def State.pinFor (s : State) (id lgn : Nat) : State :=
  if 4095 ≤ (s.pent lgn).pcnt then s
  else (s.modPent lgn (fun e => { e with pcnt := e.pcnt + 1 })).modUpd id (fun u => { u with pins := u.pins ++ [lgn] })

/-- Deferred records in use: KLN_DEFER_QUOTA.USED. -/
def State.deferUsed (s : State) (c : Nat) : List Nat := s.upds.filterMap (fun u => if u.ctx = c then u.recNo else none)

/-- The lowest free deferred record. -/
def State.deferFree (s : State) (c : Nat) : Option Nat :=
  (List.range (s.ctx c).deferQuota).find? (fun i => !(s.deferUsed c).contains i)

/-- An update is parked: its KILN.WAIT may complete (R188). -/
def State.updDone (s : State) (id : Nat) (n : Counts) (status : Nat) : State :=
  s.modXfer id (fun f => { f with done := true, counts := f.counts.plus n, status := if status = 0 then f.status else BitVec.ofNat 16 status })

/-- Resolve an update at issue: pin what it needs, or defer it; none where it must hold at issue (R204, R205, R250). -/
def State.updResolve (s : State) (u : Upd) : Option State :=
  let needs := s.updNeeds u
  let here := needs.filter s.inPlace
  if here.any (fun n => decide (4095 ≤ (s.pent n.1).pcnt)) then none
  else if here.length = needs.length then
    some (here.foldl (fun s n => s.pinFor u.id n.1) (s.modUpd u.id (fun u => { u with stage := .issued })))
  else match s.deferFree u.ctx with
    | none => none
    | some i =>
      let s := s.modUpd u.id (fun u => { u with stage := .deferred, recNo := some i })
      let s := s.wrCa u.ctx ((s.ctx u.ctx).fbase + 256 * i) (toBytes 128 u.desc)
      let s := here.foldl (fun s n => s.pinFor u.id n.1) s
      let s := (needs.filter (fun n => !s.inPlace n)).foldl (fun s n => s.requestMove n.1 2 (if n.2 then 1 else 2)) s
      let s := s.modCtx u.ctx (fun x => { x with deferCnt := satAdd (2 ^ 32 - 1) x.deferCnt 1 })
      let e := s.led u.ctx u.shadow (updSlice u.desc)
      let s := if !updBuild u.desc ∧ ledState e = 2 ∧ ledStep e = u.step % 2 ^ 32 then s.setLedState u.ctx u.shadow (updSlice u.desc) 4 else s
      some (s.updDone u.id {} 0)

/-- 0x2009 DEFER_FULL, once for each step (R205). -/
def State.logDeferFull (s : State) (c step : Nat) : State :=
  if (s.ctx c).step.loggedDefer.contains step ∨ (s.deferFree c).isSome then s
  else (s.logDev 0x2009 (some c) 0).modStep c (fun k => { k with loggedDefer := step :: k.loggedDefer })

/-- The issue of an update that holds its tag: its slice is noted (R189), and its granules are resolved, or it is deferred, or it waits for
a deferred record (R188, R205). Gives what the instruction then waits for. -/
def State.updGo (s : State) (u : Upd) : State × Wait :=
  let s := s.modStep u.ctx (fun k => { k with updated := k.updated ++ [(u.step, updSlice u.desc)] })
  match s.updResolve u with
  | some s => (s, .none)
  | none => ((s.modUpd u.id (fun u => { u with stage := .hold })).logDeferFull u.ctx u.step, .deferRec u.id)

/-- Issue an update: it takes its tag, or waits for one, and is issued once it has it (R46, R188). -/
def State.updIssue (s : State) (t c : Nat) (st : Stream) (o d : Nat) (x : InFlight) : Ran :=
  let r := s.register t c st x o .kiln d
  let u : Upd := { id := r.2, ctx := c, tile := t, step := x.step, desc := d, stage := .tag }
  let g := State.takeTag { r.1 with upds := r.1.upds ++ [u] } c r.2 d .kiln
  if g.2 then
    let k := g.1.updGo u
    { st := k.1, fl := { x with wait := k.2 } }
  else { st := g.1, fl := { x with wait := .tag r.2 } }

/-- A waiting instruction's transfer has its tag. An update is issued then; one whose slice another update of its step names by now is
refused at its issue (R189). -/
def State.tagged (s : State) (t : Nat) (st : Stream) (x : InFlight) (f : Xfer) : State :=
  match s.upds.find? (fun u => u.id == f.id && u.stage == .tag) with
  | none => s.modSeq t st (fun q => q.modFl x.seq (fun y => { y with wait := .none }))
  | some u =>
    if (s.ctx u.ctx).step.updated.contains (u.step, updSlice u.desc) then
      let s := State.freeTags { s with upds := s.upds.filter (fun v => v.id != u.id), xfers := s.xfers.filter (fun g => g.id != f.id) } [{ f with tag := true }]
      (s.modSeq t st (fun q => { q with inflight := q.inflight.filter (fun y => y.seq != x.seq) })).progFault t st { x with wait := .none } 0x2008 0 0
    else
      let k := s.updGo u
      k.1.modSeq t st (fun q => q.modFl x.seq (fun y => { y with wait := k.2 }))

/-- TAG_GRANT: a waiting instruction's transfer takes a free tag and is sent (R260, R261). -/
def doTagGrant (t : Nat) (st : Stream) (seq : Nat) (s : State) : State :=
  match s.tagGrant t st seq with
  | some (s, x, f) => s.tagged t st x f
  | none => s

/-- TAG_GRANT. -/
def execTagGrant (t : TileId) (st : Stream) (seq : Nat) (s : State) : Host.Outcome State Fault Refusal :=
  .next (whenLive s (doTagGrant t.val st seq))

/-- KILN.UPDATE. -/
def execKilnUpdate (t : TileId) (st : Stream) (w : Insn) (s : State) : Host.Outcome State Fault Refusal :=
  .next (whenLive s (fun s => s.issueDesc t.val st opKilnUpdate w [0] (fun c o d x s =>
    match s.updCheck t.val c x.step d with
    | some f => { st := s, fl := x, fault := some f }
    | none => s.updIssue t.val c st o d x)))

/-- KILN.WAIT waits until its update has finished or been parked. -/
def execKilnWait (t : TileId) (st : Stream) (w : Insn) (s : State) : Host.Outcome State Fault Refusal :=
  .next (whenLive s (fun s => s.issueDesc t.val st opKilnWait w [0] (fun _ _ _ x s => s.consumeAt t.val st x [.kiln])))

/-- DEFER_RECORD_TAKE: the oldest held update of a context goes on where a record, or room for its pin, is free. -/
def doDeferRecordTake (c : Nat) (s : State) : State :=
  match s.upds.find? (fun u => u.ctx == c && u.stage == .hold) with
  | none => s
  | some u =>
    match s.updResolve u with
    | none => s
    | some s =>
      match s.xfers.find? (fun f => f.id == u.id) with
      | none => s
      | some f => s.modSeq f.tile (streamOf f.stream) (fun q => q.modFl f.seq (fun y => if y.wait = .deferRec u.id then { y with wait := .none } else y))

/-- DEFER_RECORD_TAKE. -/
def execDeferRecordTake (c : CtxId) (s : State) : Host.Outcome State Fault Refusal :=
  .next (whenLive s (doDeferRecordTake c.val))

/-- A deferred update whose granules have all been pinned: both have arrived, now (R204). -/
def State.noteArrival (s : State) (id : Nat) : State :=
  match s.upds.find? (fun u => u.id == id) with
  | some u =>
    if u.arrived.isNone && (s.updNeeds u).all (fun n => u.pins.contains n.1) then s.modUpd id (fun u => { u with arrived := some s.beat.now }) else s
  | none => s

/-- A granule has arrived, or room for its pin has come free: the deferred updates that need it pin it where it is in place, and ask for it
again where it is not (R204). -/
def State.deferArrive (s : State) (lgn : Nat) : State :=
  (s.upds.filter (fun u => u.stage == .deferred)).foldl (fun s u =>
    ((s.updNeeds u).foldl (fun s n =>
      if n.1 = lgn ∧ (s.pent lgn).mstate = 0 ∧ !u.pins.contains lgn then
        (if s.inPlace n then s.pinFor u.id lgn else s.requestMove lgn 2 (if n.2 then 1 else 2)) else s) s).noteArrival u.id) s

/-! ### The kiln (R190-R193, R206, R208) -/

/-- The slot read and the slot written (R197, R200). -/
def State.slotsRW (s : State) (c : Nat) : Nat × Nat :=
  if (s.ctx c).oneSlot then (0, 0) else (b2n (s.ctx c).sel, 1 - b2n (s.ctx c).sel)

/-- Bytes of one moment slot as R178 and R192 lay it out. -/
def momSlot (d : Nat) : Nat :=
  let n := updN d
  let v := match updRecipe d with
    | 1 => 2 * n
    | 3 => updRows d + updCols d + (if bitOf d 56 then n else 0)
    | _ => n
  (v * (if bitOf d 51 then 2 else 4) + 255) / 256 * 256

/-- Bytes of one master slot. -/
def mstSlot (d : Nat) : Nat := (4 * updN d + 255) / 256 * 256

/-- A moment array read as FP32 codes: n values from its i-th. -/
def State.rdMoments (s : State) (c a d i n : Nat) : List Nat :=
  if bitOf d 51 then (unpackBytes 2 (s.rdCa c (a + 2 * i) (2 * n))).map (fun x => r32 (decodeVal ((fmtOf 1).getD fp32) x))
  else unpackBytes 4 (s.rdCa c (a + 4 * i) (4 * n))

/-- The codes of moment values: FP32 as they are, or BF16 with stochastic rounding under the key of R192. -/
def momentConv (d seed step role j v : Nat) : Conv :=
  if bitOf d 51 then
    convert ((fmtOf 1).getD fp32) (rndOf 2 seed step ((dfield d 832 64 + j + role * 2 ^ 60) % 2 ^ 64)) false (v32 v)
  else ⟨v, false, false⟩

/-! ### Arithmetic that knows where its NaNs come from (R132) -/

/-- A result of operands: it is a NaN of an invalid operation where it is a NaN and no operand is, or an operand is such a NaN. -/
def Fx.of (v : Nat) (ops : List Fx) : Fx := ⟨v, isNan32 v && (ops.any (·.bad) || ops.all (fun x => !isNan32 x.code))⟩

def Fx.add (a b : Fx) : Fx := .of (fadd a.code b.code) [a, b]
def Fx.mul (a b : Fx) : Fx := .of (fmul a.code b.code) [a, b]
def Fx.div (a b : Fx) : Fx := .of (fdiv a.code b.code) [a, b]
def Fx.fma (a b c : Fx) : Fx := .of (fma32 a.code b.code c.code) [a, b, c]
def Fx.sqrt (a : Fx) : Fx := .of (fsqrt a.code) [a]
def Fx.max (a b : Fx) : Fx := .of (fmax a.code b.code) [a, b]
def Fx.neg (a : Fx) : Fx := ⟨a.code ^^^ 2 ^ 31, a.bad⟩

/-- A constant, or a value read. -/
def fx (v : Nat) : Fx := ⟨v, false⟩

/-- What a recipe gives: directions, and the new arrays with their role. -/
structure Recipe where
  dirs : List Fx
  arrays : List (Nat × List Fx)

/-- 1 − x, rounded once. -/
def Fx.oneMinus (x : Fx) : Fx := .of (fsub 0x3F800000 x.code) [x]
/-- The sign of LION: +0 for ±0, NaN for NaN. -/
def Fx.sign (x : Fx) : Fx :=
  .of (if isNan32 x.code then 0x7FC00000 else if (v32 x.code).isZero then 0 else if (v32 x.code).isNeg then 0xBF800000 else 0x3F800000) [x]
/-- A sequential sum from its first term, one rounding per addition. -/
def seqSum (l : List Fx) : Fx :=
  match l with
  | [] => {}
  | x :: r => r.foldl Fx.add x
/-- 1 ÷ n as FP32. -/
def recipNat (n : Nat) : Fx := fx (fdiv 0x3F800000 (r32 (valOfInt n)))

/-- Entry i of a list of values. -/
def at_ (l : List Fx) (i : Nat) : Fx := l.getD i {}

/-- The FACTORED recipe. -/
def factored (d : Nat) (hyp g rho kap m : List Fx) : Recipe :=
  let rows := updRows d
  let cols := updCols d
  let b1 := at_ hyp 1
  let b2 := at_ hyp 2
  let a1 := b1.oneMinus
  let a2 := b2.oneMinus
  let q := g.map (fun x => (x.mul x).add (at_ hyp 7))
  let rs := (List.range rows).map (fun r => seqSum ((List.range cols).map (fun c => at_ q (r * cols + c))))
  let cs := (List.range cols).map (fun c => seqSum ((List.range rows).map (fun r => at_ q (r * cols + c))))
  let rho' := (List.range rows).map (fun r => b2.fma (at_ rho r) (a2.mul ((at_ rs r).mul (recipNat cols))))
  let kap' := (List.range cols).map (fun c => b2.fma (at_ kap c) (a2.mul ((at_ cs c).mul (recipNat rows))))
  let mur := (seqSum rho').mul (recipNat rows)
  let u := (List.range (rows * cols)).map (fun i => (at_ g i).div (((at_ rho' (i / cols)).mul (at_ kap' (i % cols))).div mur).sqrt)
  let clip := at_ hyp 8
  let u := if Val.lt (.fin false 0 0) (v32 clip.code) then
      let z := ((seqSum (u.map (fun x => x.mul x))).mul (recipNat (rows * cols))).sqrt
      u.map (fun x => x.div ((fx 0x3F800000).max (z.div clip)))
    else u
  if bitOf d 56 then
    let m' := (m.zip u).map (fun p => b1.fma p.1 (a1.mul p.2))
    ⟨m', [(1, rho'), (2, kap'), (1, m')]⟩
  else ⟨u, [(1, rho'), (2, kap')]⟩

/-- The recipes of R191 on the gradients g and the arrays of a moment slot. -/
def runRecipe (d : Nat) (hyp g : List Fx) (arr : Nat → Nat → List Fx) : Recipe :=
  let n := updN d
  let b1 := at_ hyp 1
  let b2 := at_ hyp 2
  let a1 := b1.oneMinus
  let a2 := b2.oneMinus
  let m := arr 0 n
  match updRecipe d with
  | 0 =>
    let m' := (m.zip g).map (fun p => b1.fma p.1 p.2)
    ⟨if bitOf d 55 then (m'.zip g).map (fun p => b1.fma p.1 p.2) else m', [(1, m')]⟩
  | 1 =>
    let v := arr n n
    let m' := (m.zip g).map (fun p => b1.fma p.1 (a1.mul p.2))
    let v' := (v.zip g).map (fun p => b2.fma p.1 (a2.mul (p.2.mul p.2)))
    ⟨(m'.zip v').map (fun p => (p.1.mul (at_ hyp 5)).div ((p.2.mul (at_ hyp 6)).sqrt.add (at_ hyp 3))), [(1, m'), (2, v')]⟩
  | 2 =>
    ⟨(m.zip g).map (fun p => (b1.fma p.1 (a1.mul p.2)).sign), [(1, (m.zip g).map (fun p => b2.fma p.1 (a2.mul p.2)))]⟩
  | _ => factored d hyp g (arr 0 (updRows d)) (arr (updRows d) (updCols d)) (if bitOf d 56 then arr (updRows d + updCols d) n else [])

/-- The coefficient of R206 as an FP32 code, and whether its word is poisoned. -/
def State.coefficient (s : State) (u : Upd) : Nat × Bool :=
  let clip := dfield u.desc 52 2
  if clip = 0 then (0x3F800000, false)
  else
    let a := (s.ctx u.ctx).coefA + 4 * ((u.step + (if clip = 1 then 0 else 1)) % 2)
    (ofBytes (s.rdCa u.ctx a 4), s.rdCaPoison u.ctx a 4)

/-- A coefficient that R208 refuses: NaN, infinite or negative. -/
def coefBad (x : Nat) : Bool := !isFin32 x || ((v32 x).isNeg && !(v32 x).isZero)

/-- The stack of an update's moment granule, and the channel of its master granule. -/
def State.updStack (s : State) (u : Upd) : Nat :=
  match s.lgnOf u.ctx (s.momAddr u) with
  | some l => bankStack s.variant (s.pent l).loc
  | none => 0
def State.updChannel (s : State) (u : Upd) : Nat :=
  match s.lgnOf u.ctx (s.mstAddr u) with
  | some l => bulkCh (s.pent l).loc
  | none => 0

/-- A shard is torn (R200, R201): its unit is logged, and the step aborts without retry. -/
def State.torn (s : State) (u : Upd) (kind unit : Nat) : State :=
  let s := s.modCtx u.ctx (fun x => { x with torn := true })
  let s := s.logEvent 0x2007 (some u.ctx) 31 0 kind unit (updSlice u.desc)
  s.requestAbort u.ctx 0x2007 (some u.step) 0 false

/-- A kiln or conditioning engine read poison from slot SEL (R201, R265). -/
def State.slotPoison (s : State) (u : Upd) (kind unit : Nat) : State :=
  let s := s.logEvent 0x2002 (some u.ctx) 31 0 kind unit (updSlice u.desc)
  let s := s.modXfer u.id (fun f => { f with status := 0x2002 })
  (s.modUpd u.id (fun u => { u with stage := .failed })).torn u kind unit

/-- A kiln group met poison in the ledger, the coefficient or the hyperparameters: the step aborts (R265). -/
def State.kilnPoison (s : State) (u : Upd) : State :=
  let s := s.logEvent 0x2002 (some u.ctx) 31 0 3 (s.updStack u) (updSlice u.desc)
  let s := s.modXfer u.id (fun f => { f with status := 0x2002 })
  (s.modUpd u.id (fun u => { u with stage := .failed })).requestAbort u.ctx 0x2002 (some u.step) 0 true

/-- Whether step n is the earliest step of its context in flight: the one before it has committed (R188). -/
def State.prevCommitted (s : State) (c n : Nat) : Bool := ((s.ctx c).step.flight.filter (fun k => decide (k < n))).isEmpty

/-- The granules that an update pins are at rest. -/
def State.pinsStill (s : State) (u : Upd) : Bool := u.pins.all (fun l => (s.pent l).mstate == 0)

/-- First byte of the moment slot that an update writes. -/
def State.momDst (s : State) (u : Upd) : Nat := s.momAddr u + (s.slotsRW u.ctx).2 * momSlot u.desc

/-- The granules at which the kiln's write of moments must wait (R245). -/
def State.kilnBlocks (s : State) (u : Upd) : List Nat := s.writeBlocks u.ctx (s.momDst u) (momSlot u.desc)

/-- The places of a list that are set. -/
def setAt (l : List Bool) : List Nat := (List.range l.length).filter (fun j => l.getD j false)

/-- The elements of the arrays written that are marked: a value of ρ and κ is counted past the slice's elements (R132). -/
def arrayMarks (d : Nat) (marks : List (List Bool)) : List Nat :=
  let base (a : Nat) : Nat := if updRecipe d = 3 ∧ a < 2 then updN d + (if a = 0 then 0 else updRows d) else 0
  (List.range marks.length).flatMap (fun a => (setAt (marks.getD a [])).map (fun j => base a + j))

/-- Stage 4 of an update whose slice is COMPLETE: the kiln group's work (R188, R190-R193, R208). -/
def State.kilnRun (s : State) (u : Upd) : State :=
  let c := u.ctx
  let d := u.desc
  let k := updSlice d
  let n := updN d
  let co := s.coefficient u
  let hypA := dfield d 256 48 + 64 * (u.step % 2)
  let data := s.ledData c u.shadow k
  let rw := s.slotsRW c
  let src := s.momAddr u + rw.1 * momSlot d
  let dst := s.momDst u
  let reads := [(hypA, 64), (data, 4 * n), (src, momSlot d)] ++ (if dfield d 52 2 = 0 then [] else [((s.ctx c).coefA, 8)])
  let s := reads.foldl (fun s p => s.heatCa c p.1 p.2) s
  if coefBad co.1 && !co.2 then
    let s := s.logEvent 0x1010 (some c) 31 0 3 (s.updStack u) k
    (s.modUpd u.id (fun u => { u with stage := .failed })).requestAbort c 0x1010 (some u.step) 0 false
  else if co.2 || s.rdCaPoison c hypA 36 || s.rdCaPoison c data (4 * n) then s.kilnPoison u
  else if s.rdCaPoison c src (momSlot d) then s.slotPoison u 3 (s.updStack u)
  else
    let hyp := (s.rdWords c hypA 9).map fx
    let g := (s.rdWords c data n).map (fun x => (fx x).mul (fx co.1))
    let s := s.setLedState c u.shadow k 3
    let s := if (s.ctx c).mirror ∧ !u.shadow then s.sendUpdate c u.step d else s
    let hw (x : Upd) : Upd := { x with lr := BitVec.ofNat 32 (at_ hyp 0).code, wd := BitVec.ofNat 32 (at_ hyp 4).code, stage := .kiln }
    if bitOf d 54 && g.any (fun x => !isFin32 x.code) then
      let s := s.modCtx c (fun x => { x with nonfinCnt := satAdd 0xFFFF x.nonfinCnt 1 })
      let s := s.logEvent 0x1011 (some c) 31 0 3 (s.updStack u) k
      let s := if rw.1 = rw.2 then s else (s.heatCa c dst (momSlot d)).wrEngine c dst (s.rdCa c src (momSlot d))
      s.modUpd u.id (fun x => { hw x with skip := true })
    else
      let r := runRecipe d hyp g (fun i m => (s.rdMoments c src d i m).map fx)
      let seed := (s.ctx c).seed.toNat
      let e := if bitOf d 51 then 2 else 4
      let conv := r.arrays.map (fun a => (List.range a.2.length).map (fun j => momentConv d seed u.step a.1 j (at_ a.2 j).code))
      let s := (s.heatCa c dst (momSlot d)).wrEngine c dst (conv.flatMap (fun a => a.flatMap (fun x => toBytes e x.code)))
      let bad := setAt (g.map (·.bad)) ++ setAt (r.dirs.map (·.bad)) ++ arrayMarks d (r.arrays.map (fun a => a.2.map (·.bad))) ++
        arrayMarks d (conv.map (fun a => a.map (·.inv)))
      s.modUpd u.id (fun x => { hw x with wrote := true, dirs := r.dirs, badEls := bad.eraseDups,
                                          satEls := (arrayMarks d (conv.map (fun a => a.map (·.sat)))).eraseDups })

/-- KILN_START: an issued update runs stage 4 once the previous step has committed and its slice is COMPLETE for its step. Its write waits for
the zero fill of a FRESH granule (R245). -/
def doKilnStart (id : Nat) (s : State) : State :=
  match s.upds.find? (fun u => u.id == id && u.stage == .issued) with
  | none => s
  | some u =>
    let e := s.led u.ctx u.shadow (updSlice u.desc)
    if !updBuild u.desc && s.prevCommitted u.ctx u.step && s.pinsStill u && ledState e == 2 && ledStep e == u.step % 2 ^ 32 then
      (if (s.kilnBlocks u).isEmpty then s.kilnRun u else (s.kilnBlocks u).foldl State.unblock s)
    else s

/-- KILN_START. -/
def execKilnStart (id : Nat) (s : State) : Host.Outcome State Fault Refusal := .next (whenLive s (doKilnStart id))

/-! ### Conditioning (R194, R196, R198) -/

/-- Pack rows of masters into the working weight and its copy (R194), for a step number; `keep` leaves the carried entries as
they are (R198). Gives the elements counted as invalid and as saturated, and the overflowed blocks. -/
def State.condPack (s : State) (c d step : Nat) (keep : Bool) (ws : List Nat) : State × (List Nat × List Nat × Nat) :=
  let o := updDst d
  let ct := dfield d 640 48
  let g : PackCfg := ⟨o.fmt, o.mode, o.bs, dfield d 472 2, bitOf d 474, (s.ctx c).seed.toNat, step⟩
  let copy := dfield d 512 48
  let csc := dfield d 576 48
  (List.range o.rows).foldl (fun (a : State × (List Nat × List Nat × Nat)) r =>
    let s := a.1
    let ent := ct + 16 * r
    let entry := ofBytes (s.rdCa c ent 16)
    let base := if ct ≠ 0 then (if s.rdCaPoison c ent 16 then 0x7FC00000 else carriedBase entry step)
      else if 2 ≤ o.mode then s.rowScale o r else 0x3F800000
    let p := g.row base (((ws.drop (r * o.cols)).take o.cols).map (fun v => (v, true))) ((dfield d 832 64 + r * o.cols) % 2 ^ 64)
    let s := s.putRow (o.bit r 0) (fmtWidth o.fmt) (p.codes.map some)
    let s := if ct ≠ 0 then s.wr (32 * o.rsc + 4 * r) (toBytes 4 (usedBase base)) else s
    let s := s.putBlks o r p.blks
    let s := if ct ≠ 0 ∧ !keep then s.wrEngine c ent (toBytes 16 (carriedRecord entry step (g.recordCode base p))) else s
    let s := if ct ≠ 0 ∧ o.mode = 2 then s.putBitmap c (dfield d 704 48) ((dfield d 768 32 + r) * dfield d 800 24) p.flags else s
    let s := s.wrEngine c (copy + r * 32 * o.str) (s.rd (o.rowExt r).1 (o.rowExt r).2)
    let sc := if 2 ≤ o.mode then (4 * o.rows + 31) / 32 * 32 else 0
    let s := if 2 ≤ o.mode ∧ r = 0 then s.wrEngine c csc (List.replicate sc 0) else s
    let s := if 2 ≤ o.mode then s.wrEngine c (csc + 4 * r) (s.rd (32 * o.rsc + 4 * r) 4) else s
    let s := match o.blkExt[r]? with
      | some e => s.wrEngine c (csc + sc + r * 32 * o.bstr) (s.rd e.1 e.2)
      | none => s
    let idx (l : List Bool) : List Nat := ((List.range l.length).filter (fun j => l.getD j false)).map (fun j => r * o.cols + j)
    (s, (a.2.1 ++ idx p.inv, a.2.2.1 ++ idx p.sat, a.2.2.2 + g.ovfCount base p))) (s, ([], [], 0))

/-- Release an update's pins; a deferred update that waited for room to pin the granule takes it (R250). -/
def State.unpin (s : State) (u : Upd) : State :=
  u.pins.foldl (fun s l => (s.modPent l (fun e => { e with pcnt := e.pcnt - 1 })).deferArrive l) s

/-- The counts so far of an update that goes without finishing join those of its tile (R133). -/
def State.countUpd (s : State) (u : Upd) : State :=
  if u.shadow ∨ u.stage = .done then s else s.modTile u.tile (·.addCounts { inv := u.badEls.length, sat := u.satEls.length })

/-- Updates are cancelled: their counts so far are kept and their pins released (R133, R198). -/
def State.dropUpds (s : State) (gone : Upd → Bool) : State :=
  let l := s.upds.filter gone
  let s := l.foldl State.countUpd { s with upds := s.upds.filter (fun u => !gone u) }
  l.foldl State.unpin s

/-- Stage 6: the entry becomes APPLIED, the pins are released, and the record is freed (R188). The update is kept as done until its
step commits or aborts (R200, R203). -/
def State.updFinish (s : State) (u : Upd) (n : Counts) : State :=
  let s := if updBuild u.desc then s else s.setLedState u.ctx u.shadow (updSlice u.desc) 5
  let s := (s.unpin u).updDone u.id n 0
  let s := if u.shadow then s else s.modTile u.tile (·.addCounts (if s.xfers.any (fun f => f.id == u.id) then {} else n))
  s.modUpd u.id (fun v => { v with stage := .done, pins := [], recNo := none, dirs := [] })

/-- The semaphore of an update is signalled (R194). -/
def State.updSignal (s : State) (u : Upd) : State :=
  if bitOf u.desc 911 && !u.shadow then
    { s with rsigs := s.rsigs ++ [RSig.mk (dfield u.desc 904 7) (dfield u.desc 896 8) 1 u.ctx (some u.step) none] } else s

/-- The extents outside SCRATCH that stage 5 of an update writes, but for its masters: the copy, its scales and codes, the carried entries
and the overflow bitmap (R194). -/
def packExts (d : Nat) : List (Nat × Nat) :=
  let o := updDst d
  let sc := if 2 ≤ o.mode then (4 * o.rows + 31) / 32 * 32 else 0
  let b0 := dfield d 768 32 * dfield d 800 24
  let b1 := (dfield d 768 32 + o.rows - 1) * dfield d 800 24 + (o.cols - 1) / o.bs
  (List.range o.rows).map (fun r => (dfield d 512 48 + r * 32 * o.str, (o.rowExt r).2)) ++
  (if o.mode = 0 then [] else [(dfield d 576 48, sc + (if o.blkExt.isEmpty then 0 else (o.rows - 1) * 32 * o.bstr + ((o.blkExt.getLastD (0, 0)).2)))]) ++
  (if dfield d 640 48 = 0 then [] else [(dfield d 640 48, 16 * o.rows)]) ++
  (if dfield d 640 48 ≠ 0 ∧ o.mode = 2 then [(dfield d 704 48 + b0 / 8, b1 / 8 - b0 / 8 + 1)] else [])

/-- First bytes of the master slots that an update reads and writes, and the bytes of one (R178, R196). -/
def State.mstSlots (s : State) (u : Upd) : Nat × Nat :=
  let slot := if updBuild u.desc then 256 * ledWslot (s.led u.ctx u.shadow (updSlice u.desc)) else mstSlot u.desc
  (s.mstAddr u + (s.slotsRW u.ctx).1 * slot, s.mstAddr u + (s.slotsRW u.ctx).2 * slot)

/-- The extents outside SCRATCH that stage 5 writes. -/
def State.condExts (s : State) (u : Upd) : List (Nat × Nat) :=
  (if updBuild u.desc then [] else [((s.mstSlots u).2, 4 * updN u.desc)]) ++ (if u.shadow || u.skip then [] else packExts u.desc)

/-- The granules at which stage 5 of an update must wait: in a move, in CELLAR, or FRESH (R245, R253, R255). -/
def State.condBlocks (s : State) (u : Upd) : List Nat := ((s.condExts u).flatMap (fun p => s.writeBlocks u.ctx p.1 p.2)).eraseDups

/-- Stages 5 and 6 of an update (R194, R196). -/
def State.condRun (s : State) (u : Upd) : State :=
  let c := u.ctx
  let d := u.desc
  let n := updN d
  let build := updBuild d
  let src := (s.mstSlots u).1
  let dst := (s.mstSlots u).2
  let s := ((src, 4 * n) :: s.condExts u).foldl (fun s p => s.heatCa c p.1 p.2) s
  if s.rdCaPoison c src (4 * n) then s.slotPoison u 4 (s.updChannel u)
  else
    let w := s.rdWords c src n
    if u.skip then
      let s := if src = dst then s else s.wrEngine c dst (wordBytes (w.map (BitVec.ofNat 32)))
      (s.updSignal u).updFinish u {}
    else
      let lr := fx u.lr.toNat
      let k := (lr.mul (fx u.wd.toNat)).oneMinus
      let w' : List Fx := if build then w.map fx else (w.zip u.dirs).map (fun p => (fx p.1).fma k (lr.mul p.2).neg)
      let s := if build then s else s.wrEngine c dst (wordBytes (w'.map (fun x => BitVec.ofNat 32 x.code)))
      let p := if u.shadow then (s, ([], [], 0)) else s.condPack c d u.step false (w'.map (·.code))
      let s := if u.shadow then p.1 else p.1.modStep c (fun q => { q with rewritten := q.rewritten ++ [(u.step, d)] })
      let s := s.modUpd u.id (fun x => { x with wroteM := x.wroteM || !build })
      (s.updSignal u).updFinish u
        { inv := (u.badEls ++ setAt (w'.map (·.bad)) ++ p.2.1).eraseDups.length, sat := (u.satEls ++ p.2.2.1).eraseDups.length, ovf := p.2.2.2 }

/-- Stages 5 and 6 run, or wait for the granules they write. -/
def State.condGo (s : State) (u : Upd) : State :=
  if (s.condBlocks u).isEmpty then s.condRun u else (s.condBlocks u).foldl State.unblock s

/-- CONDITIONING: an update whose kiln work is done, or a BUILD in place after the previous commit, runs stages 5 and 6. -/
def doConditioning (id : Nat) (s : State) : State :=
  match s.upds.find? (fun u => u.id == id) with
  | none => s
  | some u =>
    if u.stage = .kiln ∨ (u.stage = .issued ∧ updBuild u.desc ∧ s.prevCommitted u.ctx u.step) then
      (if s.pinsStill u then s.condGo u else s) else s

/-- CONDITIONING. -/
def execConditioning (id : Nat) (s : State) : Host.Outcome State Fault Refusal := .next (whenLive s (doConditioning id))

/-- A parked update can run: both granules are in place and pinned, the previous step has committed and its slice is COMPLETE (R204). -/
def State.deferReady (s : State) (u : Upd) : Bool :=
  let e := s.led u.ctx u.shadow (updSlice u.desc)
  u.stage == .deferred && (s.updNeeds u).all (fun n => u.pins.contains n.1) && s.pinsStill u && s.prevCommitted u.ctx u.step &&
    (updBuild u.desc || (ledState e == 4 && ledStep e == u.step % 2 ^ 32))

/-- DEFERRED_RUN: stages 4 to 6 run on a parked update's record. Of those that can run, the one whose granules arrived first goes first
(R204). -/
def doDeferredRun (id : Nat) (s : State) : State :=
  match s.upds.find? (fun u => u.id == id) with
  | none => s
  | some u =>
    if !s.deferReady u || s.upds.any (fun v => s.deferReady v && decide (v.arrived.getD 0 < u.arrived.getD 0)) then s
    else
      let blocks := (if updBuild u.desc then [] else s.kilnBlocks u) ++ s.condBlocks u
      if !blocks.isEmpty then blocks.foldl State.unblock s
      else if updBuild u.desc then s.condRun u
      else
        let s := s.kilnRun u
        match s.upds.find? (fun v => v.id == id && v.stage == .kiln) with
        | some v => s.condRun v
        | none => s

/-- DEFERRED_RUN. -/
def execDeferredRun (id : Nat) (s : State) : Host.Outcome State Fault Refusal := .next (whenLive s (doDeferredRun id))

/-- UPDATE_RERUN: an update lost without an abort runs again from its COMPLETE slice, once; a second loss in the step aborts
it (R199). The spec names no event code for the second loss: 0x200A is not it, so the cause carries 0 (log entry 21). -/
def doUpdateRerun (id : Nat) (s : State) : State :=
  match s.upds.find? (fun u => u.id == id && (u.stage == .kiln || u.stage == .issued)) with
  | none => s
  | some u =>
    if 1 ≤ u.reruns then s.requestAbort u.ctx 0 (some u.step) 0 false
    else
      let s := (s.countUpd u).modCtx u.ctx (fun x => { x with rerunCnt := satAdd 0xFFFF x.rerunCnt 1 })
      let s := if u.stage = .kiln ∧ !updBuild u.desc then s.setLedState u.ctx u.shadow (updSlice u.desc) 2 else s
      s.modUpd id (fun u => { u with stage := .issued, dirs := [], skip := false, badEls := [], satEls := [], reruns := u.reruns + 1 })

/-- UPDATE_RERUN. -/
def execUpdateRerun (id : Nat) (s : State) : Host.Outcome State Fault Refusal := .next (whenLive s (doUpdateRerun id))

/-- LEDGER_TIMEOUT: a shard is still not done TIMEOUT beats after every stream passed its commit point (R203). -/
def doLedgerTimeout (c : Nat) (s : State) : State :=
  let k := (s.ctx c).step
  match k.flight with
  | [] => s
  | step :: _ =>
    let late := (s.upds.filter (fun u => u.ctx == c && u.step == step && u.stage != .done)).map (fun u => updSlice u.desc)
    match late with
    | [] => s
    | x :: r =>
      if (s.ctx c).timeout = 0 ∨ k.passTicks ≤ (s.ctx c).timeout ∨ k.causes.any (·.code == 0x200A) then s
      else (s.logDev 0x200A (some c) (r.foldl min x)).requestAbort c 0x200A (some step) 0 false

/-- LEDGER_TIMEOUT. -/
def execLedgerTimeout (c : CtxId) (s : State) : Host.Outcome State Fault Refusal := .next (whenLive s (doLedgerTimeout c.val))

/-! ### Mirrored updates (R209, R340) -/

/-- SHADOW_UPDATE: the buddy takes a forwarded descriptor and issues it on its shadow records by its own placement. -/
def doShadowUpdate (c step d : Nat) (s : State) : State :=
  if (s.ctx c).st ≠ .isOpen ∨ !(s.ctx c).mirror then s else
  let u : Upd := { id := s.mig.nextId, ctx := c, step := step, desc := d, stage := .hold, shadow := true }
  let s := { s with upds := s.upds ++ [u], mig := { s.mig with nextId := s.mig.nextId + 1 } }
  match s.updResolve u with
  | some s => s
  | none => s.logDeferFull c step

/-- SHADOW_UPDATE. -/
def execShadowUpdate (c : CtxId) (step : Nat) (desc : Nat) (s : State) : Host.Outcome State Fault Refusal :=
  .next (whenLive s (doShadowUpdate c.val step desc))

/-- MIRROR_SUM: the buddy writes a completed sum whole into its shadow ledger, without combining (R340); a poisoned sum
aborts the step (R336). -/
def doMirrorSum (c k step : Nat) (sum : List F32) (poison : Bool) (s : State) : State :=
  if (s.ctx c).st ≠ .isOpen ∨ !(s.ctx c).mirror then s
  else if poison then (s.logDev 0x2002 (some c) k).requestAbort c 0x2002 (some step) 0 true
  else
    let s := s.wrEngine c (s.ledData c true k) (wordBytes sum)
    let e := s.led c true k
    s.setLed c true k (setBits (setBits (setBits e 8 8 (ledExpect e)) 16 3 (if s.parked c true k step then 4 else 2)) 64 32 step)

/-- MIRROR_SUM. -/
def execMirrorSum (c : CtxId) (slice : Nat) (step : Nat) (sum : List F32) (poison : Bool) (s : State) : Host.Outcome State Fault Refusal :=
  .next (whenLive s (doMirrorSum c.val slice step sum poison))

/-- The granules at which the rebuilding of a context's weights must wait (R245, R253, R255). -/
def State.rebuildBlocks (s : State) (c : Nat) : List Nat :=
  ((s.ctx c).step.rebuild.flatMap (fun p => (packExts p.2).flatMap (fun e => s.writeBlocks c e.1 e.2))).eraseDups

/-- WEIGHT_REBUILD: the conditioning engines have rebuilt every rewritten working weight of an aborted step from slot SEL, as
step s − 1 wrote it (R198). -/
def doWeightRebuild (c : Nat) (s : State) : State :=
  if !(s.rebuildBlocks c).isEmpty then (s.rebuildBlocks c).foldl State.unblock s else
  let k := (s.ctx c).step
  let sel := (s.slotsRW c).1
  let s := k.rebuild.foldl (fun s p =>
    let src := updMst p.2 + sel * mstSlot p.2
    if s.rdCaPoison c src (4 * updN p.2) then
      s.slotPoison { id := 0, ctx := c, tile := 0, step := p.1, desc := p.2 } 4
        (s.updChannel { id := 0, ctx := c, tile := 0, step := p.1, desc := p.2 })
    else (s.condPack c p.2 (p.1 - 1) true (s.rdWords c src (updN p.2))).1) s
  s.modStep c (fun k => { k with rebuild := [] })

/-- WEIGHT_REBUILD. -/
def execWeightRebuild (c : CtxId) (s : State) : Host.Outcome State Fault Refusal := .next (whenLive s (doWeightRebuild c.val))

end Sys2Proof.Machine
end

