-- ==== Sys2Proof/Machine/Units.lean ====
section
/-! DEFINITION. Units that wake and sleep (R437-R441, R465-R468): wake requests and grants, shut-down, epochs and quarantine,
pending enables. -/

namespace Sys2Proof.Machine

/-! ### The wake budget -/

/-- Core-rail cost of a unit by its number (Table 20-3); BULK channels and conditioning engines take no budget. -/
def wakeCost (k : Nat) : Nat := if k < 8 then 10 else if k < 16 then 4 else if k < 112 then 6 else if k < 120 then 3 else 0

/-- Beats from grant to awake (Table 20-3). -/
def wakeBeats (k : Nat) : Nat := if k < 8 then 4 else if k < 120 then 1 else 0

/-- A waking unit that the part has. -/
def unitFitted (v : Variant) (k : Nat) : Bool :=
  if k < 8 then stackFitted v k else if k < 16 then stackFitted v (k - 8) else if k < 112 then true
  else if k < 120 then portFitted v (k - 112) else decide (128 ≤ k) && decide (k < 146) || decide (160 ≤ k) && decide (k < 178)

/-- Enable a unit (R441, R466): nothing where it is in service, latched while it drains, else queued for a grant. -/
def State.requestWake (s : State) (k : Nat) : State :=
  let u := s.unit k
  if !unitFitted s.variant k || u.waking || (u.active && !u.draining) then s
  else if u.draining then s.modUnit k (fun u => { u with pendEn := true })
  else { s with pwr := { s.pwr with queue := setAdd s.pwr.queue k } }

/-- Disable a unit (R440, R441, R467): a queued request leaves the queue, a latched enable is cancelled, a unit in service or
waking drains. -/
def State.shutDown (s : State) (k : Nat) : State :=
  let s := { s with pwr := { s.pwr with queue := setDel s.pwr.queue k } }
  s.modUnit k (fun u => { u with draining := u.draining || u.active || u.waking, pendEn := false, active := false, waking := false })

/-- The link ports follow LNK_PCFG.ENABLE (R349): a port enabled and out of service asks to wake, one disabled drains. -/
def State.syncPorts (s : State) : State :=
  (portsOf s.variant).foldl (fun s p =>
    let u := s.unit (112 + p)
    if bitOf (s.lnkPcfg p) 0 then s.requestWake (112 + p)
    else if u.active || u.waking || u.pendEn || s.pwr.queue.contains (112 + p) then s.shutDown (112 + p) else s) s

/-- The requests that a budget grants, in ascending wake index, and their sum (R466). -/
def grantRun (amps : Nat) : List Nat → Nat → List Nat × Nat
  | [], g => ([], g)
  | k :: r, g =>
    if amps < g + wakeCost k then ([], g) else (k :: (grantRun amps r (g + wakeCost k)).1, (grantRun amps r (g + wakeCost k)).2)

/-- WAKE_GRANT (R466): the grants of a tick. -/
def State.grantWakes (s : State) : State :=
  let free := s.pwr.queue.filter (fun k => decide (120 ≤ k))
  let r := grantRun s.wakeAmps (s.pwr.queue.filter (fun k => decide (k < 120))) 0
  let got := r.1 ++ free
  let rest := s.pwr.queue.filter (fun k => !got.contains k)
  let s := { s with pwr := { s.pwr with queue := rest, granted := r.2, waiting := rest.length } }
  got.foldl (fun s k => s.modUnit k (fun u => { u with waking := true, grantTick := s.beat.tick })) s

/-! ### Waking (R438, R465) -/

/-- The reference of a unit's epoch (Table 18-7). -/
def State.epochRef (s : State) (k : Nat) : BitVec 32 := if 112 ≤ k ∧ k < 120 then s.board.epoch else s.evt.hubEpoch

/-- Unit code and number of an event entry (Table 18-3). -/
def unitCode (k : Nat) : Nat × Nat :=
  if k < 8 then (2, k + 0xFF00) else if k < 16 then (3, k - 8) else if k < 112 then (1, k - 16) else if k < 120 then (5, k - 112)
  else if k < 160 then (0xA, k - 128 + 0xFF00) else (4, k - 160)

/-- Log an event of a unit. -/
def State.logUnit (s : State) (code k : Nat) : State := s.logEvent code none 31 0 (unitCode k).1 (unitCode k).2 0

/-- The part of a wake that every unit takes: in service; a link port then trains. -/
def State.inService (s : State) (k : Nat) : State :=
  let s := s.modUnit k (fun u => { u with active := true, waking := false, kept := false, wrap := false })
  if 112 ≤ k ∧ k < 120 then s.modPort (k - 112) (fun p => { p with st := if p.st = 0 then 1 else p.st }) else s

/-- Zero a tile's scratchpad. -/
def State.zeroTile (s : State) (t : Nat) : State := s.zero (localKey t 0) (localKey t 0 + 0x1400000)

/-- An instruction cache without lines. -/
def Seq.coldCache (q : Seq) : Seq := { q with icache := [], icPoison := [], fetching := [], prefetching := [] }

/-- Invalidate the instruction caches of a tile (R58). -/
def State.coldTile (s : State) (t : Nat) : State :=
  s.modTile t (fun x => { x with seqF := x.seqF.coldCache, seqB := x.seqB.coldCache, seqU := x.seqU.coldCache })

/-- Reload a quarantined tile as a fresh unit (Table 18-7), at CTX_OPEN naming its set or PROG_LOAD of its context. -/
def State.reloadTile (s : State) (t : Nat) : State :=
  if (s.unit (16 + t)).quar then
    let s := (s.zeroTile t).coldTile t
    (s.modUnit (16 + t) (fun u => { u with quar := false, active := true, epoch := s.evt.hubEpoch })).logUnit 0xA034 (16 + t)
  else s

/-- Write the poison pattern over every mapped frame of a tier that `on` selects, a FRESH one's too (Table 18-7). -/
def State.poisonFrames (s : State) (tier : Nat) (on : Nat → Bool) : State :=
  (s.place.filter (fun p => p.2.tier == tier && on p.2.loc)).foldl (fun s p =>
    (State.markPoison { s with poison := setAddRange s.poison (daKey tier p.2.loc 0 / 16) (granule / 16) } p.1).modPent p.1
      (fun e => { e with fresh := false, filling := false })) s

/-- The maltster rewrites a link port's G3 fields from its record of them and strobes them at the next tick (Table 18-7). -/
def State.rewritePort (s : State) (p : Nat) : State :=
  (((groupRegs s.variant 3).filter (fun o => o / 0x100000 == 16 + p && o != offLnkRemap)).foldl (fun s o => s.setShadow o (s.eff o)) s).arm 8 none true

/-- Reload a quarantined unit other than a tile (Table 18-7). -/
def State.reloadUnit (s : State) (k : Nat) : State :=
  if 16 ≤ k ∧ k < 112 then s else
  let s := if k < 8 then s.poisonFrames 1 (fun f => bankStack s.variant f == k)
           else if 128 ≤ k ∧ k < 160 then s.poisonFrames 2 (fun f => bulkCh f == k - 128)
           else if 112 ≤ k ∧ k < 120 then s.rewritePort (k - 112) else s
  ((s.inService k).modUnit k (fun u => { u with quar := false, epoch := s.epochRef k })).logUnit 0xA034 k

/-- A unit wakes with kept state: it resumes where its epoch is the reference's, else it is quarantined, and what the device
reloads by itself is reloaded (R438). -/
def State.wakeKept (s : State) (k : Nat) : State :=
  let u := s.unit k
  if !u.waking || !u.kept || decide (s.beat.tick < u.grantTick + wakeBeats k) then s
  else if u.epoch = s.epochRef k ∧ !u.wrap then s.inService k
  else
    let s := s.modUnit k (fun u => { u with quar := true, waking := false, kept := false, wrap := false })
    ((s.logUnit 0xA033 k).advanceEpoch).reloadUnit k

/-- A granted unit that kept nothing is awake: it starts fresh and takes the reference's epoch (R438, R465). -/
def State.wakeFresh (s : State) (k : Nat) : State :=
  let u := s.unit k
  if !u.waking || u.kept || decide (s.beat.tick < u.grantTick + wakeBeats k) then s
  else (s.inService k).modUnit k (fun u => { u with epoch := s.epochRef k, quar := false })

/-- The unit numbers that a command names; a tile set stands for its four tiles. -/
def unitKeys : UnitId → List Nat
  | .tset k => (List.range 4).map (fun i => 16 + 4 * k.val + i)
  | .context _ => []
  | .function _ => []
  | u => [unitKey u]

/-- UNIT_WAKE. -/
def execUnitWake (u : UnitId) (s : State) : Host.Outcome State Fault Refusal :=
  .next (whenLive s (fun s => (unitKeys u).foldl State.wakeKept s))

/-- UNIT_AWAKE. -/
def execUnitAwake (u : UnitId) (s : State) : Host.Outcome State Fault Refusal :=
  .next (whenLive s (fun s => (unitKeys u).foldl State.wakeFresh s))

/-! ### Shut-down (R440, R441) -/

/-- A draining unit has nothing left to do (Table 18-8). -/
def State.unitIdle (s : State) (k : Nat) : Bool :=
  if k < 8 then s.place.all (fun p => !(p.2.tier == 1 && bankStack s.variant p.2.loc == k))
  else if k < 16 then s.upds.all (fun u => !((u.stage == .issued || u.stage == .kiln) && s.updStack u == k - 8))
  else if k < 112 then
    let x := s.tile (k - 16)
    x.seqF.inflight.isEmpty && x.seqB.inflight.isEmpty && x.seqU.inflight.isEmpty
  else if k < 120 then (s.port (k - 112)).replay.isEmpty
  else if k < 160 then s.place.all (fun p => !(p.2.tier == 2 && bulkCh p.2.loc == k - 128))
  else s.upds.all (fun u => !((u.stage == .issued || u.stage == .kiln) && s.updChannel u == k - 160))

/-- A unit reaches IDLE, its state discarded; a latched enable applies (R438, R440, R441). A link port keeps its slot tables, and records the epoch
of its reference as it goes. -/
def State.reachIdle (s : State) (k : Nat) : State :=
  let u := s.unit k
  if !u.draining || !s.unitIdle k then s
  else
    let s := if 16 ≤ k ∧ k < 112 then s.zeroTile (k - 16) else s
    let s := if 112 ≤ k ∧ k < 120 then s.modPort (k - 112) (fun p => { p with st := 0, lanesOk := 0 }) else s
    let port := decide (112 ≤ k) && decide (k < 120)
    let s := s.modUnit k (fun u => { u with draining := false, pendEn := false, active := false,
                                            epoch := if port then s.board.epoch else 0, kept := port })
    if u.pendEn then s.requestWake k else s

/-- PENDING_ENABLE: a unit reaches IDLE, and its latched enable applies. A context does so once every frame is released, a function once its reset
is complete (Table 18-8). -/
def doPendingEnable (u : UnitId) (s : State) : State :=
  match u with
  | .context c =>
    if (s.ctx c.val).releasing.isEmpty then
      s.modCtx c.val (fun x => if x.st = .draining then { x with st := .closed } else { x with pendEn := false })
    else s
  | .function f => s.modFn f.val (fun x => { x with pendEn := x.pendEn && x.l2.isSome })
  | u => (unitKeys u).foldl State.reachIdle s

/-- PENDING_ENABLE. -/
def execPendingEnable (u : UnitId) (s : State) : Host.Outcome State Fault Refusal := .next (whenLive s (doPendingEnable u))

end Sys2Proof.Machine
end

