-- ==== Sys2Proof/Machine/Views.lean ====
section
/-! DEFINITION. Register words that other parts of the device report: the schedule registers (Table 02-3), HUB_STATE, PWR_STAT,
CFG_INTEG, LNK_BOARD and the EVT words; event entries as bytes (Table 18-2) and the fault record (Table 18-11). -/

namespace Sys2Proof.Machine

/-- ROLE: 0 standalone, 1 beat master, 2 follower. -/
def State.role (s : State) : Nat := if s.standalone then 0 else if s.board.lid = 0 then 1 else 2

/-- BEAT_STAT. -/
def State.beatStat (s : State) : Nat :=
  s.beat.periodEff + s.role * 2 ^ 16 + b2n s.beat.holdover * 2 ^ 18 + b2n s.beat.stretched * 2 ^ 19 + min s.clk 0xFFFF * 2 ^ 32 +
  ofSigned 8 s.beat.skew * 2 ^ 48

/-- No admitted instruction of an aborted step is still running on context c's tiles (R39). -/
def State.drained (s : State) (c : Nat) : Bool :=
  let n := (s.ctx c).step.nextStep
  (s.ctxTiles c).all (fun t => [Stream.F, .B, .U].all (fun st => (s.seq t st).inflight.all (fun x => decide (x.step < n))))

/-- ABORTING: an abort is draining or rebuilding. -/
def State.abortingNow (s : State) (c : Nat) : Bool :=
  (s.ctx c).step.aborting && (!(s.ctx c).step.rebuild.isEmpty || !s.drained c)

/-- GLB_STEP_STAT of context c. -/
def State.stepStat (s : State) (c : Nat) : Nat :=
  let k := (s.ctx c).step
  (if k.opened then min k.beatNo 0xFFFFFFFF else 0) + b2n k.opened * 2 ^ 32 + b2n k.pending * 2 ^ 33 + b2n (s.abortingNow c) * 2 ^ 34 +
  b2n (k.opened && k.retry) * 2 ^ 35 + b2n k.halted * 2 ^ 36 + k.abortCode.toNat * 2 ^ 48

/-- GLB_SCHED_CNT of a context. -/
def StepSt.cntWord (k : StepSt) : Nat := min k.slipCnt 0xFFFF + min k.abortCnt 0xFFFF * 2 ^ 16 + min k.ovrCnt 0xFFFFFFFF * 2 ^ 32

/-- RING_ACT: the sides that some die uses. -/
def State.ringAct (s : State) : Nat := (List.range 4).foldl (fun a q => a ||| smGet 0 s.hub.sides q) 0

/-- HUB_STATE. -/
def State.hubState (s : State) : Nat :=
  s.hub.mode + s.qst 0 * 2 ^ 8 + s.qst 1 * 2 ^ 10 + s.qst 2 * 2 ^ 12 + s.qst 3 * 2 ^ 14 + s.ringAct * 2 ^ 16 + s.hub.chgTick % 2 ^ 32 * 2 ^ 32

/-- PWR_STAT. -/
def State.pwrStat (s : State) : Nat :=
  s.pwr.vin % 2 ^ 16 + s.pwr.pin % 2 ^ 16 * 2 ^ 16 + s.pwr.tj % 2 ^ 11 * 2 ^ 32 + s.pwr.tcool % 2 ^ 11 * 2 ^ 43 +
  b2n (decide (0 < s.pwr.k)) * 2 ^ 54 + b2n s.pwr.vinRange * 2 ^ 55

/-- CFG_INTEG. -/
def State.cfgInteg (s : State) : Nat :=
  s.cfg.mismatch.toNat + s.refsOn * 2 ^ 16

/-- The coordinator: the lowest active logical ID not failed (R328). -/
def State.coordinator (s : State) : Option Nat := (List.range s.board.nact).find? (fun l => !bitOf s.board.failed.toNat l)

/-- This module is the coordinator. -/
def State.isCoord (s : State) : Bool := !s.standalone && s.coordinator == some s.board.lid

/-- LNK_BOARD. -/
def State.lnkBoard (s : State) : Nat :=
  s.board.lid + s.board.slot % 16 * 2 ^ 4 + s.board.nact % 16 * 2 ^ 8 + b2n s.board.spareOk * 2 ^ 12 + b2n s.board.auto * 2 ^ 13 +
  b2n s.isCoord * 2 ^ 14 + s.board.mcmp % 64 * 2 ^ 16 + b2n s.board.mcmpEn * 2 ^ 22 + s.board.epoch.toNat * 2 ^ 32

/-- EVT_TAIL: the oldest entry held. -/
def State.evtTail (s : State) : Nat :=
  match s.evt.log.getLast? with
  | some e => e.seq
  | none => s.evt.next

/-- EVT_RST. -/
def State.evtRst (s : State) : Nat :=
  s.evt.rstLevel + s.evt.rstCode.toNat * 2 ^ 16 + min s.evt.l3Cnt 0xFFFF * 2 ^ 32 + min s.evt.l4Cnt 0xFFFF * 2 ^ 48

/-- EVT_ALERT: ALERT# is asserted while an L4 is requested. -/
def State.evtAlert (s : State) : Nat := b2n s.evt.reqL4 * 3

/-- An event entry (Table 18-2). -/
def Event.word (e : Event) : Nat :=
  e.seq % 2 ^ 64 + e.code.toNat * 2 ^ 64 + (e.ctx.getD 0) % 16 * 2 ^ 80 + b2n e.ctx.isSome * 2 ^ 84 + e.fn % 32 * 2 ^ 85 +
  e.level % 8 * 2 ^ 90 + e.tick % 2 ^ 32 * 2 ^ 96 + e.unitNo % 2 ^ 24 * 2 ^ 128 + e.unitKind % 256 * 2 ^ 152 + e.info.toNat * 2 ^ 160

/-- The event as its 32 bytes. -/
def Event.bytes (e : Event) : List Byte := toBytes 32 e.word

/-- Whether the viewer f reads an entry; 16 is the management connector. -/
def State.views (s : State) (f : Nat) (e : Event) : Bool := decide (16 ≤ f) || s.mayRead f e

/-- The L3s within the last 3,600 s of 600 × 10^6 clk. -/
def State.l3Hour (s : State) : Nat := s.evt.l3Times.countP (fun t => decide (s.beat.now < t + 3600 * 600000000))

/-- The fault record as viewer f receives it (Table 18-11): RECENT holds only what f may read. -/
def State.faultRecord (s : State) (f : Nat) : List Byte :=
  let recent := s.evt.log.filter (fun e => decide (3 ≤ e.level))
  let newest := recent.head?
  toBytes 4 0x46523031 ++ toBytes 4 256 ++ toBytes 8 s.evt.next ++ toBytes 8 s.evtAlert ++ toBytes 2 s.evt.l4Code.toNat ++
  toBytes 2 ((newest.map (fun e => e.code.toNat)).getD 0) ++ toBytes 4 ((newest.map (·.tick)).getD 0) ++ toBytes 8 s.evt.hubEpoch.toNat ++
  toBytes 8 s.evtRst ++ toBytes 8 s.hubState ++ toBytes 8 s.pwrStat ++ toBytes 8 s.cfgInteg ++ toBytes 8 s.lnkBoard ++
  toBytes 4 ((s.beat.now - s.evt.since) / 600000000) ++ toBytes 4 s.l3Hour ++
  toBytes 2 (b2n s.evt.wdog + b2n (!s.evt.wdog && s.live) * 2) ++ toBytes 6 0 ++
  (List.range 5).flatMap (fun i => match recent[i]? with
    | some e => if s.views f e then e.bytes else toBytes 32 0
    | none => toBytes 32 0)

end Sys2Proof.Machine
end

