-- ==== Sys2Proof/Machine/Recovery.lean ====
section
/-! DEFINITION. Unloading a program and closing a context (R387, R389), the recovery levels L2, L3 and L4 (R428-R435), the boot of a
bundle slot (R446-R449), and the rows WATCHDOG, MALTSTER_UE, LEVEL_L3 and L4_REQUEST. -/

namespace Sys2Proof.Machine

/-! ### Programs and contexts -/

/-- The logical granules of mapped memory under n bytes from ca. -/
def State.lgnsUnder (s : State) (c ca n : Nat) : List Nat :=
  if n = 0 then [] else
  (List.range ((ca + n - 1) / granule - ca / granule + 1)).filterMap (fun i =>
    match s.regionOf c (ca / granule + i) with
    | some r => if r.host then none else some (r.lgn (ca / granule + i))
    | none => none)

/-- The granules that the maltster pins (R241 MPIN): coefficient block, cask spill areas, deferred area, and the program's. -/
def State.mpins (s : State) (c : Nat) : List Nat :=
  s.lgnsUnder c (s.ctx c).coefA 8 ++
  (s.ctxTiles c).flatMap (fun t =>
    let k := (s.tile t).cask
    s.lgnsUnder c (k.gbase1 * granule) (k.lim1 * granule) ++ s.lgnsUnder c (k.gbase2 * granule) (k.lim2 * granule)) ++
  s.lgnsUnder c (s.ctx c).fbase (256 * (s.ctx c).deferQuota) ++
  (match (s.ctx c).prog with
    | some p => p.pinned
    | none => [])

/-- Set MPIN of context c's granules anew. -/
def State.repin (s : State) (c : Nat) : State :=
  let want := s.mpins c
  (s.ctx c).regions.foldl (fun s r => r.lgns.foldl (fun s l => s.modPent l (fun e => { e with mpin := want.contains l })) s) s

/-- A sequencer without a program: its registers at reset, its count of misses kept. -/
def Seq.unloaded (q : Seq) : Seq := { ({} : Seq) with icMiss := q.icMiss, icVictims := q.icVictims }

/-- A cask without an arena: the spill areas and the count of drops stay (R164). -/
def Cask.unloaded (k : Cask) : Cask :=
  { ({} : Cask) with gcnt1 := k.gcnt1, gbase1 := k.gbase1, lim1 := k.lim1, gcnt2 := k.gcnt2, gbase2 := k.gbase2, lim2 := k.lim2, dropCnt := k.dropCnt }

/-- A tile whose program is unloaded: the sequencers, the record rings and the arena return to their reset values (DESIGN CHOICE, log
entry 22). -/
def Tile.unloaded (x : Tile) : Tile :=
  { x with seqF := x.seqF.unloaded, seqB := x.seqB.unloaded, seqU := x.seqU.unloaded, cask := x.cask.unloaded }

/-- Unload the program of context c: its pins go, and what the load wrote returns to reset. -/
def State.unloadProg (s : State) (c : Nat) : State :=
  match (s.ctx c).prog with
  | none => s
  | some p =>
    let s := p.tiles.foldl (fun s t => (s.modTile t Tile.unloaded).freeUnits t) s
    (s.modCtx c (fun x => { x with prog := none, lbase := 0, dbase := 0, slices := 0,
                                   step := { x.step with armed := false, running := false, waitOpen := false, retryNext := false } })).repin c

/-- The counts of transfers that nothing will consume join those of the tile that issued them (R133). -/
def State.keepCounts (s : State) (l : List Xfer) : State := l.foldl (fun s f => s.modTile f.tile (·.addCounts f.counts)) s

/-- Tracked transfers are cancelled: their tags are free from the next clk on, and what they hold or ask for at an arbiter is withdrawn
(R36, R260, R311). -/
def State.cancelXfers (s : State) (gone : Xfer → Bool) : State :=
  let l := s.xfers.filter gone
  (State.withdraw { (s.keepCounts l) with xfers := s.xfers.filter (fun x => !gone x) } (fun tx => match tx with
    | .xfer id => l.any (fun f => f.id == id)
    | _ => false)).freeTags l

/-- Everything in flight that belongs to context c goes. -/
def State.dropWork (s : State) (c : Nat) : State :=
  let s := (s.dropUpds (fun u => u.ctx == c)).cancelXfers (fun x => x.ctx == c)
  { s with contribs := s.contribs.filter (fun x => x.ctx != c), rsigs := s.rsigs.filter (fun r => r.ctx != c),
           heldWrites := s.heldWrites.filter (fun w => w.ctx != c),
           board := { s.board with scalars := s.board.scalars.filter (fun m => m.ctx != c) } }

/-- Unmap a region (R247): it leaves translation at once, its moves are cancelled (R255), and it drains. -/
def State.unmapRegion (s : State) (c : Nat) (r : Region) : State :=
  let s := s.cancelMoves r.lgns
  let s := r.lgns.foldl (fun s l => s.modPent l (fun e => { e with hpin := false })) s
  s.modCtx c (fun x => { x with regions := x.regions.filter (fun q => q != r), releasing := if r.host then x.releasing else x.releasing ++ [r] })

/-- What a context number keeps when its context closes: the counters that only an L3 clears, and the regions still draining. -/
def Ctx.closed (x : Ctx) : Ctx :=
  { ({} : Ctx) with
      st := if x.releasing.isEmpty then .closed else .draining, releasing := x.releasing, promo := x.promo, evict := x.evict,
      rerunCnt := x.rerunCnt, nonfinCnt := x.nonfinCnt, deferCnt := x.deferCnt,
      step := { ({} : StepSt) with slipCnt := x.step.slipCnt, abortCnt := x.step.abortCnt, ovrCnt := x.step.ovrCnt } }

/-- Close a context (R387). Its granules drain charged to no context. A retry that it still owed lengthens no further beat (DESIGN CHOICE,
log entry 96). -/
def State.closeCtx (s : State) (c : Nat) : State :=
  let tiles := s.ctxTiles c
  let s := { s with beat := { s.beat with retries := setDel s.beat.retries c } }
  let s := (s.unloadProg c).dropWork c
  let s := (s.ctx c).regions.foldl (fun s r =>
    (r.lgns.foldl (fun s l => s.modPent l (fun e => { e with mpin := false })) s).unmapRegion c r) s
  let s := { s with place := smMap {} s.place (fun _ e => if e.ctx = c ∧ e.tier ≠ 0 then { e with ctx := 16 } else e) }
  let s := tiles.foldl (fun s t => (s.modTile t (fun x => { x with cask := { ({} : Cask) with dropCnt := x.cask.dropCnt } })).shutDown (16 + t)) s
  let s := { s with board := { s.board with part := smSet 0 s.board.part c 0 } }
  s.modCtx c Ctx.closed

/-! ### Function resets (R429, R476) -/

/-- A function's mailbox at reset: HELLO comes first; a command in service, detached work and what they wrote run on (R377). -/
def Fn.boxReset (x : Fn) : Fn := { x with done := false, reset := true, needHello := true, seq := 0, pba := 0, quote := [], quoteOff := 0 }

/-- The RW-I registers of function f: window, flag ranges and MSI-X table. -/
def fnOffset (f off : Nat) : Bool :=
  (decide (0x1800000 + 0x1000 * f ≤ off) && decide (off < 0x1801000 + 0x1000 * f)) ||
  (decide (0x1820000 + 0x1000 * f ≤ off) && decide (off < 0x1821000 + 0x1000 * f))

/-- Reset the mailbox, window, flag ranges and MSI-X table of a function; `cfg` also its configuration space. -/
def State.fnReset (s : State) (f : Nat) (cfg : Bool) : State :=
  let s := { s with rwi := s.rwi.filter (fun p => !fnOffset f p.1), rwiNew := s.rwiNew.filter (fun p => !fnOffset f p.1) }
  s.modFn f (fun x => let x := x.boxReset; if cfg then { x with bme := false, winLog2 := 0 } else x)

/-! ### L2 (R429) -/

/-- Zero the pool pieces of context c. -/
def State.zeroPools (s : State) (c : Nat) : State :=
  (List.range 4).foldl (fun s d => (bitList 32 ((s.ctx c).pools.getD d 0).toNat).foldl (fun s k =>
    s.zero (0xC0000000 + d * 0x4000000 + k * 0x100000) (0xC0000000 + d * 0x4000000 + (k + 1) * 0x100000)) s) s

/-- Semaphores at 0. -/
def Tile.noSems (x : Tile) : Tile := { x with sems := [], semStart := [], semOps := [], snaps := [] }

/-- The cause that RESET_FUNC gives an L2, its command code; an FLR gives 0 (DESIGN CHOICE, log entry 24). -/
def causeResetFunc : Nat := 0x0090

/-- The steps of an L2 after the abort (R429). The retry that an abort may have promised does not come, and lengthens no further beat
(DESIGN CHOICE, log entry 96). -/
def State.l2Body (s : State) (f c cause : Nat) : State :=
  let s := (s.endDetached c).unloadProg c
  let s := State.dropWork { s with beat := { s.beat with retries := setDel s.beat.retries c } } c
  let s := (s.ctxTiles c).foldl (fun s t => ((s.zeroTile t).coldTile t).modTile t Tile.noSems) s
  let s := s.zeroPools c
  let s := s.modStep c (fun k => { k with armed := false, running := false, waitOpen := false, halted := false, aborting := false, retry := false,
                                          retryNext := false, rewritten := [], rebuild := [], updated := [], causes := [], hostAbort := false })
  let s := s.fnReset f (cause != causeResetFunc)
  s.modFn f (fun x => { x with l2 := none, served := if cause = causeResetFunc then 0 else x.served, lost := if cause = causeResetFunc then 0 else x.lost })

/-- A STEP_ABORT, or an L2, asks for an abort of every step in flight; it names no event (R390). -/
def State.hostAbort (s : State) (c : Nat) : State :=
  (s.requestAbort c 0 none 0 false).modStep c (fun k => { k with hostAbort := true })

/-- L2 of a function and its context: at once where no step is in flight, else after the abort tick. -/
def State.startL2 (s : State) (f cause : Nat) : State :=
  if (s.fn f).l2.isSome then s.logEvent 0xA031 (s.fnCtx f) f 0 7 f cause else
  let s := (s.logLevel 2 (s.fnCtx f) f cause).advanceEpoch
  match s.fnCtx f with
  | none => (s.fnReset f (cause != causeResetFunc)).modFn f (fun x => if cause = causeResetFunc then { x with served := 0, lost := 0 } else x)
  | some c =>
    let s := s.modCtx c (fun x => { x with lastLevel := 2, lastCode := BitVec.ofNat 16 cause, l2Cnt := satAdd 0xFFFF x.l2Cnt 1 })
    if s.idle c then s.l2Body f c cause
    else (s.hostAbort c).modFn f (fun x => { x with l2 := some (BitVec.ofNat 16 cause) })

/-! ### L4 requests (R435) -/

/-- Request L4: REQ_L4, ALERT#, 0xA032, and the fault record's copy (R427). -/
def State.requestL4 (s : State) (code : Nat) : State :=
  if s.evt.reqL4 then s else
  let s := State.logDev { s with evt := { s.evt with reqL4 := true, l4Code := BitVec.ofNat 16 code } } 0xA032 none code
  { s with evt := { s.evt with norRecord := s.faultRecord 16 } }

/-! ### Boot (R446-R449, R409) -/

/-- The bytes of a bundle's section of a type, by its directory (R397); none where the directory names it not. -/
def bundleSection (l : List Byte) (ty : Nat) : List Byte :=
  let n := ofBytes ((l.drop 14).take 2)
  match (List.range n).find? (fun i => ofBytes ((l.drop (64 + 16 * i)).take 2) == ty) with
  | none => []
  | some i => (l.drop (ofBytes ((l.drop (68 + 16 * i)).take 4))).take (ofBytes ((l.drop (72 + 16 * i)).take 4))

/-- A slot verifies (R446). -/
def State.slotOk (s : State) (b : Bundle) (sig : Bool) : Bool :=
  sig && b.gen == 1 && bitOf b.variantMask.toNat (variantNo s.variant) && decide (s.boot.ctr ≤ b.version)

/-- A slot that fails is logged with its slot and VERSION: 0 the active slot, 1 the other (DESIGN CHOICE, log entry 25). -/
def State.slotFail (s : State) (slot : Nat) (b : Bundle) : State :=
  let s := s.logDev 0x8001 none (slot + 2 ^ 32 * b.version)
  if b.version < s.boot.ctr then s.logDev 0x8003 none (slot + 2 ^ 32 * b.version) else s

/-- Recovery mode (R447). -/
def State.enterRecovery (s : State) : State := { s with boot := { s.boot with recovery := true } }

/-- The previous bundle takes the place of the one in probation, whose slot is marked empty (R400). -/
def State.revert (s : State) : State :=
  let s := s.logDev 0xA004 none s.boot.active.version
  { s with boot := { s.boot with active := s.boot.other, activeSig := s.boot.otherSig && s.boot.otherSt == .fallback, bundleBytes := s.boot.otherBytes, other := Bundle.reset,
                                 otherSig := true, otherBytes := [], otherSt := .empty, probation := false,
                                 recovery := s.boot.otherSt != .fallback } }

/-- The ROM checks the slots and picks the bundle that boots; with none the device is in recovery mode. -/
def State.pickBundle (s : State) : State :=
  let s := { s with boot := { s.boot with recovery := false } }
  if s.boot.ctrLost then (s.logDev 0x8004 none 0).enterRecovery
  else if s.slotOk s.boot.active s.boot.activeSig then s
  else
    let s := s.slotFail 0 s.boot.active
    if s.boot.probation ∧ s.boot.otherSt = .fallback then
      let s := s.revert
      if s.slotOk s.boot.active s.boot.activeSig then s else (s.slotFail 1 s.boot.active).enterRecovery
    else State.enterRecovery { s with boot := { s.boot with probation := false } }

/-- MODE or QSTATE changes (R313 CHG_TICK). -/
def State.setMode (s : State) (m : Nat) : State := { s with hub := { s.hub with mode := m, chgTick := s.beat.tick % 2 ^ 32 } }

/-- Every waking unit of the part. -/
def State.allUnits (s : State) : List Nat := (List.range 178).filter (fun k => unitFitted s.variant k)

/-- The maltster writes REG_DEFAULTS and strobes the groups it names, sets every reference, and sets BEAT_CTL.ENABLE (R409); a
PERIOD in it becomes the base period (R469). -/
def State.bootRegs (s : State) : State :=
  let l := s.boot.active.regDefaults.map (fun p => (p.1, p.2.toNat))
  let s := s.maltsterSet l
  let s := { s with pwr := { s.pwr with base := bits (s.eff 0x100) 0 16, k := 0 } }
  let s := (List.range 16).foldl State.keepRef s
  s.maltsterSet [(0x100, s.shadowNow 0x100 ||| 2 ^ 26)]

/-- The firmware and the bundle are measured (R446). -/
def State.measure (s : State) : State :=
  { s with boot := { s.boot with fwDig := sha3_512 (bundleSection s.boot.bundleBytes 1), bundleDig := sha3_512 s.boot.bundleBytes } }

/-- The firmware of the booted bundle runs: measurements, registers, wake requests, and MODE NORMAL (R463). In recovery mode the ROM
serves alone. -/
def State.bootUp (s : State) : State :=
  let s := s.pickBundle
  let s := { s with evt := { s.evt with since := s.beat.now } }
  if s.boot.recovery then s else
  let s := s.measure.bootRegs
  let s := { s with pwr := { s.pwr with queue := s.allUnits.filter (fun k => !(decide (112 ≤ k) && decide (k < 120)) || bitOf (s.lnkPcfg (k - 112)) 0) } }
  let s := { s with hub := { s.hub with lfsrClk := s.beat.now, lfsrSeed := s.arbSeed } }
  s.setMode 2

/-! ### L3 (R428-R433) -/

/-- The causes of an L3 that are no failure of a bundle in probation (R400): RESET_DEVICE, CFG_COMMIT and CFG_REVERT, by command
code. -/
def commandedL3 (cause : Nat) : Bool := cause == 0x0091 || cause == 0x0081 || cause == 0x0082

/-- Whether an update of context c has written over its record (R200). -/
def State.midUpdate (s : State) (c : Nat) : Bool := (s.ctx c).oneSlot && s.upds.any (fun u => u.ctx == c && (u.wrote || u.wroteM))

/-- A context as an L3 with MOD_KEEP 1 reopens it: FROZEN under its function (R431). -/
def State.reopened (s : State) (c cause : Nat) : Ctx :=
  let x := s.ctx c
  if x.st != .isOpen then {} else
  { x with frozen := true, orig := x.owner, prog := none, tables := [], releasing := [], pendEn := false, torn := x.torn || s.midUpdate c,
           lbase := 0, dbase := 0, slices := 0, lastLevel := 3, lastCode := BitVec.ofNat 16 cause, rerunCnt := 0, nonfinCnt := 0,
           deferCnt := 0, promo := 0, evict := 0, cmbFull := false,
           step := { ({} : StepSt) with lastCommit := x.step.lastCommit } }

/-- Units after an L3: powered down; a channel, and with MOD_KEEP a stack, with its state kept under the epoch it left with. -/
def State.l3Units (s : State) (keep : Bool) : SMap UnitSt :=
  s.allUnits.foldl (fun m k =>
    let kept := (decide (128 ≤ k) && decide (k < 146)) || (keep && decide (k < 8))
    let u : UnitSt := { kept := kept && (s.unit k).active, epoch := if kept && (s.unit k).active then s.evt.hubEpoch else 0 }
    smSet {} m k u) []

/-- Placement entries after an L3 that keeps memory: no move, no update's pin. -/
def PEntry.afterL3 (e : PEntry) : PEntry := { e with mstate := 0, dtier := 0, dloc := 0, pcnt := 0, filling := false }

/-- The bytes, poison and headers that outlive an L3: with MOD_KEEP all of BANK, BULK and CELLAR. -/
def State.l3Mem (s : State) (keep : Bool) : State :=
  if keep then { s with mem := smErase s.mem 0 (2 ^ 46), poison := s.poison.filter (fun w => decide (2 ^ 42 ≤ w)),
                        hdrs := smErase s.hdrs 0 (2 ^ 34) }
  else { s with mem := smErase s.mem 0 (3 * 2 ^ 46), poison := s.poison.filter (fun w => decide (3 * 2 ^ 42 ≤ w)), hdrs := smErase s.hdrs 0 (3 * 2 ^ 34),
                hdrPoison := s.hdrPoison.filter (fun k => decide (3 * 2 ^ 34 ≤ k)) }

/-- A checkpoint whose seal has not ended is freed: it was never sealed (R391). -/
def State.dropSeals (s : State) : State :=
  (List.range 16).foldl (fun s f => (s.fn f).detached.foldl (fun s k => match k.wait with
    | .sealCel id _ _ => s.freeCkpt k.ctx id
    | _ => s) s) s

/-- The state that an L3 leaves before the ROM runs (Tables 18-4 and 18-5). -/
def State.wipeL3 (s : State) (cause : Nat) (keep : Bool) : State :=
  let s := s.dropSeals
  let s := s.cancelMoves (s.place.map (·.1))
  let s := (List.range 16).foldl (fun s c => (s.freeGranules ((s.ctx c).releasing.flatMap Region.lgns)).unloadProg c) s
  let s := if keep then { s with place := smMap {} s.place (fun _ e => if (s.ctx e.ctx).st = .isOpen ∧ e.ctx < 16 then e.afterL3 else {}) }
           else s.freeGranules (s.place.map (·.1))
  let ctxs : SMap Ctx := if keep then (List.range 16).foldl (fun m c => smSet {} m c (s.reopened c cause)) [] else []
  let units := s.l3Units keep
  let s := s.l3Mem keep
  let s := if keep then s else s.advanceEpoch
  let clr (r : RasUnit) : RasUnit := { r with ce := 0, ue := 0 }
  let z : State := State.reset
  let cel := { s.cel with credit := 0x800 * 1048576, frac := 0, throttled := false, retries := 0, rebuilds := 0, lost := 0,
                          blkRet := 0, dirs := [] }
  { z with
    variant := s.variant, ctxs := ctxs, units := units, mem := s.mem, poison := s.poison, hdrs := s.hdrs, hdrPoison := s.hdrPoison, place := s.place,
    beat := { z.beat with now := s.beat.now, tickClk := s.beat.now, beatOut := s.beat.beatOut },
    hports := smMap {} s.hports (fun _ p => { p with downCnt := 0, parkFull := 0, ridWide := 0 }),
    mig := { z.mig with nextId := s.mig.nextId, maps := s.mig.maps },
    ras := { s.ras with stk := smMap {} s.ras.stk (fun _ r => clr r), ch := smMap {} s.ras.ch (fun _ r => clr r), scrCe := 0, scrUe := 0,
                        netCe := 0, netUe := 0, rowCe := [] },
    board := { z.board with slot := s.board.slot, epoch := s.board.epoch, opens := s.board.opens },
    cel := cel,
    evt := { s.evt with cls := [], wdog := false, wdogTicks := 0 },
    boot := { s.boot with staging := none, test := false, pufFail := false, rootHeld := true, boots := s.boot.boots + 1 },
    pwr := { z.pwr with powered := s.pwr.powered, coreRails := s.pwr.coreRails, pwrOk := s.pwr.pwrOk, vin := s.pwr.vin, pin := s.pwr.pin,
                        tj := s.pwr.tj, tcool := s.pwr.tcool, vinRange := s.pwr.vinRange, clkOk := s.pwr.clkOk },
    outbox := s.outbox, pending := s.pending }

/-- An L3 completes once nothing holds it. -/
def State.endL3 (s : State) : State := State.bootUp { s with pwr := { s.pwr with l3 := .none } }

/-- L3 of the device (R428): logged, counted, its fault record copied; a bundle in probation that it fails is rejected (R400); the core
restarts, or is held. -/
def State.startL3 (s : State) (cause : Nat) (keep : Bool) (hold : L3State) : State :=
  let s := s.logLevel 3 none 31 cause
  let s := { s with evt := { s.evt with norRecord := s.faultRecord 16 } }
  let hour := s.l3Hour + 1
  let limit := bits s.evtCfg 16 8
  let s := if s.boot.probation && !commandedL3 cause then
      s.revert else s
  let s := s.wipeL3 cause keep
  let s := { s with evt := { s.evt with
      rstLevel := 3, rstCode := BitVec.ofNat 16 cause, l3Cnt := satAdd 0xFFFF s.evt.l3Cnt 1, l3Times := s.beat.now :: s.evt.l3Times } }
  let s := if limit < hour then s.requestL4 cause else s
  if hold = .none then s.endL3 else { s with pwr := { s.pwr with l3 := hold } }

/-- L3 as the maltster and hub take it: MOD_KEEP decides what stays. -/
def State.takeL3 (s : State) (cause : Nat) : State := s.startL3 cause s.modKeep .none

/-! ### The rows -/

/-- WATCHDOG: the maltster's watchdog expires: logged, FAIL set in the markers, and L3 follows at the second tick (R435). -/
def doWatchdog (s : State) : State :=
  if s.evt.wdog then s else
  let s := s.logDev 0xA030 none 0
  { s with evt := { s.evt with wdog := true, wdogTicks := 0 }, board := { s.board with fail := true } }

/-- WATCHDOG. -/
def execWatchdog (s : State) : Host.Outcome State Fault Refusal := .next (whenLive s doWatchdog)

/-- MALTSTER_UE: an uncorrectable word in the maltster's memory takes L3 (R433). -/
def execMaltsterUe (s : State) : Host.Outcome State Fault Refusal :=
  .next (whenLive s (fun s => (s.logDev 0xA035 none 0).takeL3 0xA035))

/-- LEVEL_L3: the device takes recovery level L3 for a cause; one that meets an L3 under way is logged with LEVEL 0 (R432). -/
def doLevelL3 (cause : Nat) (s : State) : State :=
  if s.pwr.l3 = .none then whenLive s (fun s => s.takeL3 cause)
  else if s.pwr.powered && s.pwr.clkOk then s.logEvent 0xA031 none 31 0 0 0 cause else s

/-- LEVEL_L3. -/
def execLevelL3 (cause : BitVec 16) (s : State) : Host.Outcome State Fault Refusal := .next (doLevelL3 cause.toNat s)

/-- L4_REQUEST: the maltster or the hub requests L4 (R435). -/
def execL4Request (code : BitVec 16) (s : State) : Host.Outcome State Fault Refusal :=
  .next (if s.pwr.powered then s.requestL4 code.toNat else s)

/-- CFG_INTEG_COMPARE: clk 1 of every beat (R414). -/
def execCfgIntegCompare (s : State) : Host.Outcome State Fault Refusal :=
  .next (whenLive s (fun s =>
    if s.clk = 1 ∧ s.beatEnable = true then (List.range 16).foldl (compareGroup (fun s => s.takeL3 0xA010)) s else s))

end Sys2Proof.Machine
end

