-- ==== Sys2Proof/Machine/Bridges.lean ====
section
/-! DEFINITION. The bridges and quadrants of the hub (R298-R305): the rows BRIDGE_RETRAIN, BRIDGE_TRAIN_DONE and
QUAD_SELF_CHECK_FAULT. What a row sends over a bridge or the ring it has delivered and seen acknowledged within the row, once and in order: no flit
of it is left for a replay (DESIGN CHOICE, log entry 105). -/

namespace Sys2Proof.Machine

/-- MODE is NORMAL or DEGRADED: contexts may run. -/
def State.inService2 (s : State) : Bool := s.hub.mode == 2 || s.hub.mode == 3

/-- QSTATE of a quadrant changes: CHG_TICK, BYPASS_CNT, and MODE by Table 12-3. -/
def State.setQstate (s : State) (q v : Nat) : State :=
  let was := s.qst q
  let enters := (v == 1 || v == 2) && was != 1 && was != 2
  let s := { s with hub := { s.hub with
      qstate := smSet 0 s.hub.qstate q v, chgTick := s.beat.tick % 2 ^ 32,
      bypassCnt := if enters then satAdd 0xFFFF s.hub.bypassCnt 1 else s.hub.bypassCnt } }
  if s.inService2 then s.setMode (if (List.range 4).all (fun i => s.qst i == 0) then 2 else 3) else s

/-- A die on the ring that no NORMAL neighbour serves, or that may not use the ring (R301). -/
def State.dieCut (s : State) (q : Nat) : Bool := s.onRing q && s.openSides q == 0

/-- The sides of each die become what `f` gives; the ring carries traffic where some die has one. -/
def State.setSides (s : State) (f : Nat → Nat) : State :=
  let m := (List.range 4).foldl (fun m q => smSet 0 m q (f q)) s.hub.sides
  { s with hub := { s.hub with sides := m, carried := s.hub.carried || (List.range 4).any (fun q => f q != 0) } }

/-- A change of QSTATE takes the ring sides that it closes (R305): a die keeps those of its sides that still lead to a NORMAL neighbour, and
one left with none takes every such side. -/
def State.dropSides (s : State) : State :=
  s.setSides (fun q =>
    let k := smGet 0 s.hub.sides q &&& s.openSides q
    if k = 0 then s.openSides q else k)

/-- The tick: every die takes its sides again by the QSTATE held before it (R305); the traffic of a die whose bridge has been trained returns
to the bridge, whose QSTATE is NORMAL again (R302). BYPASS_BEATS counts the beat that ends. -/
def State.tickRing (s : State) : State :=
  let s := { s with hub := { s.hub with bypassBeats := if s.hub.carried then satAdd (2 ^ 32 - 1) s.hub.bypassBeats 1 else s.hub.bypassBeats,
                                        carried := false } }
  let back := s.hub.trained
  let s := s.setSides (fun q => if back.contains q then 0 else s.openSides q)
  back.foldl (fun s q => s.setQstate q 0) { s with hub := { s.hub with trained := [] } }

/-- The stacks and kiln groups of a die go out of service (R304). -/
def State.dieStacksOut (s : State) (q : Nat) : State :=
  [2 * q, 2 * q + 1].foldl (fun s n =>
    (s.modUnit n (fun u => { u with active := false })).modUnit (8 + n) (fun u => { u with active := false })) s

/-- A die goes OFF: its contexts' steps abort, FAIL is set, and with AUTO_L3 the maltster takes L3 (R304, R434, Table 18-6). -/
def State.dieOff (s : State) (q : Nat) : State :=
  let s := ((s.setQstate q 3).dropSides).logEvent 0x2012 none 31 0 9 q 0
  let s := s.dieStacksOut q
  let s := (List.range 16).foldl (fun s c =>
    if (s.ctxTiles c).any (fun t => t / 24 == q) then s.requestAbort c 0x2012 none 0 false else s) s
  let s := { s with board := { s.board with fail := true } }
  if bitOf s.evtCfg 0 then s.takeL3 0x2012 else s

/-- Any die left without a way to the hub goes OFF (R301, R305). -/
def State.checkDies (s : State) : State := (List.range 4).foldl (fun s q => if s.dieCut q then s.dieOff q else s) s.dropSides

/-- A quadrant goes OUT until an L3 (R303). -/
def State.quadOut (s : State) (q : Nat) : State :=
  let s := { s with hub := { s.hub with trained := s.hub.trained.filter (· != q) } }
  ((s.setQstate q 2).logEvent 0x2011 none 31 0 9 q 0).checkDies

/-- Retrainings of a bridge within the last 3,600 s. -/
def State.retrainsOf (s : State) (q : Nat) : Nat :=
  s.hub.starts.countP (fun p => p.1 == q && decide (s.beat.now < p.2 + 3600 * 600000000))

/-- BRIDGE_RETRAIN: a bridge starts to retrain (R302); one more than RETRAIN_MAX allows sends the quadrant OUT (R303). -/
def doBridgeRetrain (q : Nat) (s : State) : State :=
  if !s.inService2 || s.qst q != 0 then s else
  let ovw := decide (s.retrainMax ≤ s.retrainsOf q)
  let s := { s with hub := { s.hub with retrainCnt := satAdd 0xFFFF s.hub.retrainCnt 1, starts := (q, s.beat.now) :: s.hub.starts,
                                        fails := smSet 0 s.hub.fails q 0 } }
  let s := (s.setQstate q 1).logEvent 0x2010 none 31 0 9 q 0
  if ovw then s.quadOut q else s.checkDies

/-- BRIDGE_RETRAIN. -/
def execBridgeRetrain (q : Quad) (s : State) : Host.Outcome State Fault Refusal := .next (whenLive s (doBridgeRetrain q.val))

/-- BRIDGE_TRAIN_DONE: training succeeds and the bridge carries its die again from the next tick (R302), or fails; the third failure in a row sends
the quadrant OUT. -/
def doBridgeTrainDone (q : Nat) (ok : Bool) (s : State) : State :=
  if s.qst q ≠ 1 ∨ s.hub.trained.contains q then s
  else if ok then { s with hub := { s.hub with fails := smSet 0 s.hub.fails q 0, trained := s.hub.trained ++ [q] } }
  else
    let s := { s with hub := { s.hub with fails := smMod 0 s.hub.fails q (· + 1) } }
    if 3 ≤ smGet 0 s.hub.fails q then s.quadOut q else s

/-- BRIDGE_TRAIN_DONE. -/
def execBridgeTrainDone (q : Quad) (ok : Bool) (s : State) : Host.Outcome State Fault Refusal :=
  .next (whenLive s (doBridgeTrainDone q.val ok))

/-- QUAD_SELF_CHECK_FAULT: the switch slice's self-check reports a fault: the quadrant goes OUT (R303). -/
def doQuadSelfCheckFault (q : Nat) (s : State) : State :=
  if !s.inService2 || s.qst q == 2 || s.qst q == 3 then s else s.quadOut q

/-- QUAD_SELF_CHECK_FAULT. -/
def execQuadSelfCheckFault (q : Quad) (s : State) : Host.Outcome State Fault Refusal :=
  .next (whenLive s (doQuadSelfCheckFault q.val))

end Sys2Proof.Machine
end

