-- ==== Sys2Proof/Machine/Idle.lean ====
section
/-! DEFINITION. How time passes (DESIGN CHOICE, log entry 3): what the writes of a clk leave for the next one, and the step of an empty
queue. -/

namespace Sys2Proof.Machine

/-- What follows the values that a strobe has put in effect: the link ports (R349), and a die whose bridge is down while RING_EN is 0 (R301). -/
def State.syncUnits (s : State) : State := s.syncPorts.checkDies

/-- A clk has begun, `at_`: strobed shadows apply (R407), this clk's shadow writes become pending (R408), RW-I writes take effect (R412)
and send the vectors they unmasked (R369), the tags freed in the last one serve requests (R260), and no
byte counts as changed in it yet (R51). -/
def State.nextClk (s : State) (at_ : Nat) : State :=
  let fs := s.msixWritten
  let s := if s.cfg.strobe = 0 then s
    else (State.applyGroups { s with cfg := { s.cfg with strobe := 0 } } s.cfg.strobe.toNat at_).syncUnits
  let s := s.shadowTake.rwiTake
  let s := fs.foldl State.flushPba s
  { s with old := [], mig := { s.mig with freed := [], freedM := [] } }

/-- Clk 0 of a beat ends: what the tick's strobes left is applied (R408), and the wake requests that no command of this clk has withdrawn are
granted (R466, R467). -/
def State.endClk0 (s : State) : State :=
  if s.beatEnable && s.clk == 0 then ((doStrobeAtApply s).syncUnits).grantWakes else s

/-- One clk passes, not past the last clk of the beat while the generator runs: the next beat opens with TICK (R18). -/
def idleClk (s : State) : State :=
  if s.beatEnable && decide (s.beat.periodEff ≤ s.clk + 1) then s
  else
    let s := s.endClk0
    State.nextClk { s with beat := { s.beat with now := s.beat.now + 1 } } (s.beat.now + 1)

end Sys2Proof.Machine
end

