-- ==== Sys2Proof/Machine/Steps.lean ====
section
/-! DEFINITION. Steps (R25-R28, R35-R45): what a module reports of its contexts, and the rows STEP_OPEN, STEP_COMMIT and ABORT_TICK. -/

namespace Sys2Proof.Machine

/-! ### Readiness (R27, R39, R44) -/

/-- A stream has passed LAST of step n: it has no program, it is past n, or it passed it in n. -/
def Seq.passedLast (q : Seq) (n : Nat) : Bool := q.plen == 0 || decide (n < q.stepNo) || (q.stepNo == n && q.lastPassed)

/-- COMMIT_READY of context c (R44): the earliest step in flight has passed every commit point, and every shard is done. -/
def State.commitReady (s : State) (c : Nat) : Bool :=
  match (s.ctx c).step.flight with
  | [] => false
  | n :: _ => s.allCommitted c n && s.shardsDone c n

/-- Steps still to open in the run (R27, R390). -/
def StepSt.more (k : StepSt) : Bool := k.running && !k.halted && (k.endless || decide (k.flight.length < k.left))

/-- The compute dies of a context's tiles reach the hub (R304). -/
def State.diesOn (s : State) (c : Nat) : Bool := (s.ctxTiles c).all (fun t => s.qst (t / 24) != 3)

/-- A takeover keeps this module, the new holder of the logical ID, from opening steps (R342, R343). -/
def State.takingOver (s : State) : Bool :=
  (s.board.phase == 3 || s.board.phase == 4) && s.board.flid == s.board.lid || s.board.sourcesMissing

/-- OPEN_READY of context c (R27, R39, R200, R370, R386, R441, R468). -/
def State.openReady (s : State) (c : Nat) : Bool :=
  let x := s.ctx c
  let k := x.step
  x.st == .isOpen && x.prog.isSome && k.more && !x.frozen && !x.standby && !x.torn && !x.pendEn && k.causes.isEmpty &&
  !(k.opened && k.waitOpen) && k.rebuild.isEmpty && s.drained c && !(s.source == 2 && s.beat.holdover) &&
  (s.hub.mode == 2 || s.hub.mode == 3) && s.diesOn c && !s.takingOver &&
  (s.ctxTiles c).all (fun t => (s.unit (16 + t)).active && !(s.unit (16 + t)).quar) &&
  (s.progTiles c).all (fun t => (s.seq t .F).passedLast (k.nextStep - 1) || !k.opened) &&
  (s.progTiles c).all (fun t => (s.seq t .B).passedLast (k.nextStep - 1) || !k.opened) &&
  (!(k.opened && k.pending) || s.commitReady c)

/-- ABORT_REQ of context c: a cause waits for its abort tick (R35, R325). -/
def State.abortReq (s : State) (c : Nat) : Bool := !(s.ctx c).step.causes.isEmpty && !(s.ctx c).step.flight.isEmpty

/-! ### The verdict's bits -/

/-- The bits of a verdict for one context. -/
def Verdict.has (v : Option Verdict) (sel : Verdict → BitVec 16) (c : Nat) : Bool :=
  match v with
  | some v => bitOf (sel v).toNat c
  | none => false

/-- The applied verdict without the bits of context c that a row has acted on. -/
def State.acted (s : State) (c : Nat) (op cm ab : Bool) : State :=
  let m : BitVec 16 := ~~~ BitVec.ofNat 16 (2 ^ c)
  let f (v : Verdict) : Verdict :=
    { v with openM := if op then v.openM &&& m else v.openM, commitM := if cm then v.commitM &&& m else v.commitM,
             abortM := if ab then v.abortM &&& m else v.abortM }
  { s with board := { s.board with applied := s.board.applied.map f } }

/-! ### STEP_OPEN (R25-R27) -/

/-- A tile at a step's open tick: the semaphores are kept for R37, and the streams that have ended their step start. -/
def Tile.openStep (x : Tile) (step : Nat) (retry : Bool) : Tile :=
  let go (q : Seq) : Seq := if q.run then q else q.startStep step retry
  { x with snaps := (x.snaps.filter (fun p => p.step != step)) ++ [SemSnap.mk step x.sems []], seqF := go x.seqF, seqB := go x.seqB, seqU := go x.seqU }

/-- The steps of a context as its next step opens. -/
def StepSt.openNext (k : StepSt) : StepSt :=
  { k with pending := k.pending || k.opened, pendBeat := if k.opened then k.beatNo else k.pendBeat,
           pendRetry := if k.opened then k.retry else k.pendRetry, stepNo := k.nextStep, opened := true, waitOpen := false, beatNo := 0,
           retry := k.retryNext, retryNext := false, aborting := false, loggedRoom := false, loggedWide := false }

/-- Open the next step of context c. -/
def State.openStep (s : State) (c : Nat) : State :=
  let s := s.modStep c StepSt.openNext
  let k := (s.ctx c).step
  (s.progTiles c).foldl (fun s t => s.modTile t (·.openStep k.stepNo k.retry)) s

/-- No step opens on a follower in HOLDOVER (R23), nor in a mode in which no context runs (R300). -/
def State.mayOpen (s : State) : Bool := !(s.source == 2 && s.beat.holdover) && (s.hub.mode == 2 || s.hub.mode == 3)

/-- STEP_OPEN: the tick's verdict opens the context's next step. A third step in flight waits for the commit of the first (R27). -/
def doStepOpen (c : Nat) (s : State) : State :=
  let k := (s.ctx c).step
  if !Verdict.has s.board.applied (·.openM) c || (k.opened && k.pending) then s
  else State.acted (if k.more && (s.ctx c).st == .isOpen && s.mayOpen then s.openStep c else s) c true false false

/-- STEP_OPEN. -/
def execStepOpen (c : CtxId) (s : State) : Host.Outcome State Fault Refusal := .next (whenLive s (doStepOpen c.val))

/-! ### STEP_COMMIT (R45, R183, R197) -/

/-- Ledger entries of step n return to EMPTY; a mirror's entries with them (R183, R209). -/
def State.emptyLedger (s : State) (c n : Nat) : State :=
  let go (sh : Bool) (s : State) : State := (List.range (s.ctx c).slices).foldl (fun s k =>
    if ledState (s.led c sh k) ≠ 0 ∧ ledStep (s.led c sh k) = n % 2 ^ 32 then s.setLedState c sh k 0 else s) s
  let s := go false s
  if (s.ctx c).mirror then go true s else s

/-- The steps of a context as its earliest step n commits. -/
def StepSt.commitStep (k : StepSt) (n : Nat) : StepSt :=
  let last := !k.endless && decide (k.left ≤ 1)
  let was := k.pending
  { k with pending := false, opened := if was then k.opened else false, pendRetry := false, retry := if was then k.retry else false,
           left := k.left - 1, running := k.running && !last, armed := k.armed && !last, lastCommit := n, passTicks := 0,
           rewritten := k.rewritten.filter (fun p => p.1 != n), updated := k.updated.filter (fun p => p.1 != n),
           loggedDefer := k.loggedDefer.filter (· != n), loggedStall := k.loggedStall.filter (· != n),
           causes := k.causes.filter (fun x => x.step != some n) }

/-- Whether the earliest step in flight is a retry. -/
def StepSt.headRetry (k : StepSt) : Bool := if k.pending then k.pendRetry else k.retry

/-- The transfers of steps up to n that nothing consumed are released with their tags (R74, R259). One that has not completed moves its
data still, and is registered no longer; a post takes nothing more. -/
def State.releaseXfers (s : State) (c n : Nat) : State :=
  let mine (x : Xfer) : Bool := x.ctx == c && decide (x.step ≤ n) && !x.consumed && !x.released
  let gone (x : Xfer) : Bool := mine x && (x.done || x.kind == .recvPost)
  let s := s.cancelXfers gone
  let l := s.xfers.filter mine
  State.freeTags { s with xfers := s.xfers.map (fun x => if mine x then { x with released := true, tag := false, req := 0 } else x) } l

/-- Commit the earliest step n of context c: slots flip, ledger, cask and unconsumed transfers are released, the hub's epoch advances,
and a run that has reached its last step ends (R45, R74, R197, R437). -/
def State.commitStep (s : State) (c n : Nat) : State :=
  let ends := !(s.ctx c).step.endless && decide ((s.ctx c).step.left ≤ 1) && (s.ctx c).step.running
  let s := if (s.ctx c).step.headRetry then { s with beat := { s.beat with retries := setDel s.beat.retries c } } else s
  let s := s.emptyLedger c n
  let s := s.modCtx c (fun x => { x with sel := if x.oneSlot then x.sel else !x.sel, step := x.step.commitStep n })
  let s := (s.ctxTiles c).foldl (fun s t =>
    (s.setCask t ((s.tile t).cask.freePar s.beat.now (n % 2))).modTile t (fun x => { x with snaps := x.snaps.filter (fun p => p.step != n) })) s
  let s := s.releaseXfers c n
  let s := { s with upds := s.upds.filter (fun (u : Upd) => !(u.ctx == c && u.step == n && u.stage == UpdStage.done)) }
  let s := State.advanceEpoch { s with boot := if s.boot.probation then { s.boot with probCommits := s.boot.probCommits + 1 } else s.boot }
  if ends then (match (s.ctx c).owner with
    | some f => s.msix f.val 2
    | none => s) else s

/-- STEP_COMMIT: the tick's verdict commits the context's earliest step in flight. -/
def doStepCommit (c : Nat) (s : State) : State :=
  if !Verdict.has s.board.applied (·.commitM) c then s
  else State.acted (match (s.ctx c).step.flight with
    | [] => s
    | n :: _ => s.commitStep c n) c false true false

/-- STEP_COMMIT. -/
def execStepCommit (c : CtxId) (s : State) : Host.Outcome State Fault Refusal := .next (whenLive s (doStepCommit c.val))

/-! ### ABORT_TICK (R35-R42, R88, R89, R496) -/

/-- One of them was a retry (R41). -/
def StepSt.wasRetry (k : StepSt) : Bool :=
  let l := k.abortSteps
  (k.opened && l.contains k.stepNo && k.retry) || (k.pending && l.contains (k.stepNo - 1) && k.pendRetry)

/-- The updates of aborted steps that had written over a record in place, a buddy's shadow among them (R200, R202). -/
def State.tornBy (s : State) (c : Nat) (steps : List Nat) : List Upd :=
  if (s.ctx c).oneSlot then s.upds.filter (fun u => u.ctx == c && steps.contains u.step && (u.wrote || u.wroteM)) else []

/-- The torn shards of an update: the kiln group's where it wrote a moment, the conditioning engine's where it wrote a master. -/
def State.logTorn (s : State) (u : Upd) : State :=
  let s := s.modCtx u.ctx (fun x => { x with torn := true })
  let s := if u.wrote then s.logEvent 0x2007 (some u.ctx) 31 0 3 (s.updStack u) (updSlice u.desc) else s
  if u.wroteM then s.logEvent 0x2007 (some u.ctx) 31 0 4 (s.updChannel u) (updSlice u.desc) else s

/-- The causes of an abort that other participating modules name (R88). -/
def State.peersOf (s : State) (c : Nat) (peers : List PeerCause) : List PeerCause :=
  peers.filter (fun p => p.lid != s.ownLid && (s.participants c).contains p.lid)

/-- The maltster retries the abort (R40, R41): every cause is retryable, it is no retry already, no host asked, nothing is torn. Where only
a peer asked for it and names no cause, it retries too (DESIGN CHOICE, log entry 26). -/
def State.willRetry (s : State) (c : Nat) (peers : List PeerCause) : Bool :=
  let k := (s.ctx c).step
  !k.abortSteps.isEmpty && k.causes.all (·.retry) && (s.peersOf c peers).all (·.retry) && !k.hostAbort && !k.wasRetry && (s.tornBy c k.abortSteps).isEmpty && !(s.ctx c).torn

/-- A sequencer at an abort tick (R36, R89). -/
def Seq.abort (q : Seq) : Seq :=
  { q with pc := 0, loops := [], calls := [], seqNo := 0, run := false, held := false, waiting := false, faulted := false,
           stopped := false, beatWait := none, fetching := [], committed := false, lastSeen := false, lastPassed := false }

/-- The waiting instructions of aborted steps complete, with no further effect (R496); the units they hold are free. -/
def State.endWaits (s : State) (t : Nat) (steps : List Nat) : State :=
  [Stream.F, .B, .U].foldl (fun s st =>
    ((s.seq t st).inflight.filter (fun x => steps.contains x.step && x.wait != .none && x.wait != .cask)).foldl (fun s x =>
      (s.retire t st { x with wait := .none, status := 0 }).endGrants t st x.seq) s) s

/-- A tile at an abort tick: the streams of aborted steps stop, what waits completes, the cask's entries go, semaphores are restored, and
the units and banks serve what still waits for them. -/
def State.abortTile (s : State) (t : Nat) (steps : List Nat) (lo : Nat) : State :=
  let stop (q : Seq) : Seq := if steps.contains q.stepNo then q.abort else q
  let s := s.modTile t (fun x => { x with seqF := stop x.seqF, seqB := stop x.seqB, seqU := stop x.seqU })
  let s := (s.endWaits t steps).caskAbort t steps
  (s.modTile t (fun x => x.restoreSems lo)).settle t

/-- The shared work of aborted steps is cancelled: transfers with their tags, signals, updates with their pins, contributions, and what
was arriving for them (R36, R69, R198). -/
def State.abortWork (s : State) (c : Nat) (steps : List Nat) : State :=
  let s := (s.dropUpds (fun u => u.ctx == c && steps.contains u.step)).cancelXfers (fun x => x.ctx == c && steps.contains x.step)
  { s with rsigs := s.rsigs.filter (fun r => !(r.ctx == c && (match r.step with
             | some n => steps.contains n
             | none => false))),
           contribs := s.contribs.filter (fun x => !(x.ctx == c && steps.contains x.step)),
           ports := smMap {} s.ports (fun _ p => { p with rx := p.rx.filter (fun f => !(f.ctx == c && steps.contains f.step)) }),
           board := { s.board with scalars := s.board.scalars.filter (fun m => !(m.ctx == c && steps.contains m.step)) } }

/-- The steps of a context after an abort from step lo: the step opens again as a retry, or the run halts or ends. -/
def StepSt.abortTo (k : StepSt) (lo : Nat) (steps : List Nat) (code : BitVec 16) (retry halt host : Bool) : StepSt :=
  { k with pending := k.pending && !steps.contains (k.stepNo - 1), opened := false, waitOpen := true, stepNo := lo, beatNo := 0,
           aborting := true, retry := false, retryNext := retry, halted := halt, abortCode := code, abortCnt := satAdd 0xFFFF k.abortCnt 1,
           running := k.running && !host, armed := k.armed || host, causes := [], hostAbort := false, passTicks := 0,
           rewritten := k.rewritten.filter (fun p => !steps.contains p.1),
           rebuild := k.rebuild ++ k.rewritten.filter (fun p => steps.contains p.1), updated := k.updated.filter (fun p => !steps.contains p.1),
           loggedDefer := k.loggedDefer.filter (fun n => !steps.contains n), loggedStall := k.loggedStall.filter (fun n => !steps.contains n) }

/-- A takeover that is under way re-runs the step itself (R42, R352). -/
def State.takeoverRuns (s : State) (k : StepSt) : Bool :=
  decide (1 ≤ s.board.phase) && decide (s.board.phase ≤ 4) && k.causes.all (fun x => x.code == 0x5007 || x.code == 0x4007 || x.retry)

/-- The commands that waited for the abort tick: STEP_ABORT replies with the step, CTX_CLOSE closes, an L2 goes on. -/
def State.abortReplies (s : State) (c : Nat) (stepNo : Nat) : State :=
  let s := (List.range 17).foldl (fun s f => match (s.fn f).busy with
    | some k => if k.ctx ≠ c then s else (match k.wait with
      | .abort _ => s.lateReply f 0 (toBytes 8 stepNo)
      | .close => (s.closeCtx c).lateReply f 0 []
      | _ => s)
    | none => s) s
  (List.range 16).foldl (fun s f => match (s.fn f).l2 with
    | some cause => if s.fnCtx f = some c then s.l2Body f c cause.toNat else s
    | none => s) s

/-- The abortable schedule events (Table 02-4). -/
def schedEvent (code : Nat) : Bool := code == 0x4001 || code == 0x4003 || code == 0x4004 || code == 0x4007

/-- The maltster's answer to an abort of steps from lo (R40-R42): an L1, or a halt that it signals, or nothing where a host asked. -/
def State.abortAnswer (s : State) (c : Nat) (k : StepSt) (retry halt : Bool) (code : Nat) : State :=
  let fn := match (s.ctx c).owner with
    | some f => f.val
    | none => 31
  if retry then
    (s.logLevel 1 (some c) fn code).modCtx c (fun x => { x with lastLevel := 1, lastCode := BitVec.ofNat 16 code, l1Cnt := satAdd 0xFFFF x.l1Cnt 1 })
  else if halt then
    let s := match k.causes.find? (fun x => schedEvent x.code.toNat) with
      | some x => if k.wasRetry then s.logDev 0x4006 (some c) x.code.toNat else s
      | none => s
    s.msix fn 2
  else s

/-- The causes of an abort, this module's and the peers', with a code, in the order of R88: clk, module, place. -/
def State.causeCodes (s : State) (c : Nat) (peers : List PeerCause) : List (BitVec 16) :=
  let own := ((s.ctx c).step.causes.map (fun x => PeerCause.mk s.ownLid x.clk x.code x.place x.retry))
  let before (a b : PeerCause) : Bool :=
    decide (a.clk < b.clk ∨ a.clk = b.clk ∧ (a.lid < b.lid ∨ a.lid = b.lid ∧ a.place ≤ b.place))
  (((own ++ s.peersOf c peers).filter (fun p => p.code != 0)).foldl (fun (l : List PeerCause) p =>
    l.takeWhile (before · p) ++ [p] ++ l.dropWhile (before · p)) []).map (·.code)

/-- Abort the steps of context c from lo. ABORT_CODE takes the first fault of the board (R88); an abort whose causes have no code leaves it
as it was (DESIGN CHOICE, log entry 79). -/
def State.abortCtx (s : State) (c lo : Nat) (peers : List PeerCause) : State :=
  let k := (s.ctx c).step
  let steps := k.abortSteps
  let retry := s.willRetry c peers
  let torn := s.tornBy c steps
  let halt := !retry && !k.hostAbort && !s.takeoverRuns k
  let code := match (s.causeCodes c peers).head? with
    | some x => x
    | none => if torn.isEmpty then k.abortCode else 0x2007
  let s := (s.ctxTiles c).foldl (fun s t => s.abortTile t steps lo) s
  let s := torn.foldl State.logTorn s
  let s := s.abortWork c steps
  let s := steps.foldl (fun s n => s.emptyLedger c n) s
  let s := s.modStep c (fun k => k.abortTo lo steps code retry halt k.hostAbort)
  let s := { s with beat := { s.beat with retries := if retry then setAdd s.beat.retries c
                                                      else if k.wasRetry then setDel s.beat.retries c else s.beat.retries } }
  (s.abortAnswer c k retry halt code.toNat).abortReplies c lo

/-- ABORT_TICK: the tick's verdict aborts the context's step, and any later step in flight. -/
def doAbortTick (c : Nat) (peers : List PeerCause) (s : State) : State :=
  if !Verdict.has s.board.applied (·.abortM) c then s
  else State.acted (match (s.ctx c).step.abortFrom with
    | none => s.modStep c (fun k => { k with causes := [], hostAbort := false })
    | some lo => s.abortCtx c lo peers) c false false true

/-- ABORT_TICK. -/
def execAbortTick (x : AbortOf) (s : State) : Host.Outcome State Fault Refusal := .next (whenLive s (doAbortTick x.ctx.val x.peers))

/-- Act on what is left of the tick's verdict: aborts, then commits, then opens. -/
def State.finishVerdict (s : State) : State :=
  let s := (List.range 16).foldl (fun s c => doAbortTick c [] s) s
  let s := (List.range 16).foldl (fun s c => doStepCommit c s) s
  (List.range 16).foldl (fun s c => doStepOpen c s) s

end Sys2Proof.Machine
end

