-- ==== Sys2Proof/Machine/Beat.lean ====
section
/-! DEFINITION. The beat (R18-R24), markers and verdicts (R324-R328): the rows CFG_STROBE, STROBE_AT_APPLY, TICK, MARKER_RECEIVE,
VERDICT_FORM, VERDICT_RECEIVE, VERDICT_REPLY, VERDICT_TIMEOUT, VERDICT_REQUEST, HOLDOVER, HOLDOVER_CLEAR, BEAT_IN_PULSE and
BEAT_IN_ERR. -/

namespace Sys2Proof.Machine

/-- CFG_STROBE. -/
def execCfgStrobe (v : Word) (s : State) : Host.Outcome State Fault Refusal :=
  .next (whenLive s (doCfgStrobe v.toNat))

/-- STROBE_AT_APPLY: in clk 0 of the armed tick the armed groups' shadows apply, and they are disarmed (R408). -/
def execStrobeAtApply (s : State) : Host.Outcome State Fault Refusal := .next (whenLive s (fun s => (doStrobeAtApply s).syncUnits))

/-! ### Verdicts (R326, R327) -/

/-- A 16-bit mask of the contexts for which p holds. -/
def ctxMask (p : Nat → Bool) : BitVec 16 := BitVec.ofNat 16 ((List.range 16).foldl (fun a c => if p c then a + 2 ^ c else a) 0)

/-- This module forms the verdicts (R326): standalone, or the beat master. While logical ID 0 has failed and no module has taken it
over, the coordinator does, so that the takeover finds its abort tick (DEDUCED, log entry 27). -/
def State.forms (s : State) : Bool :=
  s.standalone || s.board.lid == 0 ||
  (s.isCoord && bitOf s.board.failed.toNat 0 && !(s.board.flid == 0 && decide (3 ≤ s.board.phase) && decide (s.board.phase ≤ 5)))

/-- The marker of a logical ID for this tick, its own or a peer's. -/
def State.markerOf (s : State) (l : Nat) : Option Marker :=
  if l = s.ownLid then s.board.own
  else s.board.markers.find? (fun m => m.srcLid == l && m.tick == s.beat.tick % 2 ^ 48)

/-- Whether a bit of a logical ID's marker is set; a missing marker has every bit clear. -/
def State.markerBit (s : State) (sel : Marker → BitVec 16) (c l : Nat) : Bool :=
  match s.markerOf l with
  | some m => bitOf (sel m).toNat c
  | none => false

/-- The verdict for the next tick, from the markers of this one (R326, R43). -/
def State.formVerdict (s : State) : Verdict :=
  let part := s.participants
  let ab (c : Nat) : Bool := (part c).any (s.markerBit (·.abortReq) c)
  let every (sel : Marker → BitVec 16) (c : Nat) : Bool := !(part c).isEmpty && (part c).all (s.markerBit sel c)
  { tick := s.beat.tick + 1, openM := ctxMask (fun c => !ab c && every (·.openReady) c),
    commitM := ctxMask (fun c => !ab c && every (·.commitReady) c), abortM := ctxMask ab }

/-- A port carries the sideband (R320, R324). -/
def State.anyPortUp (s : State) : Bool := (List.range 8).any s.linked

/-- Form the verdict for the next tick, keep it among the last 16, and send it. -/
def State.giveVerdict (s : State) : State :=
  let v := s.formVerdict
  let s := { s with board := { s.board with held := some v, recent := (v :: s.board.recent.filter (fun x => x.tick != v.tick)).take 16 } }
  if s.anyPortUp then s.send (.verdict (v.image s.board.lid)) else s

/-- VERDICT_FORM: the beat master forms the verdicts from the markers it holds, and sends them. -/
def doVerdictForm (s : State) : State := if s.forms && s.beatEnable then s.giveVerdict else s

/-- VERDICT_FORM. -/
def execVerdictForm (s : State) : Host.Outcome State Fault Refusal := .next (whenLive s doVerdictForm)

/-- A marker or verdict with a bad CRC is asked for again, up to three times in the first half of a beat (R324). -/
def State.askAgain (s : State) (p : Nat) : State :=
  if 8 ≤ p ∨ s.beat.periodEff < 2 * s.clk ∨ 3 ≤ smGet 0 s.board.again p then s
  else State.send { s with board := { s.board with again := smMod 0 s.board.again p (· + 1) } } (.again p)

/-- VERDICT_RECEIVE: a follower holds the verdict of the coming tick. One whose CRC fails is asked for again. -/
def doVerdictReceive (p : Nat) (image : List Byte) (s : State) : State :=
  if s.forms then s
  else if !verdictOk image then s.askAgain p
  else
    let v := verdictOfBytes image
    if v.tick ≠ (s.beat.tick + 1) % 2 ^ 48 then s
    else { s with board := { s.board with held := some { v with tick := s.beat.tick + 1 } } }

/-- VERDICT_RECEIVE. -/
def execVerdictReceive (p : PortId) (image : List Byte) (s : State) : Host.Outcome State Fault Refusal :=
  .next (whenLive s (doVerdictReceive p.val image))

/-- Two verdicts to be acted on together. -/
def Verdict.join (a : Option Verdict) (v : Verdict) : Verdict :=
  match a with
  | none => v
  | some w => { tick := w.tick, openM := w.openM ||| v.openM, commitM := w.commitM ||| v.commitM, abortM := w.abortM ||| v.abortM }

/-- VERDICT_REPLY: the verdict that was asked for applies, and admission resumes once none is lacking. -/
def doVerdictReply (v : Verdict) (s : State) : State :=
  if !s.board.missing.contains v.tick then s
  else { s with board := { s.board with applied := some (Verdict.join s.board.applied v), missing := setDel s.board.missing v.tick } }

/-- VERDICT_REPLY. -/
def execVerdictReply (v : Verdict) (s : State) : Host.Outcome State Fault Refusal := .next (whenLive s (doVerdictReply v))

/-- VERDICT_TIMEOUT: no answer within two beats sets FAIL in the next marker. -/
def doVerdictTimeout (s : State) : State :=
  if !s.board.missing.isEmpty && decide (2 ≤ s.board.missBeats) then { s with board := { s.board with fail := true } } else s

/-- VERDICT_TIMEOUT. -/
def execVerdictTimeout (s : State) : Host.Outcome State Fault Refusal := .next (whenLive s doVerdictTimeout)

/-- VERDICT_REQUEST: the master answers from its last 16 verdicts, in a CONTROL flit. -/
def doVerdictRequest (p tick : Nat) (s : State) : State :=
  match s.board.recent.find? (fun v => v.tick == tick) with
  | some v => if s.forms && decide (2 ≤ (s.port p).st) then s.putControl p 0 (v.image s.board.lid) .verdictAnswer else s
  | none => s

/-- VERDICT_REQUEST. -/
def execVerdictRequest (p : PortId) (tick : Nat) (s : State) : Host.Outcome State Fault Refusal :=
  .next (whenLive s (doVerdictRequest p.val tick))

/-! ### Markers (R20, R324, R40) -/

/-- The contexts whose retry lengthens the beat that this tick's marker announces (R40): a retry that ends at this tick no longer does,
an abort that will be retried does, by this module's own causes. -/
def State.longContexts (s : State) (v : Option Verdict) : List Nat :=
  (s.beat.retries.filter (fun c =>
    !(Verdict.has v (·.commitM) c && (s.ctx c).step.headRetry) && !(Verdict.has v (·.abortM) c && (s.ctx c).step.wasRetry))) ++
  (List.range 16).filter (fun c => Verdict.has v (·.abortM) c && s.willRetry c [])

/-- The length that this tick's marker announces: of a BEAT_CTL due at this tick, lengthened during a retry (R20, R40, R408). -/
def State.announce (s : State) (long : Bool) : Nat :=
  let p := max 2048 (bits s.dueBeatCtl 0 16)
  if long then min 65535 (p + p * bits s.dueBeatCtl 16 8 / 256) else p

/-- The index of a marker's sender in SEEN, ALIVE and FAILED: 8 is the spare. -/
def lidIx (l : Nat) : Nat := if l = 0xF then 8 else l

/-- A marker of the tick that has begun, which came ahead of it. -/
def State.earlyMarker (s : State) (m : Marker) : Bool := m.tick == s.beat.tick % 2 ^ 48

/-- ALIVE: whose markers of the beat that ends have arrived. -/
def State.aliveNow (s : State) : BitVec 9 :=
  BitVec.ofNat 9 ((List.range 9).foldl (fun a i =>
    if s.board.markers.any (fun m => lidIx m.srcLid == i && !s.earlyMarker m) then a + 2 ^ i else a) 0)

/-- A logical ID is seen at this tick: its marker arrived without FAIL, or a module's SEEN has its bit (R328). -/
def State.seenNow (s : State) (i : Nat) : Bool :=
  s.board.markers.any (fun m => (lidIx m.srcLid == i && !m.fail) || (lidIx m.srcLid != i && bitOf m.seen.toNat i)) &&
  !s.board.markers.any (fun m => lidIx m.srcLid == i && m.fail)

/-- A module that the board has: an active logical ID, or the spare, other than this one. -/
def State.peerIx (s : State) (i : Nat) : Bool :=
  !s.standalone && lidIx s.board.lid != i && (decide (i < s.board.nact) || (i == 8 && s.board.spareOk))

/-- The port that reaches a module (LNK_REMAP). -/
def State.portOfIx (s : State) (i : Nat) : Nat := if i = 8 then s.sparePort else s.portOfLid i

/-- At a tick: ALIVE, the ticks without each module's marker, and MARKER_MISS of the ports that brought none (R324, R328). -/
def State.countMarkers (s : State) : State :=
  let alive := s.aliveNow
  let unseen := (List.range 9).foldl (fun u i =>
    if s.peerIx i then (if s.seenNow i then smSet 0 u i 0 else smMod 0 u i (fun n => satAdd 0xFFFF n 1)) else smSet 0 u i 0) s.board.unseen
  let missed := (List.range 9).filter (fun i =>
    s.peerIx i && !bitOf alive.toNat i && decide (s.portOfIx i < 8) && !s.board.ignored.contains (s.portOfIx i) &&
    s.linked (s.portOfIx i))
  let s := missed.foldl (fun s i => s.modPort (s.portOfIx i) (fun p => { p with markerMiss := satAdd 0xFFFF p.markerMiss 1 })) s
  { s with board := { s.board with alive := alive, unseen := unseen, markers := s.board.markers.filter s.earlyMarker, ignored := [], again := [] } }

/-- The three bits of every context as this tick's marker carries them; a context on which the tick's verdict acts starts anew. -/
def State.markerBits (s : State) (v : Option Verdict) : BitVec 16 × BitVec 16 × BitVec 16 :=
  (ctxMask (fun c => s.openReady c && !Verdict.has v (·.openM) c && !Verdict.has v (·.abortM) c),
   ctxMask (fun c => s.commitReady c && !Verdict.has v (·.commitM) c && !Verdict.has v (·.abortM) c),
   ctxMask (fun c => s.abortReq c && !Verdict.has v (·.abortM) c))

/-- This module's marker for the tick that has begun. -/
def State.ownMarker (s : State) (b : BitVec 16 × BitVec 16 × BitVec 16) : Marker :=
  { srcLid := s.board.lid, master := s.role == 1, holdover := s.beat.holdover, fail := s.board.fail,
    nextPeriod := s.beat.nextPeriod, tick := s.beat.tick % 2 ^ 48, openReady := b.1, commitReady := b.2.1, abortReq := b.2.2,
    seen := s.board.alive, epoch := BitVec.ofNat 16 s.board.epoch.toNat }

/-- Keep and send this tick's marker. -/
def State.sendMarker (s : State) (b : BitVec 16 × BitVec 16 × BitVec 16) : State :=
  let m := s.ownMarker b
  let s := { s with board := { s.board with own := some m } }
  if s.anyPortUp then s.send (.marker m.image) else s

/-! ### TICK -/

/-- The marker of the beat master for the current tick. -/
def State.masterMarker (s : State) : Option Marker := s.board.markers.find? (fun m => m.srcLid == 0 && m.master)

/-- The clk at which the beat ends (R18, R21, R23, R24): PERIOD_EFF on; a BEAT_IN pulse taken for the tick; a follower that has the
master's marker moves towards it by at most 64 clk. -/
def State.tickAt (s : State) : Nat :=
  let plain := s.beat.tickClk + s.beat.periodEff
  let at_ := match s.source, s.beat.pulse with
    | 1, some p => s.beat.tickClk + p
    | 2, _ => if s.beat.measured then ((plain : Int) - max (-64) (min 64 s.beat.skew)).toNat else plain
    | _, _ => plain
  max (s.beat.now + 1) at_

/-- The beat that ends is over: the clk is that of the tick, GLB_TICK counts it, the announced length is in force. -/
def State.newBeat (s : State) : State :=
  let at_ := s.tickAt
  let calm := if s.source = 2 && !s.beat.measured then 0 else s.beat.calm
  { s with beat := { s.beat with
      now := at_, tickClk := at_, tick := (s.beat.tick + 1) % 2 ^ 64, periodEff := s.beat.nextPeriod, stretched := s.beat.nextStretched,
      nextPeriod := s.beat.later.getD s.beat.nextPeriod, later := none, measured := false,
      pulse := none, calm := calm, beatOut := if s.beatOutEn then s.beat.beatOut + 1 else s.beat.beatOut } }

/-- An instruction that is still running at the tick is a budget overrun, once (R32). -/
def State.overrunStream (s : State) (t : Nat) (st : Stream) : State :=
  let l := (s.seq t st).inflight.filter (fun x => !x.ovr && x.wait != .cask)
  let c := s.tileCtx t
  let s := l.foldl (fun s x =>
    let s := s.modTile t (fun y => { y with ovrCnt := satAdd (2 ^ 48 - 1) y.ovrCnt 1 })
    let s := match c with
      | some c => s.modStep c (fun k => { k with ovrCnt := satAdd (2 ^ 32 - 1) k.ovrCnt 1 })
      | none => s
    s.logTile 0x4002 c t st x.pc x.seq 0) s
  s.modSeq t st (fun q => { q with inflight := q.inflight.map (fun x => if x.wait = .cask then x else { x with ovr := true }) })

/-- A WAIT_BEAT whose beat has opened is passed in clk 0 of it (R31). -/
def State.passBeat (s : State) (t : Nat) (st : Stream) : State :=
  match (s.seq t st).beatWait, s.tileCtx t with
  | some w, some c => if w.beat ≤ (s.ctx c).step.beatOf w.fl.step then s.passSync t st w.fl else s
  | _, _ => s

/-- The streams at a tick. -/
def State.tickTiles (s : State) : State :=
  (s.tiles.map (·.1)).foldl (fun s t => [Stream.F, .B, .U].foldl (fun s st => (s.overrunStream t st).passBeat t st) s) s

/-- The beat numbers of the steps in flight rise (R25), and the beats since every stream passed its commit point (R203). -/
def State.tickSteps (s : State) : State :=
  (List.range 16).foldl (fun s c =>
    let pass := match (s.ctx c).step.flight with
      | n :: _ => s.allCommitted c n
      | [] => false
    s.modStep c (fun k => { k with beatNo := if k.opened then k.beatNo + 1 else k.beatNo,
                                   pendBeat := if k.pending then k.pendBeat + 1 else k.pendBeat,
                                   passTicks := if pass then k.passTicks + 1 else 0 })) s

/-- The verdict of this tick is lacking: the module opens, commits and aborts nothing, holds admission and asks the master (R327). -/
def State.loseVerdict (s : State) : State :=
  let s := { s with board := { s.board with
      applied := none, held := none, missing := setAdd s.board.missing s.beat.tick,
      missBeats := if s.board.missing.isEmpty then 0 else s.board.missBeats, verdictLost := satAdd 0xFFFF s.board.verdictLost 1 } }
  let s := s.logDev 0x5006 none s.beat.tick
  s.putControl (s.portOfLid 0) 0 (toBytes 8 s.beat.tick) .verdictRequest

/-- The tick takes the verdict it holds (R326). -/
def State.takeVerdict (s : State) : State :=
  match s.board.held with
  | some v => if v.tick = s.beat.tick then { s with board := { s.board with applied := some v, held := none } } else s.loseVerdict
  | none => s.loseVerdict

/-- What counts beats: the decay of HEAT, the cellar's credit for the clk passed, the ring, and beats that wait for a verdict. -/
def State.tickCounts (s : State) (elapsed : Nat) : State :=
  let s := (s.celRefill elapsed).tickRing
  { s with mig := { s.mig with decay := s.mig.decay + 1 },
           board := { s.board with missBeats := if s.board.missing.isEmpty then 0 else s.board.missBeats + 1 },
           evt := { s.evt with fromNor := false },
           pwr := { s.pwr with peak := s.pwr.peak && !s.pwr.peakEnd, peakEnd := false } }

/-- LNK_TKO.PHASE: after the abort tick a takeover is in its remap, 8 ticks before Tr (R343). -/
def State.tickTakeover (s : State) : State :=
  match s.board.remapAt with
  | some (tr, _, _) => if s.board.phase = 1 ∧ tr ≤ s.beat.tick + 8 then { s with board := { s.board with phase := 2 } } else s
  | none => s

/-- An expired watchdog: L3 at the second tick (R435). -/
def State.tickWatchdog (s : State) : State :=
  if !s.evt.wdog then s
  else if 1 ≤ s.evt.wdogTicks then s.takeL3 0xA030
  else { s with evt := { s.evt with wdogTicks := s.evt.wdogTicks + 1 } }

/-- TICK: what the last verdict and the last strobes left is done; the next beat begins; its marker goes out, and the verdict of the
tick is taken. -/
def doTick (s : State) : State :=
  if !s.beatEnable then s else
  let s := (doStrobeAtApply s.finishVerdict.endClk0).syncUnits
  let s := if s.forms && s.board.held.isNone then s.giveVerdict else s
  let elapsed := s.tickAt - s.beat.tickClk
  let s := (((s.nextClk (s.beat.now + 1)).newBeat).armDue).takeVerdict
  let b := s.markerBits s.board.applied
  let long := !(s.longContexts s.board.applied).isEmpty
  let follows := s.source == 2
  let s := { s with beat := { s.beat with nextPeriod := if follows then s.beat.nextPeriod else s.announce long, nextStretched := long } }
  let s := (s.countMarkers).sendMarker b
  let s := (s.tickSteps).tickTiles
  ((s.tickCounts elapsed).tickTakeover).tickWatchdog

/-- TICK. -/
def execTick (s : State) : Host.Outcome State Fault Refusal := .next (whenLive s doTick)

/-! ### MARKER_RECEIVE and the follower's clock (R21, R23, R24) -/

/-- A follower measures the master's tick by its marker, less the link's one-way latency (R21): in the first half of the beat the marker is
that of its own latest tick, else of its coming one. -/
def State.measureTick (s : State) (p : Nat) (m : Marker) : State :=
  let phase : Int := (s.beat.now : Int) - (s.port p).lat - s.beat.tickClk
  let late := decide (2 * phase ≤ s.beat.periodEff)
  let skew : Int := if late then -phase else s.beat.periodEff - phase
  let len := max 1 (m.nextPeriod % 65536)
  let hi := s.beat.tick / 2 ^ 48 * 2 ^ 48
  { s with beat := { s.beat with
      measured := true, skew := skew, calm := if -4 ≤ skew ∧ skew ≤ 4 then s.beat.calm + 1 else 0,
      tick := hi + (if late then m.tick else m.tick - 1), nextPeriod := if late then len else s.beat.nextPeriod,
      later := if late then s.beat.later else some len } }

/-- A marker taken: a beat master's gives a follower its tick number, the next length and the skew (R20, R21, R23). -/
def State.takeMarker (s : State) (p : Nat) (m : Marker) : State :=
  let s := s.modPort p (fun x => { x with peerLid := if m.srcLid ≤ 7 then m.srcLid else 0xF })
  let s := { s with board := { s.board with
      markers := s.board.markers.filter (fun x => x.srcLid != m.srcLid || x.tick != m.tick) ++ [m], spareOk := s.board.spareOk || (m.srcLid == 0xF && !m.fail),
      unseen := if m.fail then smMod 0 s.board.unseen (lidIx m.srcLid) (max 3) else s.board.unseen } }
  if s.source = 2 ∧ m.srcLid = 0 ∧ m.master then s.measureTick p m else s

/-- MARKER_RECEIVE: a bad CRC is asked for again; another epoch counts as missing; else the marker is taken. -/
def doMarkerReceive (p : Nat) (image : List Byte) (s : State) : State :=
  let m := markerOfBytes image
  if (s.port p).st = 0 ∨ s.standalone = true then s
  else if !markerOk image then s.askAgain p
  else if m.epoch ≠ BitVec.ofNat 16 s.board.epoch.toNat then
    if s.board.ignored.contains p then s
    else State.modPort { s with board := { s.board with ignored := p :: s.board.ignored } } p
      (fun x => { x with markerMiss := satAdd 0xFFFF x.markerMiss 1 })
  else s.takeMarker p m

/-- MARKER_RECEIVE. -/
def execMarkerReceive (p : PortId) (image : List Byte) (s : State) : Host.Outcome State Fault Refusal :=
  .next (whenLive s (doMarkerReceive p.val image))

/-- A full beat has passed without the master's marker: it was unseen at the tick, or the beat is at its last clk. -/
def State.masterLost (s : State) : Bool :=
  s.masterMarker.isNone && (decide (0 < smGet 0 s.board.unseen 0) || decide (s.beat.periodEff ≤ s.clk + 1))

/-- HOLDOVER: a follower that misses the master's markers for a full beat runs on, reports, and every open step aborts (R23). -/
def doHoldover (s : State) : State :=
  if s.source ≠ 2 ∨ s.beat.holdover = true ∨ !s.masterLost then s
  else State.abortAll ({ s with beat := { s.beat with holdover := true, calm := 0 } }.logDev 0x4007 none 0) 0x4007 false

/-- HOLDOVER. -/
def execHoldover (s : State) : Host.Outcome State Fault Refusal := .next (whenLive s doHoldover)

/-- HOLDOVER_CLEAR: the skew has stayed within 4 clk for 8 consecutive beats. -/
def doHoldoverClear (s : State) : State :=
  if s.source = 2 ∧ s.beat.holdover = true ∧ 8 ≤ s.beat.calm then { s with beat := { s.beat with holdover := false } } else s

/-- HOLDOVER_CLEAR. -/
def execHoldoverClear (s : State) : Host.Outcome State Fault Refusal := .next (whenLive s doHoldoverClear)

/-- A BEAT_IN pulse is rejected: the generator ticks on its own timing (R24). -/
def State.beatInBad (s : State) (at_ : Nat) : State :=
  { s with beat := { s.beat with holdover := true, calm := 0 } }.logDev 0x4005 none at_

/-- BEAT_IN_PULSE: an edge within 4 clk of the expected tick is taken as the tick; HOLDOVER clears after four in a row. -/
def doBeatInPulse (clk : Nat) (s : State) : State :=
  if s.source ≠ 1 ∨ !s.beatEnable then s
  else if s.beat.periodEff ≤ clk + 4 ∧ clk ≤ s.beat.periodEff + 4 then
    let n := s.beat.calm + 1
    { s with beat := { s.beat with pulse := some clk, calm := n, holdover := s.beat.holdover && decide (n < 4) } }
  else s.beatInBad clk

/-- BEAT_IN_PULSE. -/
def execBeatInPulse (clk : Nat) (s : State) : Host.Outcome State Fault Refusal := .next (whenLive s (doBeatInPulse clk))

/-- BEAT_IN_ERR: the window closes with no pulse. -/
def doBeatInErr (s : State) : State :=
  if s.source ≠ 1 ∨ !s.beatEnable ∨ s.beat.pulse.isSome = true then s else s.beatInBad s.beat.periodEff

/-- BEAT_IN_ERR. -/
def execBeatInErr (s : State) : Host.Outcome State Fault Refusal := .next (whenLive s doBeatInErr)

end Sys2Proof.Machine
end

