-- ==== Sys2Proof/Machine/Board.lean ====
section
/-! DEFINITION. Ports, the board's map and the spare takeover (R318-R323, R328, R329, R341-R347, R470): the rows LINK_TRAINING_DONE,
LANE_DEGRADED, PORT_DOWN, PEER_FAILED, REMAP_APPLY, TAKEOVER_STREAM_DONE, TAKEOVER_DONE, SPARE_LOST and STRETCH_REPORT. -/

namespace Sys2Proof.Machine

/-! ### Halting the contexts of a logical ID -/

/-- Abort the steps of a context for a cause that is not retried; a run between steps is halted at once (R42). -/
def State.abortHalt (s : State) (c code : Nat) : State :=
  let k := (s.ctx c).step
  if !k.flight.isEmpty then s.requestAbort c code none 0 false
  else if !k.running || k.halted then s
  else
    let s := s.modStep c (fun k => { k with halted := true, abortCode := BitVec.ofNat 16 code })
    match (s.ctx c).owner with
    | some f => s.msix f.val 2
    | none => s

/-- The contexts in which a logical ID takes part. -/
def State.ctxsOf (s : State) (l : Nat) : List Nat := (List.range 16).filter (fun c => (s.ctx c).st == .isOpen && (s.participants c).contains l)

/-! ### Ports (R318-R322, R485) -/

/-- An event of a link port. -/
def State.logPort (s : State) (code p info : Nat) : State := s.logEvent code none 31 0 5 p info

/-- A port goes down: what it was carrying is gone. Between two active modules the steps of the contexts in which both take part abort
and halt (R321). -/
def State.portGoesDown (s : State) (p : Nat) : State :=
  if (s.port p).st = 0 then s else
  let peer := s.lidOfPort p
  let s := s.modPort p (fun x => { x with st := 0, lanesOk := 0, replay := [], rx := [], txSeq := 0, rxSeq := 0, sent := 0, replays := 0 })
  match peer with
  | some l =>
    if s.standalone || decide (8 ≤ s.board.lid) then s
    else
      let both := (s.ctxsOf l).filter (fun c => (s.participants c).contains s.board.lid)
      both.foldl (fun s c => s.abortHalt c 0x5003) (s.logPort 0x5003 p (s.board.lid + 2 ^ 32 * l))
  | none => s

/-- PORT_DOWN. -/
def execPortDown (p : PortId) (s : State) : Host.Outcome State Fault Refusal := .next (whenLive s (fun s => s.portGoesDown p.val))

/-- A training that finds failed lanes: four lanes at half rate where allowed and a group is whole, else the port goes down (R320). -/
def State.degrade (s : State) (p lanes : Nat) : State :=
  let g0 := bits lanes 0 4 == 15
  let g1 := bits lanes 4 4 == 15
  if bitOf (s.lnkPcfg p) 1 && (g0 || g1) then
    (s.modPort p (fun x => { x with st := 3, lanesOk := if g0 then 0x0F else 0xF0, retrain := satAdd 0xFFFF x.retrain 1 })).logPort 0x5002 p 0
  else s.portGoesDown p

/-- LANE_DEGRADED. -/
def doLaneDegraded (p : Nat) (lanesOk : BitVec 8) (s : State) : State :=
  if (s.port p).st = 0 ∨ lanesOk = 0xFF then s else s.degrade p lanesOk.toNat

/-- LANE_DEGRADED. -/
def execLaneDegraded (p : PortId) (lanesOk : BitVec 8) (s : State) : Host.Outcome State Fault Refusal :=
  .next (whenLive s (doLaneDegraded p.val lanesOk))

/-- Training found a cabling error: a port to the module's own slot, or two ports to one slot (R322). -/
def State.miscabled (s : State) (p : Nat) (r : Training) : Bool :=
  decide (r.peerSlot < 9) && (r.peerSlot == s.board.slot ||
    (List.range 8).any (fun q => q != p && decide (2 ≤ (s.port q).st) && (s.port q).peerSlot == r.peerSlot))

/-- LINK_TRAINING_DONE: the port comes UP at full width; a reordered or miscabled one stays DOWN; failed lanes go by R320. -/
def doLinkTrainingDone (p : Nat) (r : Training) (s : State) : State :=
  if !(s.unit (112 + p)).active || !bitOf (s.lnkPcfg p) 0 then s
  else if r.reordered || s.miscabled p r then ((s.portGoesDown p).modPort p (fun x => { x with st := 0 })).logPort 0x5004 p 0
  else
    let s := if (s.port p).st = 0 then s.modPort p (fun x => { x with txSeq := 0, rxSeq := 0, sent := 0, replays := 0, replay := [], rx := [] }) else s
    let s := s.modPort p (fun x => { x with st := if x.st = 0 then 1 else x.st, peerSlot := r.peerSlot, peerLid := if r.peerLid ≤ 7 then r.peerLid else 0xF,
                                            lat := r.lat % 65536 })
    if r.lanesOk = 0xFF then s.modPort p (fun x => { x with st := 2, lanesOk := 0xFF }) else s.degrade p r.lanesOk.toNat

/-- LINK_TRAINING_DONE. -/
def execLinkTrainingDone (p : PortId) (r : Training) (s : State) : Host.Outcome State Fault Refusal :=
  .next (whenLive s (doLinkTrainingDone p.val r))

/-! ### The map (R323, R329) -/

/-- The port that reaches a slot, 0xF for this module's own slot or none. -/
def State.portToSlot (s : State) (sl : Nat) : Nat :=
  if sl = s.board.slot ∨ 9 ≤ sl then 0xF
  else ((List.range 8).find? (fun p => decide (2 ≤ (s.port p).st) && (s.port p).peerSlot == sl)).getD 0xF

/-- LNK_REMAP for a map of slots. -/
def State.remapWord (s : State) (slots : List Nat) (spare : Nat) : Nat :=
  (List.range 8).foldl (fun a l => a + s.portToSlot (slots.getD l 0xF) * 2 ^ (4 * l)) 0 + s.portToSlot spare * 2 ^ 32

/-- The slot of a logical ID, or of the spare as 8, by the map in force. -/
def State.slotOf (s : State) (i : Nat) : Nat :=
  if lidIx s.board.lid = i then s.board.slot
  else if s.portOfIx i < 8 then (s.port (s.portOfIx i)).peerSlot else 0xF

/-- This module becomes the beat master (R329): SOURCE 0b00, PERIOD the length last announced, HOLDOVER clear. -/
def State.becomeMaster (s : State) : State :=
  let v := setBits (setBits (s.shadowNow 0x100) 24 2 0) 0 16 s.beat.nextPeriod
  let s := s.maltsterSet [(0x100, v)]
  { s with pwr := { s.pwr with base := s.period }, beat := { s.beat with holdover := false, calm := 0 } }

/-- This module follows: SOURCE 0b10 (R21). -/
def State.becomeFollower (s : State) : State :=
  if s.source = 2 then s else s.maltsterSet [(0x100, setBits (s.shadowNow 0x100) 24 2 2)]

/-- Apply a map: LNK_REMAP, EPOCH, this module's logical ID and role (R323, R329, R437). -/
def State.applyMap (s : State) (slots : List Nat) (spare : Nat) : State :=
  let was := s.board.lid
  let lid := match (List.range 8).find? (fun l => slots.getD l 0xF == s.board.slot) with
    | some l => l
    | none => if spare = s.board.slot then 0xF else was
  let s := s.maltsterSet [(offLnkRemap, s.remapWord slots spare)]
  let s := State.advanceEpoch { s with board := { s.board with lid := lid, epoch := s.board.epoch + 1 } }
  if lid = was then s else if lid = 0 then s.becomeMaster else s.becomeFollower

/-- Slot SEL of the moment record and the master record of every slice of context c: first byte, bytes, and whether it is a master (R211);
`sh`: of the slices that the module shadows. -/
def State.slotRecords (s : State) (c : Nat) (sh : Bool) : List (Nat × Nat × Bool) :=
  let k := (s.ctx c).sealSlot
  ((List.range (s.ctx c).slices).flatMap (fun i =>
    let e := s.led c sh i
    [(ledMoma e + k * (ledMslot e * 256), ledMslot e * 256, false), (ledMsta e + k * (ledWslot e * 256), ledWslot e * 256, true)])).filter
      (fun r => r.2.1 != 0)

/-- Stream records to port p as TAKEOVER flits, one transfer for each granule of a record. A buddy (`back`) sends its shadow records, which land
at the owner's addresses; another module its own, which land in the shadow (R209, R343). -/
def State.streamRecords (s : State) (c p : Nat) (back : Bool) : State :=
  (s.slotRecords c back).foldl (fun s r =>
    let delta := if r.2.2 then (s.ctx c).shd2 else (s.ctx c).shd1
    let src := shadowed back delta r.1
    let dst := shadowed (!back) delta r.1
    (granulePieces dst r.2.1).foldl (fun s g =>
      let a := src + (g.1 - dst)
      s.putTransfer p { ftype := .takeover, ctx := c, srcLid := s.board.lid }
        ((List.range g.2).map (fun i => (s.rdCaByte c (a + i), s.caPoison c (a + i)))) (.record g.1)) s) s

/-- Step 4 of a takeover at the two modules that keep L's records and whose records L shadowed (R343). -/
def State.tkoStreams (s : State) : State :=
  let l := s.board.flid
  let n := max 1 s.board.nact
  let p := s.portOfLid l
  if s.board.lid = l ∨ !s.linked p then s
  else
    ((s.ctxsOf l).filter (fun c => (s.ctx c).mirror)).foldl (fun s c =>
      let s := if s.board.lid = s.buddyOf l then s.streamRecords c p true else s
      if s.board.lid = (l + n - 1) % n then s.streamRecords c p false else s) s

/-- A takeover's remap: the streams begin; the spare, now logical ID FLID, leaves standby in the contexts of that ID. -/
def State.remapTakeover (s : State) : State :=
  if s.board.phase = 1 ∨ s.board.phase = 2 then
    let l := s.board.flid
    let s := { s with board := { s.board with phase := 3, progress := 0, spareOk := false, unseen := smSet 0 s.board.unseen l 0 } }
    if s.board.lid = l then (s.ctxsOf l).foldl (fun s c => s.modCtx c (fun x => { x with standby := false })) s else s.tkoStreams
  else s

/-- BOARD_REMAP replies after its tick (R395). -/
def State.remapReplies (s : State) : State :=
  (List.range 17).foldl (fun s f => match (s.fn f).busy with
    | some k => if k.wait = .remap then s.lateReply f 0 [] else s
    | none => s) s

/-- REMAP_APPLY: at the named tick the new map applies. -/
def doRemapApply (s : State) : State :=
  match s.board.remapAt with
  | none => s
  | some (tr, slots, spare) =>
    if s.beat.tick < tr then s
    else
      let s := { s with board := { s.board with remapAt := none } }
      ((s.applyMap slots spare).remapTakeover).remapReplies

/-- REMAP_APPLY. -/
def execRemapApply (s : State) : Host.Outcome State Fault Refusal := .next (whenLive s doRemapApply)

/-! ### Takeover (R328, R342, R343, R345) -/

/-- R345: no takeover, or it fails: every context aborts and is set HALTED, and 0x500A is logged. -/
def State.takeoverFails (s : State) : State :=
  let s := State.logDev { s with board := { s.board with phase := 6, remapAt := none, sourcesMissing := false } } 0x500A none s.board.flid
  ((List.range 16).filter (fun c => (s.ctx c).st == .isOpen)).foldl (fun s c => s.abortHalt c 0x500A) s

/-- A takeover is under way: phases 1 to 4. -/
def State.tkoRuns (s : State) : Bool := decide (1 ≤ s.board.phase) && decide (s.board.phase ≤ 4)

/-- The first tick at least 8 ticks after the abort tick of a request made now (R35, R343). -/
def State.tkoTick (s : State) : Nat := s.beat.tick + 10

/-- The remap that the coordinator sends to every module it reaches, as CONTROL messages: the tick, the slots of the logical IDs, the
spare's (R343). -/
def State.sendRemap (s : State) (tick : Nat) (slots : List Nat) (spare : Nat) : State :=
  ((List.range 9).filter (fun i => s.peerIx i && decide (s.portOfIx i < 8))).foldl (fun s i =>
    s.putControl (s.portOfIx i) 0 (toBytes 8 tick ++ (slots.map (BitVec.ofNat 8)) ++ toBytes 4 spare) .remap) s

/-- Steps 1 and 2 of a takeover of logical ID l: the contexts of l abort; the coordinator names Tr and the map in which the spare
holds l. Where no spare is in service it fails (R345). -/
def State.startTakeover (s : State) (l : Nat) : State :=
  let s := { s with board := { s.board with flid := l } }
  if !s.board.spareOk && !s.isSpare then s.takeoverFails
  else
    let s := { s with board := { s.board with phase := 1, progress := 0 } }
    let s := (s.ctxsOf l).foldl (fun s c => s.requestAbort c 0x5007 none 0 false) s
    let slots := (List.range 8).map (fun i => if i = l then s.slotOf 8 else s.slotOf i)
    let s := { s with board := { s.board with remapAt := some (s.tkoTick, slots, 0xF) } }
    let s := s.logDev 0x5008 none l
    if s.isCoord then s.sendRemap s.tkoTick slots 0xF else s

/-- A module's failure may be declared: no marker for 3 ticks, or FAIL (R328). A logical ID that the spare has just taken over may fail
again. -/
def State.seemsFailed (s : State) (i : Nat) : Bool :=
  s.peerIx i && decide (3 ≤ smGet 0 s.board.unseen i) &&
  (!bitOf s.board.failed.toNat i || (s.board.flid == i && (s.board.phase == 3 || s.board.phase == 4)))

/-- PEER_FAILED: logical ID l is declared failed; with AUTO the takeover starts, else its contexts abort and halt (R343). A second
failure during a takeover ends it (R345). -/
def doPeerFailed (l : Nat) (s : State) : State :=
  if !s.seemsFailed l then s
  else
    let s := { s with board := { s.board with failed := s.board.failed ||| BitVec.ofNat 9 (2 ^ l) } }
    let s := s.logEvent 0x5007 none 31 0 0xB l 0
    if s.tkoRuns then s.takeoverFails
    else if s.board.auto then s.startTakeover l
    else (s.ctxsOf l).foldl (fun s c => s.abortHalt c 0x5007) s

/-- PEER_FAILED. -/
def execPeerFailed (l : Lid) (s : State) : Host.Outcome State Fault Refusal := .next (whenLive s (doPeerFailed l.val))

/-- The first granule of a SOURCED region of logical ID l's contexts that is still FRESH: its context and context address (R342). -/
def State.sourceFresh (s : State) (l : Nat) : Option (Nat × Nat) :=
  (s.ctxsOf l).findSome? (fun c =>
    ((s.ctx c).regions.filter (·.sourced)).findSome? (fun r =>
      ((List.range r.gcnt).find? (fun i => (s.pent (r.lgn0 + i)).fresh)).map (fun i => (c, (r.gbase + i) * granule))))

/-- The SOURCED granules of a context below their HOME tier are promoted to it, by the class of MEM_HINT (R343). -/
def State.tkoPromote (s : State) (c : Nat) : State :=
  ((s.ctx c).regions.filter (·.sourced)).foldl (fun s r =>
    (List.range r.gcnt).foldl (fun s i => if r.home < (s.pent (r.lgn0 + i)).tier then s.requestMove (r.lgn0 + i) 3 r.home else s) s) s

/-- Step 5: every context of FLID takes the board's SEL, and working weights are built. -/
def State.tkoBuild (s : State) : State :=
  let s := (s.ctxsOf s.board.flid).foldl (fun s c => (s.modCtx c (fun x => { x with sel := s.board.tkoSel })).tkoPromote c) s
  { s with board := { s.board with phase := 4, sourcesMissing := false } }

/-- The spare's check of its SOURCED regions (R342): a FRESH granule halts the takeover until the host has written it. -/
def State.tkoCheck (s : State) : State :=
  match s.sourceFresh s.board.flid with
  | some (c, ca) =>
    let s := State.logDev { s with board := { s.board with sourcesMissing := true } } 0x500E (some c) ca
    (s.ctxsOf s.board.flid).foldl (fun s c =>
      let s := s.modStep c (fun k => { k with halted := true, abortCode := 0x500E })
      match (s.ctx c).owner with
        | some f => s.msix f.val 2
        | none => s) s
  | none => s.tkoBuild

/-- TAKEOVER_STREAM_DONE: the spare has the shadow records, and re-forms its own. -/
def doTakeoverStreamDone (sel : Bool) (s : State) : State :=
  if s.board.phase ≠ 3 ∨ s.board.sourcesMissing = true then s
  else
    let s := { s with board := { s.board with tkoSel := sel } }
    if s.board.lid = s.board.flid then s.tkoCheck else { s with board := { s.board with phase := 4 } }

/-- TAKEOVER_STREAM_DONE. -/
def execTakeoverStreamDone (sel : Bool) (s : State) : Host.Outcome State Fault Refusal := .next (whenLive s (doTakeoverStreamDone sel))

/-- TAKEOVER_DONE: BUILD has ended; the step re-runs (R343, R352). -/
def doTakeoverDone (s : State) : State :=
  if s.board.phase ≠ 4 then s
  else
    let b := s.board
    State.logDev { s with board := { b with
      phase := 5, takeovers := satAdd 0xFFFF b.takeovers 1, failed := b.failed &&& ~~~ BitVec.ofNat 9 (2 ^ b.flid) } } 0x5009 none b.flid

/-- TAKEOVER_DONE. -/
def execTakeoverDone (s : State) : Host.Outcome State Fault Refusal := .next (whenLive s doTakeoverDone)

/-- SPARE_LOST: the spare fails: idle, the board runs on (R346); during a takeover, it fails (R345). -/
def doSpareLost (s : State) : State :=
  if !s.seemsFailed 8 then s
  else
    let s := { s with board := { s.board with spareOk := false } }
    if s.tkoRuns then s.takeoverFails else s.logDev 0x500B none 0

/-- SPARE_LOST. -/
def execSpareLost (s : State) : Host.Outcome State Fault Refusal := .next (whenLive s doSpareLost)

/-! ### The stretch level (R469, R470) -/

/-- The level that governs: a master's is the largest of its own and of every active module not failed. -/
def State.stretchLevel (s : State) : Nat :=
  if s.board.lid = 0 then
    (s.board.ks.filter (fun p => decide (p.1 < s.board.nact) && !bitOf s.board.failed.toNat p.1)).foldl (fun m p => max m p.2) s.pwr.k
  else s.pwr.k

/-- The maltster sets PERIOD to min(65,535, B + floor(B × k ÷ 16)) and strobes G0 at the next tick. -/
def State.applyStretch (s : State) : State :=
  let p := min 65535 (s.pwr.base + s.pwr.base * s.stretchLevel / 16)
  if bits (s.shadowNow 0x100) 0 16 = p then s
  else (s.setShadow 0x100 (setBits (s.shadowNow 0x100) 0 16 p)).arm 1 none true

/-- STRETCH_REPORT: the beat master receives a follower's level. -/
def doStretchReport (l k : Nat) (s : State) : State :=
  if s.board.lid ≠ 0 ∨ l = 0 ∨ 16 < k then s
  else State.applyStretch { s with board := { s.board with ks := smSet 0 s.board.ks l k } }

/-- STRETCH_REPORT. -/
def execStretchReport (l : Lid) (k : Nat) (s : State) : Host.Outcome State Fault Refusal := .next (whenLive s (doStretchReport l.val k))

end Sys2Proof.Machine
end

