-- ==== Sys2Proof/Machine/BoardCmds.lean ====
section
/-! DEFINITION. Commands of the board (R3, R322, R323, R340, R343, R347, R395, R396, R453): the rows BOARD_JOIN, BOARD_REMAP, SPARE_TAKEOVER
and MIRROR_SET. -/

namespace Sys2Proof.Machine

/-! ### BOARD_JOIN -/

/-- The role and logical ID that the active bundle's LINK_MAP gives a slot: role 0 absent, 1 active, 2 spare. -/
def State.linkEntry (s : State) (slot : Nat) : Nat × Nat := s.boot.active.linkMap.getD slot (0, 0xF)

/-- The slots of a role. -/
def State.slotsOfRole (s : State) (role : Nat) : List Nat := (List.range 9).filter (fun k => (s.linkEntry k).1 == role)

/-- The logical ID a module takes: an active one already held on a board with EPOCH above 0 makes it the spare (R395). -/
def State.joinLid (s : State) (slot : Nat) (epoch : BitVec 32) : Nat :=
  let e := s.linkEntry slot
  if e.1 = 2 then 0xF
  else if epoch ≠ 0 ∧ (List.range 8).any (fun p => decide (2 ≤ (s.port p).st) && (s.port p).peerLid == e.2) then 0xF
  else e.2

/-- Some slot of the map is reached by no port (R322). -/
def State.unreached (s : State) (slot : Nat) : Bool :=
  (s.slotsOfRole 1 ++ s.slotsOfRole 2).any (fun k => k != slot && State.portToSlot { s with board := { s.board with slot := slot } } k == 0xF)

/-- The slot of each logical ID as the module finds it: that of the port whose partner holds it, else the map's. -/
def State.joinSlots (s : State) (slot lid : Nat) : List Nat :=
  (List.range 8).map (fun l =>
    if lid = l then slot
    else match (List.range 8).find? (fun p => decide (2 ≤ (s.port p).st) && (s.port p).peerLid == l) with
      | some p => (s.port p).peerSlot
      | none => ((s.slotsOfRole 1).find? (fun k => (s.linkEntry k).2 == l && k != slot)).getD 0xF)

/-- The module has the board's key: the master draws one if it has none; a follower with another BOARD_ID takes the board's (R453). -/
def State.joinKey (s : State) (lid : Nat) (boardId : Word) : State :=
  if lid = 0 then
    (if s.boot.kb.isSome then s
     else State.logDev { s with boot := { s.boot with kb := some (Config.drbg s.boot.draws), boardId := (Config.drbg (s.boot.draws + 1)).setWidth 64,
                                                      draws := s.boot.draws + 2 } } 0x8006 none 0)
  else if s.boot.kb.isSome ∧ s.boot.boardId = boardId then s
  else State.logDev { s with boot := { s.boot with kb := some (Config.boardKey boardId), boardId := boardId } } 0x8006 none 0

/-- The exchange of Table 19-3 runs. -/
def State.keyExchange (s : State) (lid : Nat) (boardId : Word) : Bool := lid != 0 && !(s.boot.kb.isSome && s.boot.boardId == boardId)

/-- Join the board as logical ID lid. LNK_REMAP takes effect at the next tick (R323). -/
def State.join (s : State) (slot lid : Nat) (boardId : Word) (epoch : BitVec 32) : State :=
  let s := s.joinKey lid boardId
  let spare := (s.slotsOfRole 2).headD 0xF
  let b := s.board
  let s := { s with board := { b with
      lid := lid, slot := slot, nact := (s.slotsOfRole 1).length, spareOk := lid == 0xF || spare != 0xF, auto := s.boot.active.auto, epoch := epoch,
      alive := 0, failed := 0, unseen := [], phase := 0, progress := 0, fail := false } }
  let s := (s.setShadow offLnkRemap (s.remapWord (s.joinSlots slot lid) (if lid = 0xF then slot else spare))).arm 8 none true
  if lid = 0 then s else s.becomeFollower

/-- The SLOT_IDs of a board: 0 to 8, and 0 to 4 on the -8S (R489, chapter 21). -/
def slotIdOk (v : Variant) (slot : Nat) : Bool := decide (slot < if v = .s8 then 5 else 9)

/-- BOARD_JOIN. The operands are what the module reads of the board: SLOT_ID, the master's GLB_CAP, the board's BOARD_ID and EPOCH, and
whether the peers authenticate. -/
def doBoardJoin (h : ReqHdr) (slot : Nat) (masterCap boardId : Word) (epoch : BitVec 32) (auth : Bool) (s : State) : State :=
  let lid := s.joinLid slot epoch
  s.command h ⟨0x0070, 0, .pf, .none, false, false⟩ [bad ((s.linkEntry slot).1 == 0 || !slotIdOk s.variant slot) 0x0004]
    [bad ((List.range 16).any (fun c => (s.ctx c).st == .isOpen)) 0x0007,
     bad (lid != 0 && bits masterCap.toNat 56 8 != bits (capWord s.variant) 56 8) 0x000C]
    (fun s =>
      if s.unreached slot then (s.logEvent 0x5004 none 31 0 0xB slot 0, .done 0x0004 [])
      else if s.keyExchange lid boardId && !auth then (s.logEvent 0x8005 none 31 0 0xB slot 0, .done 0x000B [])
      else (s.join slot lid boardId epoch, .done 0 (leB 1 lid ++ leB 1 (s.slotsOfRole 1).length ++ leB 2 0 ++ leB 4 epoch.toNat)))

/-- BOARD_JOIN. -/
def execBoardJoin (h : ReqHdr) (slotId : Nat) (masterCap boardId : Word) (epoch : BitVec 32) (peerAuth : Bool) (s : State) :
    Host.Outcome State Fault Refusal := .next (whenLive s (doBoardJoin h slotId masterCap boardId epoch peerAuth))

/-! ### BOARD_REMAP -/

/-- A joined module stands in a slot. -/
def State.joinedAt (s : State) (slot : Nat) : Bool := slot == s.board.slot || s.portToSlot slot != 0xF

/-- The fields that BOARD_REMAP refuses: TICK, and a slot with no joined module. -/
def State.remapBad (s : State) (tick : Nat) (slots : List Nat) (spare : Nat) : Bool :=
  decide (tick < s.beat.tick + 8) || (spare :: slots).any (fun k => k != 0xF && !(decide (k < 9) && s.joinedAt k))

/-- BOARD_REMAP, at the beat master, which tells every module; it replies after TICK. -/
def doBoardRemap (h : ReqHdr) (tick : Nat) (slots : List Nat) (spare : Nat) (s : State) : State :=
  s.command h ⟨0x0071, 24, .pf, .none, false, false⟩ [bad (s.remapBad tick slots spare) 0x0004]
    [bad (s.board.lid != 0 || s.board.remapAt.isSome || (List.range 16).any (fun c => !s.idle c)) 0x0007]
    (fun s => (State.sendRemap { s with board := { s.board with remapAt := some (tick, slots, spare) } } tick slots spare, .wait .remap))

/-- BOARD_REMAP. -/
def execBoardRemap (h : ReqHdr) (tick : Nat) (slots : List Nat) (spare : Nat) (s : State) : Host.Outcome State Fault Refusal :=
  .next (whenLive s (doBoardRemap h tick slots spare))

/-! ### SPARE_TAKEOVER (R343, R345, R396) -/

/-- A module that is still alive is told to set FAIL; the takeover then runs as for a failure. -/
def State.tellFail (s : State) (l : Nat) : State :=
  if bitOf s.board.failed.toNat l then s
  else
    let s := if s.board.lid = l then { s with board := { s.board with fail := true } } else s.putControl (s.portOfLid l) 0 [] .setFail
    State.logEvent { s with board := { s.board with failed := s.board.failed ||| BitVec.ofNat 9 (2 ^ l) } } 0x5007 none 31 0 0xB l 0

/-- SPARE_TAKEOVER: detached until TAKEOVER_DONE or TAKEOVER_FAILED. -/
def doSpareTakeover (h : ReqHdr) (flid : Nat) (s : State) : State :=
  s.command h ⟨0x0072, 8, .pf, .none, true, false⟩ [bad (decide (8 ≤ flid) || decide (s.board.nact ≤ flid)) 0x0004] [bad s.tkoRuns 0x0007]
    (fun s => ((s.tellFail flid).startTakeover flid, .detach .takeover))

/-- SPARE_TAKEOVER. -/
def execSpareTakeover (h : ReqHdr) (flid : Nat) (s : State) : Host.Outcome State Fault Refusal := .next (whenLive s (doSpareTakeover h flid))

/-! ### MIRROR_SET (R209, R340, R396) -/

/-- MIRROR_SET. -/
def doMirrorSet (h : ReqHdr) (on mcmpEn : Bool) (mcmp delta1 delta2 : Nat) (s : State) : State :=
  let c := h.ctx
  s.command h ⟨0x0073, 24, .own, .idle, false, false⟩
    [bad (delta1 % granule != 0 || delta2 % granule != 0 || decide (2 ^ 48 ≤ delta1) || decide (2 ^ 48 ≤ delta2) || decide (64 ≤ mcmp)) 0x0004] []
    (fun s => (State.modCtx { s with board := { s.board with mcmp := mcmp, mcmpEn := mcmpEn } } c
      (fun x => { x with mirror := on, shd1 := delta1, shd2 := delta2 }), .done 0 []))

/-- MIRROR_SET. -/
def execMirrorSet (h : ReqHdr) (on mcmpEn : Bool) (mcmp delta1 delta2 : Nat) (s : State) : Host.Outcome State Fault Refusal :=
  .next (whenLive s (doMirrorSet h on mcmpEn mcmp delta1 delta2))

end Sys2Proof.Machine
end

