-- ==== Sys2Proof/Machine/CtxCmds.lean ====
section
/-! DEFINITION. Commands of contexts (R380, R386, R387, R371, R248, R249, R428): the rows HELLO, CTX_OPEN, CTX_CLOSE, CTX_QUOTA_SET, CTX_ADOPT,
RESET_FUNC and RESET_DEVICE. -/

namespace Sys2Proof.Machine

/-! ### HELLO -/

/-- CFGSTATE: 0 confirmed, 1 probation, 2 staged. -/
def State.cfgState (s : State) : Nat := if s.boot.probation then 1 else if s.boot.otherSt = .staged then 2 else 0

/-- Seconds of probation left. -/
def State.probLeft (s : State) : Nat :=
  if s.boot.probation then s.boot.active.probS - (s.beat.now - s.boot.probSince) / 600000000 else 0

/-- FWVER: 0 in recovery mode (R447), else the running firmware's (log entry 32). -/
def State.fwVer (s : State) : Nat := if s.boot.recovery then 0 else Config.fwVersion s.boot.fwDig

/-- BUNDLEVER: 0 in recovery mode (R447). -/
def State.bundleVer (s : State) : Nat := if s.boot.recovery then 0 else s.boot.active.version

/-- The reply of HELLO to issuer f. -/
def State.helloBody (s : State) (f : Nat) : List Byte :=
  leB 4 s.fwVer ++ leB 4 s.bundleVer ++ leB 8 (capWord s.variant) ++ leB 1 f ++ leB 1 1 ++ leB 2 s.cfgState ++ leB 4 s.probLeft

/-- HELLO: the first command after a reset of the function (R380). -/
def doHello (h : ReqHdr) (s : State) : State :=
  s.command h ⟨0x0001, 8, .any, .none, false, false⟩ [] []
    (fun s =>
      let f := issuerNo h.issuer
      (if f < 16 then s.modFn f (fun x => { x with needHello := false }) else s, .done 0 (s.helloBody f)))

/-- HELLO. -/
def execHello (h : ReqHdr) (s : State) : Host.Outcome State Fault Refusal := .next (whenLive s (doHello h))

/-! ### CTX_OPEN (R356, R386) -/

/-- The bundle's limits for function f (R397): tile sets, BANK, BULK, CELLAR. -/
def State.bundleLimit (s : State) (f : Nat) : Option (Nat × Nat × Nat × Nat) := (s.boot.active.quota.find? (fun p => p.1 == f)).map (·.2)

/-- The tiles of a mask of tile sets. -/
def tilesOf (ts : Nat) : List Nat := (List.range 96).filter (fun t => bitOf ts (t / 4))

/-- A limit of the bundle's QUOTA section is broken. -/
def State.overTiles (s : State) (f ts : Nat) : Bool :=
  match s.bundleLimit f with
  | some (n, _) => decide (n < popCount 24 ts)
  | none => false

/-- The counters that CTX_OPEN clears in the tiles it gives (R133), CASK_DROP_CNT with them (R165). -/
def Tile.clearCounts (x : Tile) : Tile :=
  { x with invCnt := 0, satCnt := 0, flushCnt := 0, ovfCnt := 0, cmpCnt := 0, cask := { x.cask with dropCnt := 0 } }

/-- A context as CTX_OPEN leaves it, what the number kept apart: KLN_CNT clears as a tile's counters do (R133, R212). -/
def Ctx.opened (x : Ctx) (f : FnId) (r : OpenReq) (timeout : Nat) : Ctx :=
  { x with st := .isOpen, pendEn := !x.releasing.isEmpty, owner := some f, orig := none, frozen := false, standby := r.standby, lastLevel := 0,
           lastCode := 0, l1Cnt := 0, l2Cnt := 0, tsets := r.tsets, seed := r.seed, oneSlot := r.oneSlot, sel := false, coefA := r.coefA,
           timeout := timeout, tables := [], rerunCnt := 0, nonfinCnt := 0, deferCnt := 0 }

/-- LNK_PART of a context as it opens: this module, and the peers it spans (free value, log entry 29). -/
def State.openPart (s : State) (c : Nat) : State :=
  if s.standalone then s else
  let own : BitVec 8 := if s.board.lid < 8 then BitVec.ofNat 8 (2 ^ s.board.lid) else 0
  let act : BitVec 8 := BitVec.ofNat 8 (2 ^ s.board.nact - 1)
  { s with board := { s.board with part := smSet 0 s.board.part c ((Config.partOf c s.board.opens &&& act) ||| own), opens := s.board.opens + 1 } }

/-- Open context c for function f. -/
def State.openCtx (s : State) (c : Nat) (f : FnId) (r : OpenReq) : State :=
  let s := s.modCtx c (fun x => x.opened f r s.boot.active.timeout.toNat)
  let s := (s.ctxTiles c).foldl (fun s t => (s.modTile t Tile.clearCounts).requestWake (16 + t)) s
  s.openPart c

/-- CTX_OPEN. -/
def doCtxOpen (h : ReqHdr) (r : OpenReq) (s : State) : State :=
  let c := h.ctx
  let ts := r.tsets.toNat
  s.command h ⟨0x0010, 24, .free, .none, false, false⟩
    [bad (ts == 0 || r.coefA % 64 != 0 || decide (scratchBase ≤ r.coefA)) 0x0004]
    [bad (s.hub.mode == 0) 0x0007,
     bad ((s.ctx c).st == .isOpen) 0x000D,
     bad ((tilesOf ts).any (fun t => (s.tileCtx t).isSome)) 0x0008,
     bad ((tilesOf ts).any (fun t => (s.unit (16 + t)).quar)) 0x0010,
     bad (s.overTiles (issuerNo h.issuer) ts) 0x0008]
    (fun s => match h.issuer with
      | .fn f => (s.openCtx c f r, .done 0 [])
      | .mgmt => (s, .done 0 []))

/-- CTX_OPEN. -/
def execCtxOpen (h : ReqHdr) (r : OpenReq) (s : State) : Host.Outcome State Fault Refusal := .next (whenLive s (doCtxOpen h r))

/-! ### CTX_CLOSE (R387) -/

/-- CTX_CLOSE: with FORCE and a step in flight it waits for the abort tick. -/
def doCtxClose (h : ReqHdr) (s : State) : State :=
  let c := h.ctx
  s.command h ⟨0x0011, 0, .ownPf, .idleForce, false, false⟩ [] []
    (fun s =>
      let s := s.endDetached c
      if s.idle c then (s.closeCtx c, .done 0 []) else (s.hostAbort c, .wait .close))

/-- CTX_CLOSE. -/
def execCtxClose (h : ReqHdr) (s : State) : Host.Outcome State Fault Refusal := .next (whenLive s (doCtxClose h))

/-! ### CTX_QUOTA_SET (R164, R204, R248, R249) -/

/-- A context with the granule quotas of a request. -/
def Ctx.withQuota (x : Ctx) (r : QuotaReq) : Ctx :=
  { x with qBank := r.bank, qBankCask := r.bankCask, qLedger := r.ledger, qBulk := r.bulk, qBulkCask := r.bulkCask, qCel := r.cellar }

/-- The quotas of a context as a request. -/
def Ctx.quotas (x : Ctx) : QuotaReq :=
  { bank := x.qBank, bankCask := x.qBankCask, ledger := x.qLedger, bulk := x.qBulk, bulkCask := x.qBulkCask, cellar := x.qCel,
    pool0 := x.pools.getD 0 0, pool1 := x.pools.getD 1 0, pool2 := x.pools.getD 2 0, pool3 := x.pools.getD 3 0,
    deferRecs := x.deferQuota, slots := x.cmbSlots }

/-- The quota of a tier. -/
def Ctx.tierQuota (x : Ctx) (tier : Nat) : Nat := if tier = 1 then x.qBank else if tier = 2 then x.qBulk else x.qCel

/-- Granules of context c charged to a use in a tier, checkpoints among them (R248, R394). -/
def State.usedBy (s : State) (c tier use : Nat) : Nat :=
  (s.charged c tier).countP (fun l => s.useOf c l == use) + (if tier = 3 ∧ use = 0 then s.tierUse c 3 - (s.charged c 3).length else 0)

/-- Pinned granules of context c charged to a use in a tier. -/
def State.pinnedBy (s : State) (c tier use : Nat) : Nat := (s.charged c tier).countP (fun l => s.useOf c l == use && (s.pent l).pinned)

/-- The pairs of tier and use that hold a quota (R248). -/
def quotaClasses : List (Nat × Nat) := [(1, 0), (1, 1), (1, 2), (2, 0), (2, 1), (3, 0)]

/-- Some quota of x lies below the present use of context c. -/
def State.overQuota (s : State) (c : Nat) (x : Ctx) : Bool := quotaClasses.any (fun p => decide (x.quota p.1 p.2 < s.usedBy c p.1 p.2))

/-- The quotas of all contexts for a tier, with x in the place of context c's, exceed TIER_CAP (R249). -/
def State.overCap (s : State) (c : Nat) (x : Ctx) (tier : Nat) : Bool :=
  decide (s.tierCap tier < (List.range 16).foldl (fun a k => a + if k = c then x.tierQuota tier else (s.ctx k).tierQuota tier) 0)

/-- The pool pieces that a request names. -/
def QuotaReq.pools (r : QuotaReq) : List (BitVec 32) := [r.pool0, r.pool1, r.pool2, r.pool3]

/-- A named pool piece belongs to another context (R52). -/
def State.poolTaken (s : State) (c : Nat) (r : QuotaReq) : Bool :=
  (List.range 16).any (fun k => k != c && (s.ctx k).st == .isOpen &&
    (List.range 4).any (fun d => (QuotaReq.pools r).getD d 0 &&& (s.ctx k).pools.getD d 0 != 0))

/-- A quota exceeds the bundle's limit for function f. -/
def State.overBundle (s : State) (f : Nat) (r : QuotaReq) : Bool :=
  match s.bundleLimit f with
  | some (_, b, u, e) => decide (b < r.bank) || decide (u < r.bulk) || decide (e < r.cellar)
  | none => false

/-- The first granule number of context c's lowest cask region whose HOME is a tier, and its granules; 0 and none where there is no such
region (R164; reading in log entry 33). -/
def State.spillBase (s : State) (c tier : Nat) : Nat × Nat :=
  (((s.ctx c).regions.filter (fun r => r.use == 1 && r.home == tier)).foldl (fun (a : Option (Nat × Nat)) r => match a with
    | none => some (r.gbase, r.gcnt)
    | some g => some (if r.gbase < g.1 then (r.gbase, r.gcnt) else g)) none).getD (0, 0)

/-- The spill areas of context c's tiles: each tier's cask sub-quota split among the tiles in ascending number (R164). -/
def State.setSpills (s : State) (c : Nat) : State :=
  let tiles := s.ctxTiles c
  let n := tiles.length
  let x := s.ctx c
  let share (q i : Nat) : Nat := q / n + if i < q % n then 1 else 0
  let first (q i : Nat) : Nat := q / n * i + min i (q % n)
  let b1 := s.spillBase c 1
  let b2 := s.spillBase c 2
  (List.range n).foldl (fun s i =>
    s.modTile (tiles.getD i 0) (fun y => { y with cask := { y.cask with
      gcnt1 := share x.qBankCask i, gbase1 := if b1.2 = 0 then 0 else b1.1 + first x.qBankCask i, lim1 := min (share x.qBankCask i) (b1.2 - first x.qBankCask i),
      gcnt2 := share x.qBulkCask i, gbase2 := if b2.2 = 0 then 0 else b2.1 + first x.qBulkCask i, lim2 := min (share x.qBulkCask i) (b2.2 - first x.qBulkCask i) } })) s

/-- The deferred area: the last records of context c's lowest ledger region (R204; reading in log entry 33). -/
def State.setDefer (s : State) (c : Nat) : State :=
  let led := ((s.ctx c).regions.filter (fun r => r.use == 2)).foldl (fun (a : Option Region) r => match a with
    | none => some r
    | some q => if r.gbase < q.gbase then some r else some q) none
  s.modCtx c (fun x => { x with fbase := match led with
    | some r => (r.gbase + r.gcnt) * granule - 256 * x.deferQuota
    | none => 0 })

/-- The areas that the maltster sets in regions, and the granules it pins. -/
def State.setAreas (s : State) (c : Nat) : State := ((s.setSpills c).setDefer c).repin c

/-- Granules of a use in a tier that may be evicted for a lowered quota, coldest first, then by number (R249, R254). -/
def State.coldest (s : State) (c tier use : Nat) : List Nat :=
  let ok (p : Nat × PEntry) : Bool := p.2.ctx == c && p.2.tier == tier && p.2.mstate == 0 && !p.2.pinned && s.useOf c p.1 == use &&
    (match s.regionOfLgn c p.1 with
      | some r => decide (tier < r.bottom) && !(tier == 2 && p.2.poison)
      | none => false)
  ((s.place.filter ok).foldl (fun (l : List (Nat × PEntry)) p =>
    l.takeWhile (fun q => q.2.heat ≤ p.2.heat) ++ [p] ++ l.dropWhile (fun q => q.2.heat ≤ p.2.heat)) []).map (·.1)

/-- Queue the evictions of a lowered quota (R249); the flag says that some excess has no granule to evict. -/
def State.shrink (s : State) (c : Nat) : State × Bool :=
  [(1, 0), (1, 1), (1, 2), (2, 0), (2, 1)].foldl (fun (a : State × Bool) p =>
    let excess := s.usedBy c p.1 p.2 - (s.ctx c).quota p.1 p.2
    let l := (s.coldest c p.1 p.2).take excess
    (l.foldl (fun s g => s.requestMove g 3 (p.1 + 1) false true) a.1, a.2 || decide (l.length < excess))) (s, false)

/-- The quotas of context c are set. -/
def State.setQuota (s : State) (c : Nat) (r : QuotaReq) : State :=
  (s.modCtx c (fun x => { (x.withQuota r) with pools := QuotaReq.pools r, deferQuota := r.deferRecs, cmbSlots := r.slots })).setAreas c

/-- CTX_QUOTA_SET. -/
def doCtxQuotaSet (h : ReqHdr) (r : QuotaReq) (s : State) : State :=
  let c := h.ctx
  let x := (s.ctx c).withQuota r
  let low := s.overQuota c x
  s.command h ⟨0x0012, 48, .own, .none, true, true⟩
    [bad (!cellarFitted s.variant && r.cellar != 0) 0x0009]
    [bad (low && !s.idle c) 0x0007,
     bad (decide (r.bank < r.bankCask + r.ledger) || decide (r.bulk < r.bulkCask)) 0x0008,
     bad (s.overCap c x 1 || s.overCap c x 2 || s.overCap c x 3) 0x0008,
     bad (decide (r.cellar < s.tierUse c 3)) 0x0008,
     bad (quotaClasses.any (fun p => decide (x.quota p.1 p.2 < s.pinnedBy c p.1 p.2))) 0x0008,
     bad (s.overBundle (issuerNo h.issuer) r || s.poolTaken c r) 0x0008]
    (fun s =>
      let old := (s.ctx c).quotas
      let s := s.setQuota c r
      if low then ((s.shrink c).1, .detach (.quota old (s.shrink c).2)) else (s, .done 0 []))

/-- CTX_QUOTA_SET. -/
def execCtxQuotaSet (h : ReqHdr) (r : QuotaReq) (s : State) : Host.Outcome State Fault Refusal := .next (whenLive s (doCtxQuotaSet h r))

/-! ### CTX_ADOPT (R371, R372) -/

/-- Whether function f may adopt the frozen context c: its original function, or one of the other port by PCI_POLICY. -/
def State.mayAdopt (s : State) (f c : Nat) : Bool :=
  match (s.ctx c).owner with
  | none => false
  | some o => f == o.val || (decide (o.val < 8) && decide (8 ≤ f) && s.boot.active.adoptAB) || (decide (8 ≤ o.val) && decide (f < 8) && s.boot.active.adoptBA)

/-- The window and flag registers of function f return to reset. -/
def State.clearWindow (s : State) (f : Nat) : State :=
  let keep (p : Nat × Word) : Bool := !(decide (0x1800000 + 0x1000 * f ≤ p.1) && decide (p.1 < 0x1801000 + 0x1000 * f))
  { s with rwi := s.rwi.filter keep, rwiNew := s.rwiNew.filter keep }

/-- Adopt context c by function f. -/
def State.adopt (s : State) (c : Nat) (f : FnId) : State :=
  let old := match (s.ctx c).owner with
    | some o => o.val
    | none => f.val
  let s := ((s.ctx c).regions.filter (·.host)).foldl (fun s r => s.unmapRegion c r) s
  let s := (s.clearWindow old).modCtx c (fun x => { x with owner := some f, frozen := false })
  (s.logEvent 0x6004 (some c) f.val 0 7 f.val 0).msix (8 * (old / 8)) 3

/-- CTX_ADOPT. -/
def doCtxAdopt (h : ReqHdr) (s : State) : State :=
  let c := h.ctx
  let x := s.ctx c
  s.command h ⟨0x0013, 0, .free, .none, false, false⟩
    [bad (x.st != .isOpen || (x.frozen && !s.mayAdopt (issuerNo h.issuer) c)) 0x0005]
    [bad (!x.frozen) 0x000D]
    (fun s => match h.issuer with
      | .fn f => (s.adopt c f, .done 0 [])
      | .mgmt => (s, .done 0 []))

/-- CTX_ADOPT. -/
def execCtxAdopt (h : ReqHdr) (s : State) : Host.Outcome State Fault Refusal := .next (whenLive s (doCtxAdopt h))

/-! ### Resets (R428, R429) -/

/-- RESET_FUNC: L2 of the context's function, after the reply. -/
def doResetFunc (h : ReqHdr) (s : State) : State :=
  let c := h.ctx
  s.command h ⟨0x0090, 0, .ownPf, .none, false, false⟩ [] [] (fun s => (s, .done 0 []))
    (fun s => match (s.ctx c).owner with
      | some o => s.startL2 o.val causeResetFunc
      | none => s)

/-- RESET_FUNC. -/
def execResetFunc (h : ReqHdr) (s : State) : Host.Outcome State Fault Refusal := .next (whenLive s (doResetFunc h))

/-- RESET_DEVICE: L3, with KEEP in the place of MOD_KEEP, after the reply. -/
def doResetDevice (h : ReqHdr) (s : State) : State :=
  s.command h ⟨0x0091, 0, .pf, .none, false, false⟩ [] [] (fun s => (s, .done 0 [])) (fun s => s.startL3 0x0091 h.keep .none)

/-- RESET_DEVICE. -/
def execResetDevice (h : ReqHdr) (s : State) : Host.Outcome State Fault Refusal := .next (whenLive s (doResetDevice h))

end Sys2Proof.Machine
end

