-- ==== Sys2Proof/Machine/MemCmds.lean ====
section
/-! DEFINITION. Commands of memory (R243, R244, R247, R250, R251, R363, R388): the rows MEM_MAP, MEM_UNMAP, MEM_PIN, MEM_UNPIN and
MEM_HINT. -/

namespace Sys2Proof.Machine

/-! ### MEM_MAP -/

/-- The tiers of a region break the order of R243, or name a tier that the part lacks (R17). -/
def MapReq.tiersBad (v : Variant) (r : MapReq) : Bool :=
  if r.host then r.home != 0 || r.top != 0 || r.bottom != 0
  else !(decide (1 ≤ r.top) && decide (r.top ≤ r.home) && decide (r.home ≤ r.bottom) && decide (r.bottom ≤ 3)) || (!cellarFitted v && r.bottom == 3)

/-- What R388 refuses with BAD_FIELD. -/
def MapReq.bad (v : Variant) (r : MapReq) : Bool :=
  r.ca % granule != 0 || r.gcnt == 0 || decide (scratchBase < r.ca + r.gcnt * granule) || MapReq.tiersBad v r ||
  (r.host && (decide (500 < r.gcnt) || r.bus.any (fun b => b % 4096 != 0))) ||
  (r.exporting && !(r.home == 1 && r.top == 1 && r.bottom == 1)) || decide (3 ≤ r.use) ||
  (r.use == 1 && (r.home == 3 || r.top == 3 || r.bottom == 3)) || (r.use == 2 && !(r.home == 1 && r.top == 1 && r.bottom == 1))

/-- STKMASK names a stack that the part lacks (R7). -/
def MapReq.noUnit (v : Variant) (r : MapReq) : Bool := (List.range 8).any (fun n => bitOf r.stkMask.toNat n && !stackFitted v n)

/-- The runs of placement entries in use: first entry and count. -/
def State.lgnRuns (s : State) : List (Nat × Nat) :=
  (List.range 16).flatMap (fun c => ((s.ctx c).regions ++ (s.ctx c).releasing).map (fun r => (r.lgn0, r.gcnt)))

/-- Placement entries lo to lo + n are free; the store holds 9,437,184 (Table 10-2). -/
def State.lgnFree (s : State) (lo n : Nat) : Bool :=
  decide (lo + n ≤ 9437184) && s.lgnRuns.all (fun p => decide (lo + n ≤ p.1) || decide (p.1 + p.2 ≤ lo))

/-- A run of n free placement entries: the maltster's choice where it is free (log entry 31), else the lowest. -/
def State.pickLgn (s : State) (n : Nat) : Option Nat :=
  let c := Config.mapPick s.mig.maps true
  if s.lgnFree c n then some c else (0 :: s.lgnRuns.map (fun p => p.1 + p.2)).find? (fun lo => s.lgnFree lo n)

/-- A free region number of context c, below 1,024. -/
def State.pickRegion (s : State) (c : Nat) : Option Nat :=
  let free (n : Nat) : Bool := decide (n < 1024) && (s.ctx c).regions.all (fun r => r.no != n)
  let n := Config.mapPick s.mig.maps false
  if free n then some n else (List.range 1024).find? free

/-- Two regions of a context overlap (R236). -/
def Region.meets (r : Region) (gbase gcnt : Nat) : Bool := decide (r.gbase < gbase + gcnt) && decide (gbase < r.gbase + r.gcnt)

/-- Place granules lgn0 to lgn0 + n of a region, FRESH, one after the other (R244); none where a frame lacks. -/
def placeAll (c : Nat) (r : Region) : Nat → Nat → State → Option State
  | 0, _, s => some s
  | n + 1, l, s =>
    match s.pickFrame r.home (r.mask r.home) with
    | none => none
    | some f => placeAll c r n (l + 1) (s.modPent l (fun _ => { ({} : PEntry) with tier := r.home, fresh := true, loc := f, ctx := c }))

/-- The region that a request makes. -/
def MapReq.region (r : MapReq) (no lgn0 : Nat) : Region :=
  { no := no, gbase := r.ca / granule, gcnt := r.gcnt, lgn0 := lgn0, home := r.home, top := r.top, bottom := r.bottom, use := r.use,
    noHeat := r.noHeat, stkMask := r.stkMask, chMask := r.chMask, host := r.host, sourced := r.sourced, exporting := r.exporting,
    bus := if r.host then r.bus else [] }

/-- The region and the placed state of a map of context c; none where it breaks R236, R244 or R363. -/
def State.mapped (s : State) (c : Nat) (r : MapReq) : Option (State × Region) :=
  let x := s.ctx c
  let hosts := x.regions.filter (·.host)
  if x.regions.any (fun q => q.meets (r.ca / granule) r.gcnt) then none
  else if r.host && (decide (64 ≤ hosts.length) || decide (4096 < hosts.foldl (fun a q => a + q.gcnt) r.gcnt)) then none
  else if !r.host && !s.quotaRoom c r.home r.use r.gcnt then none
  else match s.pickRegion c, s.pickLgn r.gcnt with
    | some no, some lgn0 =>
      let q := MapReq.region r no lgn0
      if r.host then some (s, q) else (placeAll c q r.gcnt lgn0 s).map (fun s => (s, q))
    | _, _ => none

/-- Enter a region in the table of context c, and set what the maltster keeps in regions. -/
def State.addRegion (s : State) (c : Nat) (q : Region) : State :=
  let s := s.modCtx c (fun x => { x with regions := x.regions ++ [q] })
  let s := { s with mig := { s.mig with maps := s.mig.maps + 1 } }
  if q.use = 0 then s.repin c else s.setAreas c

/-- MEM_MAP. -/
def doMemMap (h : ReqHdr) (r : MapReq) (s : State) : State :=
  let c := h.ctx
  s.command h ⟨0x0020, if r.host then 32 + 8 * r.gcnt else 24, .own, .none, false, false⟩
    [bad (MapReq.bad s.variant r) 0x0004, bad (MapReq.noUnit s.variant r) 0x0009] [bad (s.mapped c r).isNone 0x0008]
    (fun s => match s.mapped c r with
      | some (s, q) => (s.addRegion c q, .done 0 (leB 2 q.no ++ leB 2 0 ++ leB 4 q.lgn0))
      | none => (s, .done 8 []))

/-- MEM_MAP. -/
def execMemMap (h : ReqHdr) (r : MapReq) (s : State) : Host.Outcome State Fault Refusal := .next (whenLive s (doMemMap h r))

/-! ### MEM_UNMAP (R247) -/

/-- The region of context c whose first granule is at ca. -/
def State.regionAt (s : State) (c ca : Nat) : Option Region :=
  if ca % granule = 0 then (s.ctx c).regions.find? (fun r => r.gbase == ca / granule) else none

/-- MEM_UNMAP. A region with a granule under MPIN stays mapped. -/
def doMemUnmap (h : ReqHdr) (ca : Nat) (s : State) : State :=
  let c := h.ctx
  s.command h ⟨0x0021, 8, .own, .none, false, true⟩ [bad (s.regionAt c ca).isNone 0x0004]
    [bad (match s.regionAt c ca with
      | some r => r.lgns.any (fun l => (s.pent l).mpin)
      | none => false) 0x0007]
    (fun s => match s.regionAt c ca with
      | some r => (s.unmapRegion c r, .done 0 [])
      | none => (s, .done 4 []))

/-- MEM_UNMAP. -/
def execMemUnmap (h : ReqHdr) (ca : Nat) (s : State) : Host.Outcome State Fault Refusal := .next (whenLive s (doMemUnmap h ca))

/-! ### MEM_PIN, MEM_UNPIN and MEM_HINT (R250, R251) -/

/-- The logical granules that a request names; none where one of them has no frame. -/
def State.named (s : State) (c ca gcnt : Nat) : Option (List Nat) :=
  if scratchBase < ca + gcnt * granule then none else s.lgnsOf c ca (gcnt * granule)

/-- The fields that the three commands refuse: address, count and tier. -/
def State.rangeBad (s : State) (c ca gcnt : Nat) : Bool := ca % granule != 0 || gcnt == 0 || (s.named c ca gcnt).isNone

/-- A granule lies in a tier and is not leaving it. -/
def State.restsIn (s : State) (l tier : Nat) : Bool :=
  let e := s.pent l
  e.tier == tier && (e.mstate == 0 || e.dtier == tier)

/-- MEM_PIN of granules: those that lie in the tier are pinned at once, the others asked to move there. The command is detached while
a move is needed. -/
def State.pinAll (s : State) (l : List Nat) (tier : Nat) : State × Ans :=
  let kept := l.filter (fun g => s.restsIn g tier && (s.pent g).hpin)
  let away := l.filter (fun g => !s.restsIn g tier)
  (l.foldl (fun s g => if s.restsIn g tier then s.modPent g (fun e => { e with hpin := true })
    else (s.modPent g (fun e => { e with hpin := false })).requestMove g 3 tier true) s,
   if away.isEmpty then .done 0 [] else .detach (.pin l tier kept))

/-- MEM_PIN. -/
def doMemPin (h : ReqHdr) (ca gcnt tier : Nat) (s : State) : State :=
  let c := h.ctx
  s.command h ⟨0x0022, 16, .own, .none, true, false⟩
    [bad (s.rangeBad c ca gcnt || tier == 0 || decide (3 < tier)) 0x0004, bad (tier == 3 && !cellarFitted s.variant) 0x0009]
    [bad (((s.named c ca gcnt).getD []).any (fun g => (s.pent g).mpin && (s.pent g).tier != tier)) 0x0007]
    (fun s => s.pinAll ((s.named c ca gcnt).getD []) tier)

/-- MEM_PIN. -/
def execMemPin (h : ReqHdr) (ca gcnt tier : Nat) (s : State) : Host.Outcome State Fault Refusal := .next (whenLive s (doMemPin h ca gcnt tier))

/-- MEM_UNPIN: MEM_PIN with UNPIN. -/
def doMemUnpin (h : ReqHdr) (ca gcnt : Nat) (s : State) : State :=
  let c := h.ctx
  s.command h ⟨0x0022, 16, .own, .none, false, false⟩ [bad (s.rangeBad c ca gcnt) 0x0004] []
    (fun s => (((s.named c ca gcnt).getD []).foldl (fun s g => s.modPent g (fun e => { e with hpin := false })) s, .done 0 []))

/-- MEM_UNPIN. TIER is a field of the request that UNPIN does not use. -/
def execMemUnpin (h : ReqHdr) (ca gcnt _tier : Nat) (s : State) : Host.Outcome State Fault Refusal := .next (whenLive s (doMemUnpin h ca gcnt))

/-- MEM_HINT: moves of class 3 to the tier; the command replies when they are queued. -/
def doMemHint (h : ReqHdr) (ca gcnt tier : Nat) (s : State) : State :=
  let c := h.ctx
  s.command h ⟨0x0023, 16, .own, .none, false, false⟩
    [bad (s.rangeBad c ca gcnt || tier == 0 || decide (3 < tier)) 0x0004, bad (tier == 3 && !cellarFitted s.variant) 0x0009] []
    (fun s => (((s.named c ca gcnt).getD []).foldl (fun s g => s.requestMove g 3 tier) s, .done 0 []))

/-- MEM_HINT. -/
def execMemHint (h : ReqHdr) (ca gcnt tier : Nat) (s : State) : Host.Outcome State Fault Refusal := .next (whenLive s (doMemHint h ca gcnt tier))

end Sys2Proof.Machine
end

