-- ==== Sys2Proof/Machine/Complete.lean ====
section
/-! DEFINITION. Completion: INSN_COMPLETE (R47, R60, R171), TRANSFER_COMPLETE (R46) and HOST_COMPLETION_TIMEOUT (R364). -/

namespace Sys2Proof.Machine

/-- A GET waits while the PUT of its entry is still moving bytes (R171). -/
def Tile.getBehind (x : Tile) (f : InFlight) : Bool :=
  f.cls == 7 && f.op == 1 && f.desc != 0 && (x.seqF.inflight ++ x.seqB.inflight).any (fun g =>
    g.cls == 7 && g.op == 0 && g.wait == .none && g.step == f.step && caskLayer g.desc == caskLayer f.desc &&
    caskMb g.desc == caskMb f.desc && caskKind g.desc == caskKind f.desc)

/-- A GET with REL releases its resident entry when it completes (R171). -/
def State.getRelease (s : State) (t : Nat) (f : InFlight) : State :=
  if f.cls = 7 ∧ f.op = 1 ∧ caskBit49 f.desc then
    match (s.tile t).cask.find (caskLayer f.desc) (caskMb f.desc) (caskKind f.desc) (f.step % 2) with
    | some p => s.setCask t ((s.tile t).cask.free s.beat.now p.1)
    | none => s
  else s

/-- An instruction of the ME or VC holds a unit's last grant, or nobody else asks for the units it still needs: its work can end. -/
def State.unitsDone (s : State) (t : Nat) (st : Stream) (x : InFlight) : Bool :=
  (x.me == 0 || !s.meRival t st) && (x.vc == 0 || !([Stream.F, .B, .U].any (fun q => q != st && s.asksVc t q)))

/-- Retire an instruction, give back its units, and serve what waits for them and for its bank (R60, R103). -/
def State.complete (s : State) (t : Nat) (st : Stream) (x : InFlight) : State := ((s.retire t st x).endGrants t st x.seq).settle t

/-- INSN_COMPLETE: the effects of an instruction are visible and nothing it waits for is outstanding. A SEM_WAIT that has passed its test
completes in a later clk, when no operation of that clk can come before it (R68). -/
def doInsnComplete (t : Nat) (st : Stream) (seq : Nat) (s : State) : State :=
  match (s.seq t st).inflight.find? (fun x => x.seq == seq) with
  | none => s
  | some x =>
    match x.wait with
    | .none => if (s.tile t).getBehind x || !s.unitsDone t st x then s else (s.getRelease t x).complete t st x
    | .passed _ _ k => if k < s.beat.now then s.complete t st x else s
    | .xfer id => if s.xferDone id then (s.consume x id).1.complete t st (s.consume x id).2 else s
    | _ => s

/-- INSN_COMPLETE. -/
def execInsnComplete (t : TileId) (st : Stream) (seq : Nat) (s : State) : Host.Outcome State Fault Refusal :=
  .next (whenLive s (doInsnComplete t.val st seq))

/-- A transfer that its step's commit has released is gone once it has moved its data (R74); its counts join the tile's (R133). -/
def State.dropReleased (s : State) (id : Nat) : State :=
  match s.xfers.find? (fun f => f.id == id && f.released && f.done) with
  | none => s
  | some f => State.modTile { s with xfers := s.xfers.filter (fun g => g.id != id) } f.tile (·.addCounts f.counts)

/-- A transfer's own requests are complete, and their tags free (R259). -/
def State.endReqs (s : State) (id : Nat) : State :=
  match s.xfers.find? (fun f => f.id == id && f.done) with
  | some f => (s.modXfer id (fun f => { f with req := 0 })).freeTags [{ f with tag := false }]
  | none => s

/-- A transfer that holds its tag, needs none or is past its step's commit moves its data. A DMA does when the DMA engine has granted every
request of it, or no other stream of the tile asks for the engine (R65). What it writes in scratch, a read of the clk does not see (R51). -/
def State.moveXfer (s : State) (id : Nat) (hostOk : Bool) (hostData : List Byte) (found : List RasFinding) : State :=
  match s.xfers.find? (fun f => f.id == id && !f.done && (f.tag || f.kind == .dmaFill || f.released)) with
  | none => s
  | some f =>
    if f.kind == .kiln || f.kind == .recvPost && f.got == 0 then s
    else if f.kind.isDma && decide (0 < f.left) && !(s.dmaRivals f.tile (streamOf f.stream)).isEmpty then s else
    let s := found.foldl (State.rasFind (.xfer f.tile f.stream f.seq)) s
    let r := match f.kind with
      | .dmaRead | .dmaWrite | .dmaCopy | .dmaFill => s.asBefore.dmaRun id hostOk hostData found
      | .linkSend => s.asBefore.linkMove f hostOk hostData found
      | .recvPost => s.asBefore.postMove f found
      | .kiln => s.asBefore
    ((s.afterAll r id).endReqs id).dropReleased id

/-- TRANSFER_COMPLETE: a tracked transfer finishes moving its data; `host` is how its requests to a host region
completed and the bytes they gave, `found` the bad words that its requests met (R263, R264). A kiln update is done by its own stages. -/
def execTransferComplete (id : Nat) (host : HostCpl) (found : List RasFinding) (s : State) :
    Host.Outcome State Fault Refusal :=
  .next (whenLive s (fun s => s.moveXfer id host.ok host.data found))

/-- The context addresses that a transfer reads. -/
def xferReads (f : Xfer) : List Nat :=
  match f.kind with
  | .dmaRead | .dmaWrite | .dmaCopy => (List.range (dmaRows f.desc)).map (dmaSrcRow f.desc)
  | .linkSend => (List.range (sendRows f.desc)).map (sendRow f.desc)
  | _ => []

/-- HOST_COMPLETION_TIMEOUT: a read of a host region had no completion for 50 ms: the request fails, and its destination is
poisoned (R364). -/
def doHostCompletionTimeout (id : Nat) (s : State) : State :=
  match s.xfers.find? (fun f => f.id == id && !f.done) with
  | none => s
  | some f => if (xferReads f).any (s.isHost f.ctx) then s.moveXfer id false [] [] else s

/-- HOST_COMPLETION_TIMEOUT. -/
def execHostCompletionTimeout (id : Nat) (s : State) : Host.Outcome State Fault Refusal :=
  .next (whenLive s (doHostCompletionTimeout id))

end Sys2Proof.Machine
end

