-- ==== Sys2Proof/Machine/Window.lean ====
section
/-! DEFINITION. The window (R359-R362) and arrival flags (R366-R368): the rows WINDOW_WRITE, WINDOW_READ, FLAG_VISIBLE, MOVE_COMPLETE
and FRESH_FILL_DONE. -/

namespace Sys2Proof.Machine

/-! ### Held writes -/

/-- The granules of a held write. -/
def HeldWrite.granules (w : HeldWrite) : List Nat := (granulePieces w.ca w.data.length).map (fun p => p.1 / granule)

/-- Two writes of one context share a granule. -/
def HeldWrite.shares (a b : HeldWrite) : Bool := a.ctx == b.ctx && a.granules.any (b.granules.contains ·)

/-- Writes parked on a port. -/
def State.parkUse (s : State) (x : Nat) : Nat := s.heldWrites.countP (fun w => w.port == x && w.parked)

/-- Posted credits are granted: the park of 256 is not full (R362). -/
def State.credits (s : State) (x : Nat) : Bool := decide (s.parkUse x < 256)

/-- A failed window access is counted and logged with the function (R246, R361). -/
def State.winFail (s : State) (f c code ca : Nat) : State :=
  let s := s.modFn f (fun x => { x with winErr := satAdd (2 ^ 24 - 1) x.winErr 1 })
  if code = 0 then s else s.logEvent code (some c) f 0 7 f ca

/-- The DIR 0 flag ranges that an extent meets. -/
def State.flagsAt (s : State) (f ca n : Nat) : List Nat := (List.range 16).filter (fun k => s.flagOn f k 0 && s.flagMeets f k ca n)

/-- A flag write has become visible: counted once, and every range it lands in signals (R366, R367). -/
def State.flagsVisible (s : State) (w : HeldWrite) : State :=
  if w.flags.isEmpty then s else
  let s := s.modFn w.fn (fun x => { x with flags := satAdd (2 ^ 24 - 1) x.flags 1 })
  w.flags.foldl (fun s k =>
    let b := s.winFlagB w.fn k
    if bitOf b 18 then { s with rsigs := s.rsigs ++ [⟨bits b 19 7, bits b 26 8, 1, w.ctx, none, none⟩] } else s) s

/-- A window write lands (Table 15-5): dropped where its address is unmapped by now, in a program's granule by now (R87), or part
of a slot that is not PLAIN; an EP write
lands poisoned and counts. -/
def State.landWrite (s : State) (w : HeldWrite) : State :=
  let n := w.data.length
  if !s.mappedOk w.ctx w.ca n then s.winFail w.fn w.ctx 0x2004 w.ca
  else
    let r := s.putRowCa w.ctx w.ca (w.data.map (fun b => (b, w.ep))) (slotFull [(w.ca, n)]) true
    let s := r.st.heatCa w.ctx w.ca n
    let s := if r.guard then s.winFail w.fn w.ctx 0x4016 w.ca else if r.code.isSome || w.ep then s.winFail w.fn w.ctx 0 w.ca else s
    s.flagsVisible w

/-- A held write may land: no earlier one shares a granule, and nothing blocks its granules. -/
def State.mayLand (s : State) (earlier : List HeldWrite) (w : HeldWrite) : Bool :=
  !earlier.any (·.shares w) && (s.writeBlocks w.ctx w.ca w.data.length).isEmpty

/-- A flag write waits for every earlier write of its requester, or of its port (R366, R368). -/
def HeldWrite.waitsFor (w : HeldWrite) (earlier : List HeldWrite) : Bool :=
  !w.flags.isEmpty && !w.ro && earlier.any (fun x => x.port == w.port && (w.wide || x.rid == w.rid))

/-- Land the held writes that may land, oldest first; flag writes wait for FLAG_VISIBLE. -/
def landHeld (earlier : List HeldWrite) : List HeldWrite → State → State
  | [], s => { s with heldWrites := earlier }
  | w :: r, s =>
    if (w.flags.isEmpty || w.ro) && s.mayLand earlier w then landHeld earlier r (s.landWrite w) else landHeld (earlier ++ [w]) r s

/-- Release the held writes that nothing holds any more (R255); what still waits asks again for what it waits for. -/
def State.releaseHeld (s : State) : State :=
  let s := landHeld [] s.heldWrites s
  s.heldWrites.foldl (fun s w => (s.writeBlocks w.ctx w.ca w.data.length).foldl State.unblock s) s

/-! ### WINDOW_WRITE -/

/-- The BAR4 size of a function. -/
def State.winSize (s : State) (f : Nat) : Nat := 2 ^ (30 + (s.fn f).winLog2)

/-- An access lies in backed memory of a context, below the scratch window (R359, R361). -/
def State.winMapped (s : State) (c ca n : Nat) : Bool := decide (ca + max n 1 ≤ scratchBase) && s.mappedOk c ca (max n 1)

/-- The requester is beyond the 64 that a port tracks (R368). -/
def State.ridBeyond (s : State) (x rid : Nat) : Bool :=
  let l := ((s.heldWrites.filter (fun w => w.port == x)).map (·.rid)).eraseDups.take 64
  decide (64 ≤ l.length) && !l.contains rid

/-- Count and log a flag held behind every write of its port, once per step (R368). -/
def State.flagWide (s : State) (x c : Nat) : State :=
  let s := s.modHport x (fun p => { p with ridWide := satAdd 0xFFFF p.ridWide 1 })
  if (s.ctx c).step.loggedWide then s
  else (s.logEvent 0x6005 (some c) 31 0 6 x 0).modStep c (fun k => { k with loggedWide := true })

/-- Take a write that has been translated: it lands, or is held, in the park where it waits for a promotion (R362). -/
def State.takeWrite (s : State) (w : HeldWrite) : State :=
  let s := if w.wide then s.flagWide w.port w.ctx else s
  if s.mayLand s.heldWrites w && !w.waitsFor s.heldWrites then s.landWrite w
  else
    let parked := (granulePieces w.ca w.data.length).any (fun p => match s.translate w.ctx p.1 with
      | .mem lgn _ => (s.pent lgn).tier == 3
      | _ => false)
    let s := { s with heldWrites := s.heldWrites ++ [{ w with parked := parked }] }
    let s := (s.writeBlocks w.ctx w.ca w.data.length).foldl State.unblock s
    if parked && s.parkUse w.port == 256 then s.modHport w.port (fun p => { p with parkFull := satAdd 0xFFFF p.parkFull 1 }) else s

/-- WINDOW_WRITE: a posted write through BAR4, translated once on receipt (R359-R362). While the park is full the port grants no
posted credit, and the write does not arrive. -/
def doWindowWrite (f off : Nat) (data : List Byte) (rid : Nat) (ro ep : Bool) (s : State) : State :=
  let x := f / 8
  if !s.fnReach f || !s.credits x || decide (s.winSize f ≤ off) || data.isEmpty then s else
  match s.fnCtx f with
  | none => s.modFn f (fun q => { q with winErr := satAdd (2 ^ 24 - 1) q.winErr 1 })
  | some c =>
    let ca := s.winBase f + off
    let n := data.length
    if (s.ctx c).frozen then s.winFail f c 0 ca
    else if !s.winMapped c ca n then s.winFail f c 0x2004 ca
    else if (granulePieces ca n).any (fun p => s.guarded c (p.1 / granule)) then s.winFail f c 0x4016 ca
    else
      let flags := s.flagsAt f ca n
      s.takeWrite { port := x, fn := f, ctx := c, ca := ca, data := data, rid := rid, ro := ro, ep := ep, flags := flags,
                    wide := !flags.isEmpty && !ro && s.ridBeyond x rid }

/-- WINDOW_WRITE; `found` are the bad words that it meets (R264): data that the hub damaged land poisoned, as a write with EP. -/
def execWindowWrite (f : FnId) (off : Nat) (data : List Byte) (rid : Nat) (b : WriteBits) (found : List RasFinding) (s : State) :
    Host.Outcome State Fault Refusal :=
  .next (whenLive s (fun s => doWindowWrite f.val off data rid b.ro (b.ep || found.any RasFinding.hubUe) (found.foldl (State.rasFind (.window f.val)) s)))

/-! ### FLAG_VISIBLE -/

/-- Land the first held flag write of function f in range n that waits for nothing. -/
def landFlag (f n : Nat) (earlier : List HeldWrite) : List HeldWrite → State → State
  | [], s => s
  | w :: r, s =>
    if w.fn == f && w.flags.contains n && !w.waitsFor earlier && s.mayLand earlier w then
      State.landWrite { s with heldWrites := earlier ++ r } w
    else landFlag f n (earlier ++ [w]) r s

/-- FLAG_VISIBLE: a held flag write lands once every earlier write that it waits for has (R366-R368); writes behind it follow. -/
def doFlagVisible (f n : Nat) (s : State) : State := (landFlag f n [] s.heldWrites s).releaseHeld

/-- FLAG_VISIBLE. -/
def execFlagVisible (f : FnId) (n : Fin 16) (s : State) : Host.Outcome State Fault Refusal :=
  .next (whenLive s (doFlagVisible f.val n.val))

/-! ### WINDOW_READ -/

/-- A byte of a window read: stored bytes as they are, or what the host holds behind a host region. -/
def State.winByte (s : State) (c ca : Nat) : Byte :=
  match s.translate c ca with
  | .host b => Config.hostByte s.beat.now b
  | _ => s.rdCaByte c ca

/-- A window access makes a request to BULK, CELLAR or a host, which takes a tag (R259). -/
def State.windowTags (s : State) (c ca n : Nat) : Bool := (granulePieces ca n).any (fun p => s.tagSide c p.1 != 0)

/-- WINDOW_READ: answered with data, EP, Unsupported Request or Completer Abort (Table 15-5). Where no tag is
free to it, it waits: it is counted and not answered (R261). `hub`: its data were poisoned in the hub. -/
def doWindowRead (f off len : Nat) (hub : Bool) (s : State) : State :=
  if !s.fnReach f || decide (s.winSize f ≤ off) then s else
  match s.fnCtx f with
  | none => State.send (s.modFn f (fun q => { q with winErr := satAdd (2 ^ 24 - 1) q.winErr 1 })) (.windowUR f)
  | some c =>
    let ca := s.winBase f + off
    if (s.ctx c).frozen then (s.winFail f c 0 ca).send (.windowUR f)
    else if !s.winMapped c ca len then (s.winFail f c 0x2004 ca).send (.windowCA f)
    else
      let data := (List.range len).map (fun i => s.winByte c (ca + i))
      let noHost := (granulePieces ca len).any (fun p => s.isHost c p.1) && !s.hostPath c
      let ep := s.rdCaPoison c ca len || noHost || hub
      let s := if noHost then s.hostFail c ca else s
      if s.windowTags c ca len && s.hostTagRoom c == 0 then s.countWait else
      let s := s.heatCa c ca len
      (if ep then s.winFail f c 0x2002 ca else s).send (.windowData f data ep)

/-- WINDOW_READ; `found` are the bad words that it meets (R263, R264). -/
def execWindowRead (f : FnId) (off : Nat) (r : ReadAsk) (s : State) : Host.Outcome State Fault Refusal :=
  .next (whenLive s (fun s => doWindowRead f.val off r.len (r.found.any RasFinding.hubUe) (r.found.foldl (State.rasFind (.window f.val)) s)))

/-! ### MOVE_COMPLETE and FRESH_FILL_DONE -/

/-- MOVE_COMPLETE: the move of a granule ends (R255): what it asked for or held at an arbiter is withdrawn (R311), deferred updates that
waited for it may run, held writes are released. -/
def doMoveComplete (lgn : Nat) (s : State) : State :=
  match s.moveOf lgn with
  | none => s
  | some _ =>
    let r := s.finishMove lgn
    if (r.moveOf lgn).isSome then r else ((r.withdraw (· == .move lgn)).deferArrive lgn).releaseHeld

/-- MOVE_COMPLETE. -/
def execMoveComplete (lgn : Nat) (s : State) : Host.Outcome State Fault Refusal := .next (whenLive s (doMoveComplete lgn))

/-- FRESH_FILL_DONE: the zero fill of a frame ends and the waiting writes land (R245). -/
def execFreshFillDone (lgn : Nat) (s : State) : Host.Outcome State Fault Refusal :=
  .next (whenLive s (fun s => (s.fillDone lgn).releaseHeld))

end Sys2Proof.Machine
end

