-- ==== Sys2Proof/Machine/ProgCmds.lean ====
section
/-! DEFINITION. Commands of programs, steps and grist tables (R58, R80, R162, R221-R225, R389, R390): the rows PROG_LOAD, PROG_UNLOAD, STEP_ARM,
STEP_RUN, STEP_ABORT, STEP_STATUS, TABLE_BUILD and TABLE_LOAD. -/

namespace Sys2Proof.Machine

/-! ### The program image (Table 16-5) -/

/-- A little-endian field of a byte string. -/
def fieldAt (l : List Byte) (o n : Nat) : Nat := ofBytes ((l.drop o).take n)

/-- n bytes of a context from ca, as the maltster reads them. -/
def State.readCtx (s : State) (c ca n : Nat) : List Byte := (List.range n).map (fun i => s.winByte c (ca + i))

/-- A range lies in mapped regions of context c. -/
def State.inRegions (s : State) (c ca n : Nat) : Bool := n == 0 || (decide (ca + n ≤ scratchBase) && s.mappedOk c ca n)

/-- A range lies in regions of context c whose USE is ledger. -/
def State.inLedger (s : State) (c ca n : Nat) : Bool :=
  n == 0 || (decide (ca + n ≤ scratchBase) &&
    (List.range ((ca + n - 1) / granule - ca / granule + 1)).all (fun i => match s.regionOf c (ca / granule + i) with
      | some r => r.use == 2 && !r.host
      | none => false))

/-- A stream's part of a tile entry. -/
structure StreamEntry where
  pbase : Nat
  plen : Nat
  crbase : Nat
  crlog2 : Nat
  reserved : Bool
deriving DecidableEq, Repr

/-- A tile entry of the image. -/
structure TileEntry where
  tile : Nat
  aunits : Nat
  abase : Nat
  f : StreamEntry
  b : StreamEntry
  u : StreamEntry
  reserved : Bool
deriving DecidableEq, Repr

/-- Stream s of the entry at offset o. -/
def streamEntry (img : List Byte) (o s : Nat) : StreamEntry :=
  let p := fieldAt img (o + 8 + 16 * s) 8
  let n := fieldAt img (o + 16 + 16 * s) 4
  let cr := fieldAt img (o + 20 + 16 * s) 4
  { pbase := p, plen := n, crbase := bits cr 0 20, crlog2 := bits cr 24 4,
    reserved := p % 256 != 0 || decide (2 ^ 24 ≤ n) || bits cr 20 4 != 0 || bits cr 28 4 != 0 }

/-- Entry j. -/
def tileEntry (img : List Byte) (j : Nat) : TileEntry :=
  let o := 1024 + 64 * j
  { tile := fieldAt img o 1, aunits := fieldAt img (o + 2) 2, abase := fieldAt img (o + 4) 4, f := streamEntry img o 0, b := streamEntry img o 1,
    u := streamEntry img o 2, reserved := fieldAt img (o + 1) 1 != 0 || fieldAt img (o + 56) 8 != 0 }

/-- The entries of an image. -/
def imageEntries (img : List Byte) : List TileEntry := (List.range (fieldAt img 28 2)).map (tileEntry img)

/-- The streams of an entry, in the order F, B, U. -/
def TileEntry.streams (e : TileEntry) : List StreamEntry := [e.f, e.b, e.u]

/-- Scratch units of a tile's scratchpad. -/
def padUnits : Nat := 0xA0000

/-- An arena breaks Table 07-1 or leaves the scratchpad. -/
def TileEntry.arenaBad (e : TileEntry) : Bool :=
  e.aunits == 1 || decide (320 < e.aunits) || e.abase % 2048 != 0 || decide (padUnits < e.abase + 2048 * e.aunits)

/-- A stream's ring breaks R80 or meets the arena. -/
def TileEntry.ringBad (e : TileEntry) (k : StreamEntry) : Bool :=
  decide (k.crlog2 < 4) || decide (12 < k.crlog2) || k.crbase % 2 ^ k.crlog2 != 0 || decide (padUnits < k.crbase + 2 ^ k.crlog2) ||
    (e.aunits != 0 && decide (k.crbase < e.abase + 2048 * e.aunits) && decide (e.abase < k.crbase + 2 ^ k.crlog2))

/-- An entry is refused. -/
def State.entryBad (s : State) (c : Nat) (e : TileEntry) : Bool :=
  decide (96 ≤ e.tile) || !(s.ctxTiles c).contains e.tile || e.reserved || e.arenaBad ||
  e.streams.any (fun k => k.reserved || !s.inRegions c k.pbase (16 * k.plen) || e.ringBad k)

/-- The seal list of an image, as context addresses and lengths (R211). -/
def State.sealList (s : State) (c sb n : Nat) : List (Nat × Nat) :=
  (List.range n).map (fun i => (ofBytes (s.readCtx c (sb + 16 * i) 8), ofBytes (s.readCtx c (sb + 16 * i + 8) 8)))

/-- An image is refused with BAD_FIELD (R389). -/
def State.imageBad (s : State) (c len : Nat) (img : List Byte) : Bool :=
  let n := fieldAt img 28 2
  let lb := fieldAt img 8 8
  let db := fieldAt img 16 8
  let sl := fieldAt img 24 4
  let sb := fieldAt img 544 8
  let sc := fieldAt img 552 4
  let es := imageEntries img
  fieldAt img 0 4 != 0x47525031 || fieldAt img 4 4 != len || n == 0 || decide (96 < n) || len != 1024 + 64 * n || lb % 256 != 0 ||
  db % 65536 != 0 || fieldAt img 30 2 != 0 || fieldAt img 556 468 != 0 || sb % 16 != 0 || decide (4096 < sc) || decide (2 ^ 24 ≤ sl) ||
  !s.inLedger c lb (32 * sl) || !s.inLedger c db ((sl + (s.ctx c).cmbSlots) * 65536) ||
  (sc != 0 && (sb == 0 || !s.inRegions c sb (16 * sc) || (s.sealList c sb sc).any (fun p => !s.inRegions c p.1 p.2))) ||
  !(decide (es.map (·.tile)).Nodup) || es.any (s.entryBad c)

/-! ### PROG_LOAD and PROG_UNLOAD -/

/-- A sequencer as a load writes it, its instruction cache invalid and IC_MISS 0. -/
def StreamEntry.seq (k : StreamEntry) (q : Seq) : Seq :=
  { ({} : Seq) with pbase := k.pbase / 256, plen := k.plen, crbase := k.crbase, crlog2 := k.crlog2, icVictims := q.icVictims }

/-- A tile as a load writes it. -/
def TileEntry.load (e : TileEntry) (x : Tile) : Tile :=
  { x with seqF := e.f.seq x.seqF, seqB := e.b.seq x.seqB, seqU := e.u.seq x.seqU,
           cask := { x.cask.unloaded with aunits := e.aunits, abase := e.abase } }

/-- Every slot of a tile's directory is free: unit 0 of its arena reads zero (R166). -/
def State.clearDir (s : State) (t : Nat) : State :=
  let k := (s.tile t).cask
  if k.aunits = 0 then s else s.zero (localKey t k.abase) (localKey t k.abase + 65536)

/-- The granule numbers that n bytes from ca lie in. -/
def granulesOf (ca n : Nat) : List Nat := if n = 0 then [] else (List.range ((ca + n - 1) / granule - ca / granule + 1)).map (ca / granule + ·)

/-- The measurement of a program: its image, and the instructions of each entry's streams (R389). -/
def State.progDigest (s : State) (c : Nat) (img : List Byte) : BitVec 512 :=
  sha3_512 (img ++ (imageEntries img).flatMap (fun e => e.streams.flatMap (fun k => s.readCtx c k.pbase (16 * k.plen))))

/-- The program that an image makes. -/
def State.progOf (s : State) (c ca len : Nat) (img : List Byte) : Prog :=
  let es := imageEntries img
  let code := es.flatMap (fun e => e.streams.map (fun k => (k.pbase, 16 * k.plen)))
  let sl := fieldAt img 24 4
  let spans := (ca, len) :: code
  { imageCa := ca, len := len, digest := s.progDigest c img, frozen := bitList 4096 (fieldAt img 32 512), sealBase := fieldAt img 544 8,
    sealCnt := fieldAt img 552 4, tiles := es.map (·.tile), guarded := (spans.flatMap (fun p => granulesOf p.1 p.2)).eraseDups,
    pinned := ((spans ++ [(fieldAt img 8 8, 32 * sl), (fieldAt img 16 8, (sl + (s.ctx c).cmbSlots) * 65536)]).flatMap
      (fun p => s.lgnsUnder c p.1 p.2)).eraseDups }

/-- Load an image: registers, frozen map, pins; quarantined tiles of the context are reloaded (Table 18-7). -/
def State.loadProg (s : State) (c ca len : Nat) (img : List Byte) : State :=
  let p := s.progOf c ca len img
  let s := (s.ctxTiles c).foldl State.reloadTile s
  let s := (imageEntries img).foldl (fun s e => (s.modTile e.tile e.load).clearDir e.tile) s
  (s.modCtx c (fun x => { x with prog := some p, lbase := fieldAt img 8 8, dbase := fieldAt img 16 8, slices := fieldAt img 24 4 })).repin c

/-- The image lies wholly in one mapped region. -/
def State.oneRegion (s : State) (c ca n : Nat) : Bool :=
  n != 0 && decide (ca + n ≤ scratchBase) && (match s.regionOf c (ca / granule) with
    | some r => decide (ca + n ≤ (r.gbase + r.gcnt) * granule)
    | none => false)

/-- PROG_LOAD. -/
def doProgLoad (h : ReqHdr) (ca len : Nat) (s : State) : State :=
  let c := h.ctx
  s.command h ⟨0x0030, 16, .own, .idleNoRun, false, false⟩
    [bad (decide (len < 1024) || !s.oneRegion c ca len || s.imageBad c len (s.readCtx c ca len)) 0x0004]
    [bad (s.ctx c).prog.isSome 0x0007]
    (fun s =>
      let img := s.readCtx c ca len
      (s.loadProg c ca len img, .done 0 (leB 64 (s.progDigest c img).toNat)))

/-- PROG_LOAD. -/
def execProgLoad (h : ReqHdr) (ca len : Nat) (s : State) : Host.Outcome State Fault Refusal := .next (whenLive s (doProgLoad h ca len))

/-- PROG_UNLOAD. -/
def doProgUnload (h : ReqHdr) (s : State) : State :=
  let c := h.ctx
  s.command h ⟨0x0031, 0, .own, .idleNoRun, false, false⟩ [] [bad (s.ctx c).prog.isNone 0x0007] (fun s => (s.unloadProg c, .done 0 []))

/-- PROG_UNLOAD. -/
def execProgUnload (h : ReqHdr) (s : State) : Host.Outcome State Fault Refusal := .next (whenLive s (doProgUnload h))

/-! ### Steps (R390) -/

/-- STEP_ARM. -/
def doStepArm (h : ReqHdr) (stepNo count : Nat) (s : State) : State :=
  let c := h.ctx
  s.command h ⟨0x0040, 16, .own, .idleNoRun, false, false⟩ [] [bad (s.ctx c).prog.isNone 0x0007]
    (fun s => (s.modStep c (fun k => { k with stepNo := stepNo, left := count, endless := count == 0, armed := true, waitOpen := true,
                                              retryNext := false, halted := false }), .done 0 []))

/-- STEP_ARM. -/
def execStepArm (h : ReqHdr) (stepNo count : Word) (s : State) : Host.Outcome State Fault Refusal :=
  .next (whenLive s (doStepArm h stepNo.toNat count.toNat))

/-- STEP_RUN of a halted run (R428 L1): the aborted step runs again as a first attempt. A takeover that waited for SOURCED data
goes on once no context of its logical ID is halted (R342). -/
def State.runAgain (s : State) (c : Nat) : State :=
  let code := (s.ctx c).step.abortCode
  let s := s.logLevel 1 (some c) (s.ownerFn c) code.toNat
  let s := s.modCtx c (fun x => { x with
    lastLevel := 1, lastCode := code, l1Cnt := satAdd 0xFFFF x.l1Cnt 1, step := { x.step with halted := false, retryNext := false, running := true } })
  let s := { s with beat := { s.beat with retries := setDel s.beat.retries c } }
  if s.board.sourcesMissing && (s.ctxsOf s.board.flid).all (fun k => !(s.ctx k).step.halted) then
    State.tkoCheck { s with board := { s.board with sourcesMissing := false } }
  else s

/-- STEP_RUN. -/
def doStepRun (h : ReqHdr) (s : State) : State :=
  let c := h.ctx
  let x := s.ctx c
  s.command h ⟨0x0041, 0, .own, .none, false, true⟩ []
    [bad (x.torn || x.frozen || (!x.step.halted && (!x.step.armed || x.step.running))) 0x0007]
    (fun s => (if (s.ctx c).step.halted then s.runAgain c else s.modStep c (fun k => { k with running := true }), .done 0 []))

/-- STEP_RUN. -/
def execStepRun (h : ReqHdr) (s : State) : Host.Outcome State Fault Refusal := .next (whenLive s (doStepRun h))

/-- STEP_ABORT with no step in flight ends the run at once. -/
def State.endRun (s : State) (c : Nat) : State :=
  let s := s.modStep c (fun k => { k with armed := k.armed || k.running, running := false, halted := false, retryNext := false })
  { s with beat := { s.beat with retries := setDel s.beat.retries c } }

/-- STEP_ABORT: replies after the abort tick with the step, or all ones if none is in flight. -/
def doStepAbort (h : ReqHdr) (s : State) : State :=
  let c := h.ctx
  s.command h ⟨0x0042, 0, .own, .none, false, false⟩ [] []
    (fun s => if s.idle c then (s.endRun c, .done 0 (leB 8 (2 ^ 64 - 1))) else (s.hostAbort c, .wait (.abort 0)))

/-- STEP_ABORT. -/
def execStepAbort (h : ReqHdr) (s : State) : Host.Outcome State Fault Refusal := .next (whenLive s (doStepAbort h))

/-- The reply of STEP_STATUS. -/
def State.statusBody (s : State) (c : Nat) : List Byte :=
  let k := (s.ctx c).step
  leB 8 k.stepNo ++ leB 8 (s.stepStat c) ++ leB 8 k.cntWord ++ leB 8 k.left ++ leB 8 k.lastCommit

/-- STEP_STATUS. -/
def doStepStatus (h : ReqHdr) (s : State) : State :=
  s.command h ⟨0x0043, 0, .own, .none, false, false⟩ [] [] (fun s => (s, .done 0 (s.statusBody h.ctx)))

/-- STEP_STATUS. -/
def execStepStatus (h : ReqHdr) (s : State) : Host.Outcome State Fault Refusal := .next (whenLive s (doStepStatus h))

/-! ### Grist tables (R221-R225) -/

/-- The elements of n bytes from ca in stream format f, through the expander. A part of an element at the end has no symbol
(DEDUCED, log entry 34). -/
def State.elemsAt (s : State) (c f ca n : Nat) : List Nat :=
  let w := sfW f / 8
  let slots := s.slotsOf c [(ca, n)]
  unpackBytes w ((List.range (n / w * w)).map (fun i => if s.isHost c (ca + i) then s.winByte c (ca + i) else (s.readByte c slots (ca + i)).1))

/-- Count and build (R222, R223). The pass heats the granules it reads; its first damaged block is logged. -/
def State.tableBuild (s : State) (c tbl f ca n : Nat) (clr : Bool) : State :=
  let el := s.elemsAt c f ca n
  let dmg := firstDamage (s.slotsOf c [(ca, n)])
  let s := match dmg with
    | some (i, code) => s.logDev code (some c) ((ca / 4096 + i) * 4096)
    | none => s
  (s.heatCa c ca n).modTable c tbl (fun g => ((if clr then { g with cnt := [] } else g).count f el).build f)

/-- TABLE_BUILD. -/
def doTableBuild (h : ReqHdr) (tbl cfmt : Nat) (clr : Bool) (ca len : Nat) (s : State) : State :=
  let c := h.ctx
  s.command h ⟨0x0050, 24, .own, .none, false, false⟩
    [bad (decide (64 ≤ tbl) || !sfOk cfmt || decide (2 ^ 30 < len) || !s.inRegions c ca len) 0x0004] []
    (fun s =>
      let s := s.tableBuild c tbl cfmt ca len clr
      (s, .done 0 (s.table c tbl).image))

/-- TABLE_BUILD. -/
def execTableBuild (h : ReqHdr) (tbl cfmt : Nat) (clr : Bool) (ca len : Nat) (s : State) : Host.Outcome State Fault Refusal :=
  .next (whenLive s (doTableBuild h tbl cfmt clr ca len))

/-- TABLE_LOAD. The table keeps its counters. -/
def doTableLoad (h : ReqHdr) (tbl : Nat) (image : List Byte) (s : State) : State :=
  let c := h.ctx
  s.command h ⟨0x0051, 144, .own, .none, false, false⟩ [bad (decide (64 ≤ tbl) || (gristOfImage image []).isNone) 0x0004] []
    (fun s => (s.modTable c tbl (fun g => (gristOfImage image g.cnt).getD g), .done 0 []))

/-- TABLE_LOAD. -/
def execTableLoad (h : ReqHdr) (tbl : Nat) (image : List Byte) (s : State) : Host.Outcome State Fault Refusal :=
  .next (whenLive s (doTableLoad h tbl image))

end Sys2Proof.Machine
end

