-- ==== Sys2Proof/Machine/CkptCmds.lean ====
section
/-! DEFINITION. Checkpoints and exports (R210, R211, R391-R394, R454, R455) and the end of detached commands (R249, R250, R382, R396): the rows
CKPT_SEAL, CKPT_DELETE, CKPT_RESTORE, STATE_EXPORT and CMD_DONE. -/

namespace Sys2Proof.Machine

/-! ### What a checkpoint holds (R210, R211) -/

/-- The records of a context: context address, address of the slot taken, bytes; in ascending context address (R454). -/
def State.records (s : State) (c : Nat) : List (Nat × Nat × Nat) :=
  let x := s.ctx c
  let dir : List (Nat × Nat × Nat) := (List.range x.slices).flatMap (fun k =>
    let e := s.led c false k
    let m := ledMslot e * 256
    let w := ledWslot e * 256
    [(ledMoma e, ledMoma e + x.sealSlot * m, m), (ledMsta e, ledMsta e + x.sealSlot * w, w)])
  let lst : List (Nat × Nat × Nat) := match x.prog with
    | some p => (s.sealList c p.sealBase p.sealCnt).map (fun (q : Nat × Nat) => (q.1, q.1, q.2))
    | none => []
  ((dir ++ lst ++ [(x.coefA, x.coefA, 8)]).filter (fun (q : Nat × Nat × Nat) => q.2.2 != 0)).foldl (fun (l : List (Nat × Nat × Nat)) (q : Nat × Nat × Nat) =>
    l.takeWhile (fun (r : Nat × Nat × Nat) => r.1 ≤ q.1) ++ [q] ++ l.dropWhile (fun (r : Nat × Nat × Nat) => r.1 ≤ q.1)) []

/-- The contents: each record's context address and bytes. -/
def State.contents (s : State) (c : Nat) : List (Nat × List Byte) := (s.records c).map (fun q => (q.1, s.readCtx c q.2.1 q.2.2))

/-- Bytes of the records. -/
def recordBytes (l : List (Nat × Nat × Nat)) : Nat := l.foldl (fun a q => a + q.2.2) 0

/-- Data granules, G. -/
def State.ckptG (s : State) (c : Nat) : Nat := ceilDiv (recordBytes (s.records c)) granule

/-- The LID that a module seals under: its own, 0xF on the spare (R454). -/
def State.sealLid (s : State) : Nat := s.board.lid

/-- SALT: 64 bits of the DRBG (R454). -/
def State.salt (s : State) : Word := (Config.drbg s.boot.draws).setWidth 64

/-- KC of a checkpoint (Table 19-1), 32 bytes. The fields are laid out as the manifest lays them out (DEDUCED, log entry 40). -/
def State.ckptKey (s : State) (boardId : Nat) (lid ckid salt : Nat) : List Byte :=
  kmac256 (leB 32 (s.boot.kb.getD Config.noBoardKey).toNat) "HSR-CKPT" (leB 8 boardId ++ leB 1 lid ++ leB 8 ckid ++ leB 8 salt) 32

/-- The checkpoint of context c as it stands now. -/
def State.makeCkpt (s : State) (c : Nat) (id : Word) : Ckpt :=
  { ctx := c, ckid := id, lid := s.sealLid, gen := bits (capWord s.variant) 60 4, boardId := s.boot.boardId, salt := s.salt,
    step := (s.ctx c).step.lastCommit, sel := (s.ctx c).sel, frames := [], parts := s.contents c }

/-! ### The sealed image (Table 19-4) -/

/-- The clear header. -/
def Ckpt.header (k : Ckpt) (g : Nat) : List Byte :=
  leB 4 0x4B435031 ++ leB 1 k.gen ++ leB 3 0 ++ leB 8 k.boardId.toNat ++ leB 1 k.lid ++ leB 7 0 ++ leB 8 k.ckid.toNat ++ leB 8 k.salt.toNat ++
  leB 8 k.step ++ leB 1 (b2n k.sel) ++ leB 3 0 ++ leB 4 g ++ leB 4040 0

/-- The contents as one string, padded to whole granules. -/
def Ckpt.stream (k : Ckpt) : List Byte := k.parts.flatMap (·.2)

/-- Granule i of the contents. -/
def granuleOf (l : List Byte) (i : Nat) : List Byte :=
  let p := (l.drop (i * granule)).take granule
  p ++ List.replicate (granule - p.length) 0

/-- The context address of byte n of the contents. -/
def partAddr : List (Nat × List Byte) → Nat → Nat
  | [], _ => 0
  | (a, l) :: r, n => if n < l.length then a + n else partAddr r (n - l.length)

/-- The manifest granule and the data granules of a checkpoint under key KC. -/
def Ckpt.sealed (k : Ckpt) (key : List Byte) : List (List Byte) :=
  let str := k.stream
  let g := ceilDiv str.length granule
  let hdr := k.header g
  let iv (i : Nat) : BitVec 96 := BitVec.ofNat 96 i
  let last : BitVec 96 := BitVec.ofNat 96 (2 ^ 64 - 1)
  let table := (List.range g).flatMap (fun i =>
    leB 8 (partAddr k.parts (i * granule)) ++ leB 4 (min granule (str.length - i * granule)) ++ leB 4 0 ++
    gcmTag key (iv i) hdr (gcmCrypt key (iv i) (granuleOf str i)))
  let etab := gcmCrypt key last table
  let manifest := hdr ++ etab ++ List.replicate (granule - 16 - 4096 - etab.length) 0 ++ gcmTag key last hdr etab
  manifest :: (List.range g).map (fun i => gcmCrypt key (iv i) (granuleOf str i))

/-! ### Host destinations -/

/-- Whether n bytes from ca lie in one host region of context c. -/
def State.hostRoom (s : State) (c ca n : Nat) : Bool :=
  decide (ca + n ≤ scratchBase) && (match s.regionOf c (ca / granule) with
    | some r => r.host && decide (ca + n ≤ (r.gbase + r.gcnt) * granule)
    | none => false)

/-- Write granules to a host region, one after the other; the status is FAULT where the host cannot be reached. -/
def State.toHost (s : State) (c ca : Nat) : List (List Byte) → State × Nat
  | [] => (s, 0)
  | l :: r =>
    if !s.hostPath c then (s.hostFail c ca, 0x000F)
    else State.toHost ((granulePieces ca l.length).foldl (fun s p => match s.translate c p.1 with
        | .host b => s.hostPut c p.1 b ((l.drop (p.1 - ca)).take p.2) true
        | _ => s) s) c (ca + granule) r

/-! ### CKPT_SEAL and CKPT_DELETE (R391) -/

/-- Take n frames of the cellar for the newest checkpoint; their streams are queued (R275). -/
def takeFrames : Nat → State → Option State
  | 0, s => some s
  | n + 1, s =>
    match s.pickFrame 3 0 with
    | none => none
    | some f => match s.celStart f (2048 + 512 * 4104) with
      | none => none
      | some s => takeFrames n { s with cel := { s.cel with ckpts := match s.cel.ckpts with
          | k :: r => { k with frames := k.frames ++ [f] } :: r
          | [] => [] } }

/-- Seal context c into the cellar: frames, the charge of R290, and the record of the checkpoint. -/
def State.sealCel (s : State) (c : Nat) (id : Word) : Option State :=
  let n := s.ckptG c + 1
  if !s.quotaRoom c 3 0 n || decide (8 ≤ s.cel.ckpts.length) then none
  else takeFrames n (State.celCharge { s with cel := { s.cel with ckpts := s.makeCkpt c id :: s.cel.ckpts },
                                              boot := { s.boot with draws := s.boot.draws + 1 } } n)

/-- The reply of a seal. -/
def State.sealReply (s : State) (c : Nat) (id : Word) : List Byte :=
  leB 8 id.toNat ++ leB 8 (s.ctx c).step.lastCommit ++ leB 4 (s.ckptG c) ++ leB 1 (b2n (s.ctx c).sel)

/-- Start a seal. One to the cellar whose write may not start yet waits for the credit (R290). -/
def State.startSeal (s : State) (c : Nat) (id : Word) (dest dst : Nat) : State × Ans :=
  let reply := s.sealReply c id
  if dest = 0 then
    (if s.celCkptOk then ((s.sealCel c id).getD s, .detach (.sealCel id true reply)) else (s, .detach (.sealCel id false reply)))
  else
    let k := s.makeCkpt c id
    let r := State.toHost { s with boot := { s.boot with draws := s.boot.draws + 1 } } c dst
      (k.sealed (s.ckptKey k.boardId.toNat k.lid id.toNat k.salt.toNat))
    (r.1, .detach (.seal id r.2 reply))

/-- A checkpoint of context c is held under an ID. -/
def State.ckptHeld (s : State) (c : Nat) (id : Word) : Bool := s.cel.ckpts.any (fun k => k.ctx == c && k.ckid == id)

/-- CKPT_SEAL with DEL frees a checkpoint, synchronously. -/
def doCkptDelete (h : ReqHdr) (id : Word) (s : State) : State :=
  let c := h.ctx
  s.command { h with del := true } ⟨0x0060, 24, .own, .idle, false, true⟩ [bad (!s.ckptHeld c id) 0x0004] []
    (fun s => (s.freeCkpt c id, .done 0 (s.sealReply c id)))

/-- CKPT_DELETE. -/
def execCkptDelete (h : ReqHdr) (id : Word) (s : State) : Host.Outcome State Fault Refusal := .next (whenLive s (doCkptDelete h id))

/-- CKPT_SEAL. -/
def doCkptSeal (h : ReqHdr) (id : Word) (dest dstCa : Nat) (s : State) : State :=
  let c := h.ctx
  if h.del then doCkptDelete h id s else
  s.command h ⟨0x0060, 24, .own, .idle, true, true⟩
    [bad (decide (1 < dest)) 0x0004, bad (dest == 0 && !cellarFitted s.variant) 0x0009, bad (s.ckptHeld c id) 0x0004]
    [bad (dest == 0 && s.cel.readOnly) 0x0007, bad (dest == 0 && (s.sealCel c id).isNone) 0x0008,
     bad (dest == 1 && !s.hostRoom c dstCa ((s.ckptG c + 1) * granule)) 0x0008]
    (fun s => s.startSeal c id dest dstCa)

/-- CKPT_SEAL. -/
def execCkptSeal (h : ReqHdr) (id : Word) (dest dstCa : Nat) (s : State) : Host.Outcome State Fault Refusal :=
  .next (whenLive s (doCkptSeal h id dest dstCa))

/-! ### CKPT_RESTORE (R392, R455) -/

/-- What reading a checkpoint came to. -/
inductive CkptRead where
  | refused (status : Nat) (authGranule : Option Nat)
  | ok (step : Nat) (parts : List (Nat × List Byte))
deriving DecidableEq, Repr

/-- The logical ID whose checkpoint a restore names: FLID, or 0xFF for the module's own. -/
def State.ckptLid (s : State) (flid : Nat) : Nat := if flid = 0xFF then s.sealLid else flid

/-- The granule index that 0x8007 gives for the manifest's own tag: the low half of its IV's (DESIGN CHOICE, log entry 40). -/
def manifestIndex : Nat := 0xFFFFFFFF

/-- Read a checkpoint held in the cellar: another board key's is refused, and one with a lost granule fails its tag. -/
def State.readCel (s : State) (c : Nat) (id : Word) (flid : Nat) : CkptRead :=
  match s.cel.ckpts.find? (fun k => k.ctx == c && k.ckid == id && k.lid == s.ckptLid flid) with
  | none => .refused 0x0004 none
  | some k =>
    if k.gen ≠ bits (capWord s.variant) 60 4 then .refused 0x000C none
    else if k.boardId ≠ s.boot.boardId then .refused 0x000B none
    else match k.frames.findIdx? (fun f => s.poisoned (daKey 3 f 0) granule) with
      | some 0 => .refused 0x000B (some manifestIndex)
      | some (i + 1) => .refused 0x000B (some i)
      | none => .ok k.step k.parts

/-- Cut a byte string into the records of a context. -/
def cutParts : List (Nat × Nat × Nat) → List Byte → List (Nat × List Byte)
  | [], _ => []
  | (a, _, n) :: r, l => (a, l.take n) :: cutParts r (l.drop n)

/-- Read a checkpoint image as a host holds it (Table 19-4): the header, the entry table and every granule under their tags. The records
are those of the context's own directory, in order. -/
def State.readImage (s : State) (c : Nat) (id : Word) (flid : Nat) (img : List Byte) : CkptRead :=
  let hdr := img.take 4096
  let g := fieldAt img 52 4
  let lid := fieldAt img 16 1
  if fieldAt img 0 4 ≠ 0x4B435031 ∨ 65408 < g ∨ img.length < (g + 1) * granule then .refused 0x000B none
  else if fieldAt img 4 1 ≠ bits (capWord s.variant) 60 4 then .refused 0x000C none
  else if fieldAt img 8 8 ≠ s.boot.boardId.toNat ∨ (flid ≠ 0xFF ∧ lid ≠ flid) ∨ fieldAt img 24 8 ≠ id.toNat then .refused 0x000B none
  else
    let key := s.ckptKey (fieldAt img 8 8) lid id.toNat (fieldAt img 32 8)
    let last : BitVec 96 := BitVec.ofNat 96 (2 ^ 64 - 1)
    let etab := (img.drop 4096).take (32 * g)
    let table := gcmCrypt key last etab
    if gcmTag key last hdr etab ≠ (img.drop (granule - 16)).take 16 then .refused 0x000B (some manifestIndex)
    else
      let body (i : Nat) : List Byte := (img.drop ((i + 1) * granule)).take granule
      match (List.range g).find? (fun i => gcmTag key (BitVec.ofNat 96 i) hdr (body i) != (table.drop (32 * i + 16)).take 16) with
      | some i => .refused 0x000B (some i)
      | none => .ok (fieldAt img 40 8) (cutParts (s.records c) ((List.range g).flatMap (fun i => gcmCrypt key (BitVec.ofNat 96 i) (body i))))

/-- The checkpoint that a request names, and whether its records are mapped. -/
def State.readCkpt (s : State) (c : Nat) (id : Word) (src flid : Nat) (img : List Byte) : CkptRead :=
  match (if src = 0 then s.readCel c id flid else s.readImage c id flid img) with
  | .refused st i => .refused st i
  | .ok step parts => if parts.all (fun p => s.inRegions c p.1 p.2.length) then .ok step parts else .refused 0x0008 none

/-- Log a failed tag with its granule. -/
def State.logTag (s : State) (c : Nat) : CkptRead → State
  | .refused _ (some i) => s.logDev 0x8007 (some c) i
  | _ => s

/-- Write the records into slot 0 (R392). -/
def State.restore (s : State) (c : Nat) (parts : List (Nat × List Byte)) : State :=
  (parts.foldl (fun s p => (s.heatCa c p.1 p.2.length).wrEngine c p.1 p.2) s).modCtx c (fun x => { x with sel := false, torn := false })

/-- CKPT_RESTORE. Every tag is checked before a byte is written. -/
def doCkptRestore (h : ReqHdr) (id : Word) (src flid srcCa : Nat) (image : List Byte) (s : State) : State :=
  let c := h.ctx
  s.command h ⟨0x0061, 24, .own, .idleNoRun, true, true⟩
    [bad (decide (1 < src)) 0x0004, bad (src == 0 && !cellarFitted s.variant) 0x0009, bad (src == 1 && !s.hostRoom c srcCa granule) 0x0004] []
    (fun s => match s.readCkpt c id src flid image with
      | .refused st i => ((s.logTag c (.refused st i)), .done st [])
      | .ok step parts => (s.restore c parts, .detach (.restore (leB 8 id.toNat ++ leB 8 step))))

/-- CKPT_RESTORE. -/
def execCkptRestore (h : ReqHdr) (id : Word) (src flid srcCa : Nat) (image : List Byte) (s : State) : Host.Outcome State Fault Refusal :=
  .next (whenLive s (doCkptRestore h id src flid srcCa image))

/-! ### STATE_EXPORT (R393) -/

/-- The EXPORT regions of a context, in ascending context address. -/
def State.exportRegions (s : State) (c : Nat) : List Region :=
  ((s.ctx c).regions.filter (·.exporting)).foldl (fun (l : List Region) r =>
    l.takeWhile (fun q => q.gbase ≤ r.gbase) ++ [r] ++ l.dropWhile (fun q => q.gbase ≤ r.gbase)) []

/-- The granules copied by STATE_EXPORT, each with its slots expanded. -/
def State.exportGranules (s : State) (c : Nat) : List (List Byte) :=
  (s.exportRegions c).flatMap (fun r => (List.range r.gcnt).map (fun i =>
    let ca := (r.gbase + i) * granule
    let slots := s.slotsOf c [(ca, granule)]
    (List.range granule).map (fun j => (s.readByte c slots (ca + j)).1)))

/-- Bytes copied by STATE_EXPORT. -/
def State.exportBytes (s : State) (c : Nat) : Nat := (s.exportRegions c).foldl (fun a r => a + r.gcnt * granule) 0

/-- STATE_EXPORT. -/
def doStateExport (h : ReqHdr) (dstCa : Nat) (s : State) : State :=
  let c := h.ctx
  s.command h ⟨0x0062, 8, .own, .idle, true, true⟩ [] [bad (!s.hostRoom c dstCa (s.exportBytes c)) 0x0008]
    (fun s =>
      let r := State.toHost s c dstCa (s.exportGranules c)
      (r.1, .detach (.exporting r.2 (s.exportBytes c))))

/-- STATE_EXPORT. -/
def execStateExport (h : ReqHdr) (dstCa : Nat) (s : State) : Host.Outcome State Fault Refusal := .next (whenLive s (doStateExport h dstCa))

/-! ### CMD_DONE (R382) -/

/-- Every stream of a checkpoint is written (R277). -/
def State.sealWritten (s : State) (c : Nat) (id : Word) : Bool :=
  s.cel.ckpts.any (fun k => k.ctx == c && k.ckid == id && k.frames.all (fun f => (s.cel.stream f).written))

/-- What a detached command came to: its final STATUS and reply, and the state it leaves; none while it goes on. -/
def State.cmdEnd (s : State) (k : Cmd) : Option (State × Nat × List Byte) :=
  match k.wait with
  | .pin l tier kept =>
    match k.ended with
    | some st =>
      let s := { s with mig := { s.mig with moves := s.mig.moves.filter (fun m => m.started || !(m.forPin && l.contains m.lgn)) } }
      let s := { s with mig := { s.mig with moves := s.mig.moves.map (fun m => if l.contains m.lgn then { m with forPin := false } else m) } }
      some ((l.filter (fun g => !kept.contains g)).foldl (fun s g => s.modPent g (fun e => { e with hpin := false })) s, st, [])
    | none => if l.all (fun g => s.restsIn g tier && (s.pent g).hpin) then some (s, 0, []) else none
  | .quota old failed =>
    if failed || k.ended.isSome then
      let s := { s with mig := { s.mig with moves := s.mig.moves.filter (fun m => m.started || !(m.forQuota && (s.pent m.lgn).ctx == k.ctx)) } }
      some ((s.modCtx k.ctx (fun x => x.withQuota old)).setAreas k.ctx, 8, [])
    else if s.overQuota k.ctx (s.ctx k.ctx) then none else some (s, 0, [])
  | .seal _ st reply => some (s, st, reply)
  | .sealCel id started reply =>
    if started then (if s.sealWritten k.ctx id then some (s, 0, reply) else none)
    else if s.cel.readOnly then some (s, 7, [])
    else if s.celCkptOk && (s.sealCel k.ctx id).isNone then some (s, 8, [])
    else none
  | .restore reply => some (s, 0, reply)
  | .exporting st n => some (s, st, leB 8 n)
  | .takeover =>
    if s.board.phase = 5 then some (s, 0, leB 1 s.board.flid ++ leB 3 0 ++ leB 4 s.board.epoch.toNat)
    else if s.board.phase = 6 then some (s, 0x000F, [])
    else none
  | _ => none

/-- A seal that has waited for the credit starts once its write may (R290). -/
def State.startWaiting (s : State) (f : Nat) : State :=
  match (s.fn f).detached.findSome? (fun k => match k.wait with
    | .sealCel id false reply => if s.celCkptOk then (s.sealCel k.ctx id).map (fun s => (k, s, CmdWait.sealCel id true reply)) else none
    | _ => none) with
  | some (k, s, w) => s.modFn f (fun x => { x with detached := x.detached.map (fun y => if y = k then { y with wait := w } else y) })
  | none => s

/-- CMD_DONE: the first of a function's detached commands that has ended writes its done entry; a seal that waited for the credit starts. -/
def doCmdDone (f : Nat) (s : State) : State :=
  let s := s.startWaiting f
  match (s.fn f).detached.findSome? (fun k => (s.cmdEnd k).map (fun r => (k, r))) with
  | none => s
  | some (k, s, st, reply) => s.doneEntry f k st reply

/-- CMD_DONE. -/
def execCmdDone (f : FnId) (s : State) : Host.Outcome State Fault Refusal := .next (whenLive s (doCmdDone f.val))

end Sys2Proof.Machine
end

