-- ==== Sys2Proof/Machine/HostPorts.lean ====
section
/-! DEFINITION. Host ports and their resets (R353, R354, R370, R464, R476-R478): the rows HOST_PORT_TRAINED, PORT_LOST, PERST,
PERST_RELEASE, FUNCTION_LEVEL_RESET, VF_ENABLE, MOD_RST and MOD_RST_RELEASE. -/

namespace Sys2Proof.Machine

/-- The effect f where the part is powered and its clock runs. -/
def whenPowered (s : State) (f : State → State) : State := if s.pwr.powered && s.pwr.clkOk then f s else s

/-! ### Training and loss (R353, R370) -/

/-- The highest rate code that PCI_PCFG_x.MAXRATE allows; the reserved value caps nothing (DESIGN CHOICE, log entry 30). -/
def State.rateCap (s : State) (x : Nat) : Nat :=
  let m := bits (s.pciPcfg x) 1 2
  if m = 1 then 3 else if m = 2 then 2 else 4

/-- HOST_PORT_TRAINED: the port is up at a rate (code 2, 3 or 4) and a width; below x16 or 64 GT/s it is HOST_DEGRADED. -/
def doHostPortTrained (x rate width : Nat) (flit : Bool) (s : State) : State :=
  if (s.hport x).perst || !(rate == 2 || rate == 3 || rate == 4) || !(width == 4 || width == 8 || width == 16) then s else
  let r := min rate (s.rateCap x)
  let s := s.modHport x (fun p => { p with rate := r, width := width, flit := flit || r == 4, up := true })
  if r < 4 ∨ width < 16 then s.logEvent 0x6007 none 31 0 6 x 0 else s

/-- HOST_PORT_TRAINED. -/
def execHostPortTrained (x : HostPort) (rate : Nat) (width : Nat) (flit : Bool) (s : State) : Host.Outcome State Fault Refusal :=
  .next (whenPowered s (doHostPortTrained x.val rate width flit))

/-- The functions of a host port. -/
def portFns (x : Nat) : List Nat := (List.range 8).map (fun v => 8 * x + v)

/-- Freeze the contexts that a port's functions own (R370). -/
def State.freezePort (s : State) (x : Nat) : State :=
  let mine := (List.range 16).filter (fun c => (s.ctx c).st == .isOpen && !(s.ctx c).frozen && (match (s.ctx c).owner with
    | some f => f.val / 8 == x
    | none => false))
  let s := mine.foldl (fun s c => s.modCtx c (fun k => { k with frozen := true, orig := k.owner })) s
  if mine.isEmpty then s.logEvent 0x6001 none 31 0 6 x 0
  else (mine.foldl (fun s c => s.logEvent 0x6001 (some c) 31 0 6 x 0) s).msix (8 * (1 - x)) 3

/-- A port is lost: its link is down, its functions are reset with their configuration space, and its contexts freeze. -/
def State.losePort (s : State) (x : Nat) : State :=
  if !(s.hport x).up then s else
  let s := s.modHport x (fun p => { p with rate := 0, width := 0, flit := false, up := false, downCnt := satAdd 0xFFFF p.downCnt 1,
                                           vfEnable := false, numVfs := 0 })
  let s := s.freezePort x
  (portFns x).foldl (fun s f => s.fnReset f true) s

/-- PORT_LOST. -/
def execPortLost (x : HostPort) (s : State) : Host.Outcome State Fault Refusal := .next (whenPowered s (fun s => s.losePort x.val))

/-- PERST: a port's PERST# is asserted: the port is lost; with both held, L3 starts (R476, R477). PERST# gives the L3 no event code
of its own (log entry 24). -/
def doPerst (x : Nat) (s : State) : State :=
  if (s.hport x).perst then s else
  let s := (s.modHport x (fun p => { p with perst := true })).losePort x
  if (s.hport (1 - x)).perst && s.live then s.takeL3 0 else s

/-- PERST. -/
def execPerst (x : HostPort) (s : State) : Host.Outcome State Fault Refusal := .next (whenPowered s (doPerst x.val))

/-- PERST_RELEASE: the port starts link training (R464, R478). -/
def execPerstRelease (x : HostPort) (s : State) : Host.Outcome State Fault Refusal :=
  .next (whenPowered s (fun s => s.modHport x.val (fun p => { p with perst := false })))

/-! ### Functions (R354, R429, R440) -/

/-- VFs of a port that VF Enable and NumVFs no longer name are shut down: reset as by PERST#, their contexts left to CTX_CLOSE. A VF
enabled while an L2 of it runs holds its enable as pending (R441). -/
def State.setVfs (s : State) (x : Nat) (enable : Bool) (n : Nat) : State :=
  let had := (portFns x).filter s.fnExists
  let s := s.modHport x (fun p => { p with vfEnable := enable, numVfs := if n ≤ 7 then n else p.numVfs })
  (portFns x).foldl (fun s f =>
    if had.contains f && !s.fnExists f then (s.fnReset f true).modFn f (fun q => { q with pendEn := false })
    else if !had.contains f && s.fnExists f && (s.fn f).l2.isSome then s.modFn f (fun q => { q with pendEn := true })
    else s) s

/-- VF_ENABLE: a write of VF Enable or NumVFs in a PF's SR-IOV capability. -/
def execVfEnable (x : HostPort) (enable : Bool) (n : Nat) (s : State) : Host.Outcome State Fault Refusal :=
  .next (whenLive s (fun s => if (s.hport x.val).up then s.setVfs x.val enable n else s))

/-- FUNCTION_LEVEL_RESET: an FLR applies L2 to the function and its context; a PF's clears VF Enable with its configuration space. -/
def doFunctionLevelReset (f : Nat) (s : State) : State :=
  if !s.fnReach f then s
  else (if f % 8 = 0 then s.setVfs (f / 8) false 0 else s).startL2 f 0

/-- FUNCTION_LEVEL_RESET. -/
def execFunctionLevelReset (f : FnId) (s : State) : Host.Outcome State Fault Refusal := .next (whenLive s (doFunctionLevelReset f.val))

/-! ### MOD_RST# (R476, R478) -/

/-- MOD_RST: asserted for at least 10 µs it holds the core in L3; during an L3 it starts nothing new, and holds it too. -/
def doModRst (us : Nat) (s : State) : State :=
  if us < 10 then s
  else match s.pwr.l3 with
    | .none => s.startL3 0 s.modKeep .heldReset
    | .heldTrip => { s with pwr := { s.pwr with l3 := .heldBoth } }
    | _ => s

/-- MOD_RST. -/
def execModRst (us : Nat) (s : State) : Host.Outcome State Fault Refusal := .next (whenPowered s (doModRst us))

/-- MOD_RST_RELEASE: the held L3 completes, unless the compute dies still cool. -/
def doModRstRelease (s : State) : State :=
  match s.pwr.l3 with
  | .heldReset => s.endL3
  | .heldBoth => { s with pwr := { s.pwr with l3 := .heldTrip } }
  | _ => s

/-- MOD_RST_RELEASE. -/
def execModRstRelease (s : State) : Host.Outcome State Fault Refusal := .next (whenPowered s doModRstRelease)

end Sys2Proof.Machine
end

