-- ==== Sys2Proof/Machine/Keys.lean ====
section
/-! DEFINITION. The keys of the security block (R444, Table 19-1) and what the authenticated area holds (R448, R453): the derivations from the PUF
root, the wrapped board key and the anti-rollback records. AES key wrap is PRESUMED from SP 800-38F (log entry 40). -/

namespace Sys2Proof.Machine

/-- A key derived from R under a label, with GEN as its data; none while the security block holds no R (Table 19-1). -/
def State.rootKey (s : State) (label : String) : Option (List Byte) :=
  if s.boot.rootHeld then some (kmac256 (toBytes 32 Config.pufRoot.toNat) label (toBytes 1 (bits (capWord s.variant) 60 4)) 32) else none

/-- ξ: the seed of the identity key pair. -/
def State.idSeed (s : State) : Option (List Byte) := s.rootKey "HSR-ID"
/-- KW: it wraps KB at rest. -/
def State.wrapKey (s : State) : Option (List Byte) := s.rootKey "HSR-WRAP"
/-- KA: the MAC key of the anti-rollback records. -/
def State.ctrKey (s : State) : Option (List Byte) := s.rootKey "HSR-CTR"

/-- One step of AES key wrap: the register A and the semiblocks R, step t on semiblock i. -/
def kwStep (ks : List (List Nat)) (a : List Nat) (r : List (List Nat)) (i t : Nat) : List Nat × List (List Nat) :=
  let b := aes256 ks (a ++ r.getD i [])
  (((b.take 8).zip ((toBytes 8 t).reverse.map (·.toNat))).map (fun p => p.1 ^^^ p.2), r.set i (b.drop 8))

/-- AES-256 key wrap (KW mode) of a key of whole semiblocks. -/
def aesWrap (key data : List Byte) : List Byte :=
  let ks := aesSchedule (key.map (·.toNat))
  let n := data.length / 8
  let r0 := (List.range n).map (fun i => ((data.drop (8 * i)).take 8).map (·.toNat))
  let e := (List.range (6 * n)).foldl (fun (p : List Nat × List (List Nat)) k => kwStep ks p.1 p.2 (k % n) (k + 1)) (List.replicate 8 0xA6, r0)
  (e.1 ++ e.2.flatten).map (BitVec.ofNat 8)

/-- The board key as the authenticated area holds it: BOARD_ID, and KB wrapped under KW (R453). -/
def State.kbAtRest (s : State) : Option (List Byte) :=
  match s.boot.kb, s.wrapKey with
  | some k, some w => some (toBytes 8 s.boot.boardId.toNat ++ aesWrap w (toBytes 32 k.toNat))
  | _, _ => none

/-- An anti-rollback record of the authenticated area (R448): CTR, the write sequence number and the MAC. -/
def ctrRecord (key : List Byte) (ctr seq : Nat) : List Byte :=
  let body := toBytes 4 ctr ++ toBytes 8 seq
  body ++ kmac256 key "HSR-CTRREC" body 64

/-- The two records, the newer first. -/
def State.ctrRecords (s : State) : Option (List Byte × List Byte) :=
  s.ctrKey.map (fun k => (ctrRecord k s.boot.ctr s.boot.ctrSeq, ctrRecord k s.boot.ctrOld (s.boot.ctrSeq - 1)))

end Sys2Proof.Machine
end

