-- ==== Sys2Proof/Machine/CfgCmds.lean ====
section
/-! DEFINITION. Bundles, attestation, the event log's reads and the management side (R397-R400, R425, R427, R450-R452, R457): the rows CFG_STAGE,
CFG_COMMIT, CFG_REVERT, PROBATION_END, ATTEST_QUOTE, IDENTITY_GET, EVENT_READ, TELEMETRY_READ and MCTP_MESSAGE. -/

namespace Sys2Proof.Machine

/-! ### CFG_STAGE (R398) -/

/-- Ten seconds, in clk. -/
def tenSeconds : Nat := 10 * 600000000

/-- Another issuer holds a staging and has sent a chunk within the last 10 s. -/
def State.stagingHeld (s : State) (f : Nat) : Bool :=
  match s.boot.staging with
  | some k => k.owner != f && decide (s.beat.now ≤ k.clk + tenSeconds)
  | none => false

/-- A chunk does not go on where the staging stands. -/
def State.chunkBad (s : State) (f : Nat) (r : StageReq) (last : Bool) : Bool :=
  (r.offset != 0 && !s.stagingHeld f && (match s.boot.staging with
    | some k => k.owner != f || r.offset != k.bytes.length || r.total != k.total
    | none => true)) ||
  decide (r.total < r.offset + r.data.length) || (last && r.offset + r.data.length != r.total)

/-- The types of a bundle's sections, by its directory. -/
def bundleTypes (l : List Byte) : List Nat := (List.range (fieldAt l 14 2)).map (fun i => fieldAt l (64 + 16 * i) 2)

/-- A bundle's MAGIC and Length hold, every section is known and lies before the signature, and the required ones are there (R397, R398). -/
def bundleForm (l : List Byte) : Bool :=
  let ts := bundleTypes l
  fieldAt l 0 4 == 0x4C444E42 && fieldAt l 8 4 == l.length && decide (64 + 16 * fieldAt l 14 2 + 4627 ≤ l.length) &&
  ts.all (fun t => decide (1 ≤ t) && decide (t ≤ 5)) && ts.contains 1 && ts.contains 2 &&
  (List.range ts.length).all (fun i => decide (fieldAt l (68 + 16 * i) 4 + fieldAt l (72 + 16 * i) 4 + 4627 ≤ l.length))

/-- A staged bundle: its header from its bytes; what its sections say, whose inner layout the manual does not give, from the operand (log
entry 76). -/
def Bundle.ofBytes (l : List Byte) (parsed : Bundle) : Bundle :=
  { parsed with version := fieldAt l 4 4, gen := fieldAt l 12 1, variantMask := BitVec.ofNat 8 (fieldAt l 13 1),
                wellFormed := bundleForm l && parsed.wellFormed }

/-- The verification of a staged bundle: its STATUS (R398). -/
def State.verifyBundle (s : State) (bytes : List Byte) (b : Bundle) : Nat :=
  let body := bytes.take (bytes.length - 4627)
  if !b.wellFormed then 0x0004
  else if b.gen ≠ 1 ∨ !bitOf b.variantMask.toNat (variantNo s.variant) then 0x000C
  else if (!s.boot.recovery ∧ b.version ≤ s.boot.active.version) ∨ b.version < s.boot.ctr then 0x000B
  else if !Config.mldsaVerify (sha3_512 body) (bytes.drop (bytes.length - 4627)) then 0x000B
  else 0

/-- Take a chunk: the first erases the other slot; the last verifies the bundle. -/
def State.stage (s : State) (f : Nat) (r : StageReq) (last : Bool) (parsed : Bundle) : State × Ans :=
  let was : List Byte := if r.offset = 0 then [] else match s.boot.staging with
    | some k => k.bytes
    | none => []
  let bytes := was ++ r.data
  let boot := if r.offset = 0 then { s.boot with other := Bundle.reset, otherSig := true, otherBytes := [], otherSt := .empty } else s.boot
  let s := { s with boot := { boot with staging := some ⟨f, r.total, bytes, s.beat.now⟩ } }
  if !last then (s, .done 0 (leB 4 bytes.length))
  else
    let parsed := Bundle.ofBytes bytes parsed
    let st := s.verifyBundle bytes parsed
    if st = 0 then
      ({ s with boot := { s.boot with staging := none, other := parsed, otherSig := true, otherSt := .staged,
                                      otherBytes := bytes.take (bytes.length - 4627) } }, .done 0 (leB 4 bytes.length))
    else ({ s with boot := { s.boot with staging := none, other := Bundle.reset, otherBytes := [], otherSt := .empty } }, .done st [])

/-- CFG_STAGE. -/
def doCfgStage (h : ReqHdr) (r : StageReq) (parsed : Bundle) (s : State) : State :=
  let f := issuerNo h.issuer
  s.command h ⟨0x0080, if r.data.length ≤ 4072 then 8 + r.data.length else h.len + 1, .pf, .none, false, false⟩
    [bad (s.chunkBad f r h.last) 0x0004] [bad s.boot.probation 0x0007, bad (s.stagingHeld f) 0x0006]
    (fun s => s.stage f r h.last parsed)

/-- CFG_STAGE. -/
def execCfgStage (h : ReqHdr) (r : StageReq) (parsed : Bundle) (s : State) : Host.Outcome State Fault Refusal :=
  .next (whenLive s (doCfgStage h r parsed))

/-! ### CFG_COMMIT, CFG_REVERT and the end of probation (R399, R400, R448) -/

/-- A step is in flight in some context. -/
def State.anyStep (s : State) : Bool := (List.range 16).any (fun c => !s.idle c)

/-- A detached command runs. -/
def State.anyDetached (s : State) : Bool := (List.range 16).any (fun f => !(s.fn f).detached.isEmpty)

/-- The staged bundle becomes the active one, in probation; the active one stays as the fallback, in recovery mode there is none. -/
def State.commitBundle (s : State) : State :=
  let b := s.boot
  { s with boot := { b with
      active := b.other, activeSig := b.otherSig, bundleBytes := b.otherBytes, other := if b.recovery then Bundle.reset else b.active,
      otherSig := b.activeSig, otherBytes := if b.recovery then [] else b.bundleBytes, otherSt := if b.recovery then .empty else .fallback,
      probation := true, probSince := s.beat.now, probCommits := 0 } }

/-- CFG_COMMIT. -/
def doCfgCommit (h : ReqHdr) (s : State) : State :=
  s.command h ⟨0x0081, 0, .pf, .none, false, false⟩ []
    [bad (s.boot.otherSt != .staged || s.boot.ctrLost || s.anyStep || s.anyDetached) 0x0007]
    (fun s => (s, .done 0 (leB 4 s.boot.other.version)))
    (fun s =>
      let s := s.commitBundle.takeL3 0x0081
      if s.boot.probation then s.logDev 0xA002 none s.boot.active.version else s)

/-- CFG_COMMIT. -/
def execCfgCommit (h : ReqHdr) (s : State) : Host.Outcome State Fault Refusal := .next (whenLive s (doCfgCommit h))

/-- CFG_REVERT. -/
def doCfgRevert (h : ReqHdr) (s : State) : State :=
  s.command h ⟨0x0082, 0, .pf, .none, false, false⟩ [] [bad (!s.boot.probation || s.anyStep) 0x0007]
    (fun s => (s, .done 0 (leB 4 s.boot.other.version)))
    (fun s => s.revert.takeL3 0x0082)

/-- CFG_REVERT. -/
def execCfgRevert (h : ReqHdr) (s : State) : Host.Outcome State Fault Refusal := .next (whenLive s (doCfgRevert h))

/-- Probation has lasted PROB_S seconds, or PROB_STEPS commits. -/
def State.probationOver (s : State) : Bool :=
  s.boot.probation && !s.boot.recovery &&
  (decide (s.boot.active.probS * 600000000 ≤ s.beat.now - s.boot.probSince) || decide (s.boot.active.probSteps ≤ s.boot.probCommits))

/-- PROBATION_END: the bundle is confirmed, and the anti-rollback counter advances to its VERSION, in the record with the lower sequence
number (R448). -/
def doProbationEnd (s : State) : State :=
  if !s.probationOver then s
  else State.logDev { s with boot := { s.boot with
      probation := false, otherSt := .empty, ctr := s.boot.active.version, ctrOld := s.boot.ctr, ctrSeq := s.boot.ctrSeq + 1 } } 0xA003 none s.boot.active.version

/-- PROBATION_END. -/
def execProbationEnd (s : State) : Host.Outcome State Fault Refusal := .next (whenLive s doProbationEnd)

/-! ### ATTEST_QUOTE (R451, R452) -/

/-- GLB_ID. -/
def State.glbId (s : State) : Nat :=
  0x1440 + (Config.stepping false).toNat * 2 ^ 16 + (Config.stepping true).toNat * 2 ^ 24 + s.fwVer % 2 ^ 32 * 2 ^ 32

/-- EVT_CTX.STATE of a context number: 0 closed, 1 open, 2 draining. -/
def Ctx.stateNo (x : Ctx) : Nat := match x.st with
  | .closed => 0
  | .isOpen => 1
  | .draining => 2

/-- Context entry c of a quote (Table 19-2). A closed number's owner reads 0. -/
def State.quoteCtx (s : State) (c : Nat) : List Byte :=
  let x := s.ctx c
  let own := match x.owner with
    | some o => o.val
    | none => 0
  let dig := match x.prog with
    | some p => p.digest.toNat
    | none => 0
  leB 1 c ++ leB 1 x.stateNo ++ leB 1 own ++ leB 5 0 ++ leB 64 dig ++ leB 8 x.step.lastCommit

/-- Bytes 0 to 1,535 of a quote for issuer f. A VF receives its own context's entry alone. -/
def State.quoteBody (s : State) (f : Nat) (nonce : List Byte) : List Byte :=
  leB 4 0x51544531 ++ leB 4 6163 ++ (nonce ++ List.replicate 64 0).take 64 ++ leB 4 Config.romVersion.toNat ++ leB 4 s.bundleVer ++ leB 4 s.boot.ctr ++
  leB 4 s.cfgState ++ leB 8 (capWord s.variant) ++ leB 8 s.glbId ++ leB 64 s.boot.fwDig.toNat ++ leB 64 s.boot.bundleDig.toNat ++
  leB 8 (if s.boot.kb.isSome then s.boot.boardId.toNat else 0) ++ leB 4 s.board.epoch.toNat ++ leB 4 s.evt.hubEpoch.toNat ++ leB 8 s.beat.tick ++
  (List.range 16).flatMap (fun c => if decide (16 ≤ f) || f % 8 == 0 || s.fnCtx f == some c then s.quoteCtx c else List.replicate 80 0)

/-- A quote of 6,163 bytes: its body and the signature. -/
def State.quote (s : State) (f : Nat) (nonce : List Byte) : List Byte :=
  let body := s.quoteBody f nonce
  body ++ (Config.mldsaSign body ++ List.replicate 4627 0).take 4627

/-- Return the next part of the pending quote; with its last byte it is pending no longer. -/
def State.quotePart (s : State) (f : Nat) : State × Ans :=
  let x := s.fn f
  let part := (x.quote.drop x.quoteOff).take 4072
  let next := x.quoteOff + part.length
  let s := s.modFn f (fun x => if x.quote.length ≤ next then { x with quote := [], quoteOff := 0 } else { x with quoteOff := next })
  (s, .done 0 (leB 4 x.quote.length ++ leB 4 x.quoteOff ++ part))

/-- ATTEST_QUOTE: a NONCE builds a quote, a zero one asks for the next part. -/
def doAttestQuote (h : ReqHdr) (nonce : List Byte) (s : State) : State :=
  let f := issuerNo h.issuer
  let zero := nonce.all (· == 0)
  s.command h ⟨0x00A0, 64, .any, .none, false, false⟩ [] [bad (zero && (s.fn f).quote.isEmpty) 0x0007]
    (fun s => (if zero then s else s.modFn f (fun x => { x with quote := s.quote f nonce, quoteOff := 0 })).quotePart f)

/-- ATTEST_QUOTE. -/
def execAttestQuote (h : ReqHdr) (nonce : List Byte) (s : State) : Host.Outcome State Fault Refusal := .next (whenLive s (doAttestQuote h nonce))

/-! ### IDENTITY_GET (R450) -/

/-- IDENTITY_GET. -/
def doIdentityGet (h : ReqHdr) (offset : Nat) (s : State) : State :=
  s.command h ⟨0x00A1, 8, .any, .none, false, false⟩ [] []
    (fun s => (s, .done 0 (leB 4 Config.certChain.length ++ (Config.certChain.drop offset).take 4072)))

/-- IDENTITY_GET. -/
def execIdentityGet (h : ReqHdr) (offset : Nat) (s : State) : Host.Outcome State Fault Refusal := .next (whenLive s (doIdentityGet h offset))

/-! ### EVENT_READ and TELEMETRY_READ (R425, R427) -/

/-- Entries that viewer f may read from SEQ `from_`, ascending. -/
def State.readable (s : State) (f from_ : Nat) : List Event := (s.evt.log.filter (fun e => decide (from_ ≤ e.seq) && s.views f e)).reverse

/-- MAX as taken. -/
def readMax (max : Nat) : Nat := if max = 0 ∨ 127 < max then 127 else max

/-- The bytes of an entry as viewer f receives them: zero where f may not read it (R424, R427). -/
def State.entryFor (s : State) (f : Nat) (l : List Byte) : List Byte :=
  let w := ofBytes l
  if f % 8 == 0 || decide (16 ≤ f) || bits w 85 5 == f || bitOf w 84 && s.fnCtx f == some (bits w 80 4) then l else List.replicate l.length 0

/-- The boot NOR's copy of the fault record as viewer f receives it (R427). -/
def State.norRecordFor (s : State) (f : Nat) : List Byte :=
  s.evt.norRecord.take 96 ++ (List.range 5).flatMap (fun i => s.entryFor f ((s.evt.norRecord.drop (96 + 32 * i)).take 32))

/-- The reply of EVENT_READ: the fault record for FROM all ones, else entries. -/
def State.eventBody (s : State) (f from_ max : Nat) : List Byte :=
  if from_ = 2 ^ 64 - 1 then (if s.evt.fromNor then s.norRecordFor f else s.faultRecord f)
  else
    let l := s.readable f (Nat.max from_ s.evtTail)
    let n := readMax max
    let next := match l[n]? with
      | some e => e.seq
      | none => s.evt.next
    leB 8 next ++ leB 2 (min n l.length) ++ leB 2 0 ++ leB 4 (min (2 ^ 32 - 1) (s.evtTail - Nat.max from_ 1)) ++ (l.take n).flatMap Event.bytes

/-- EVENT_READ. -/
def doEventRead (h : ReqHdr) (from_ max : Nat) (s : State) : State :=
  s.command h ⟨0x00B0, 16, .any, .none, false, false⟩ [] [] (fun s => (s, .done 0 (s.eventBody (issuerNo h.issuer) from_ max)))

/-- EVENT_READ. -/
def execEventRead (h : ReqHdr) (from_ max : Nat) (s : State) : Host.Outcome State Fault Refusal := .next (whenLive s (doEventRead h from_ max))

/-- The reply of TELEMETRY_READ. -/
def State.telemetry (s : State) : List Byte :=
  leB 4 (1000 * s.pwr.pin) ++ leB 2 s.pwr.tj ++ leB 2 s.pwr.tcool ++ leB 4 s.beat.periodEff ++ leB 1 (b2n (decide (0 < s.pwr.k)))

/-- TELEMETRY_READ. -/
def doTelemetryRead (h : ReqHdr) (s : State) : State :=
  s.command h ⟨0x00C0, 0, .any, .none, false, false⟩ [] [] (fun s => (s, .done 0 s.telemetry))

/-- TELEMETRY_READ. -/
def execTelemetryRead (h : ReqHdr) (s : State) : Host.Outcome State Fault Refusal := .next (whenLive s (doTelemetryRead h))

/-! ### MCTP_MESSAGE (R457) -/

/-- The header of a management message; its LEN is the command's own. -/
def mgmtHdr (seq : BitVec 16) (ctx : Nat) (keep last : Bool) (len : Nat) : ReqHdr :=
  { issuer := .mgmt, seq := seq, len := len, ctx := ctx, force := false, last := last, keep := keep, del := false, rsv := false }

/-- A management message: served as index 16, or refused. -/
def doMctpMessage (seq : BitVec 16) (ctx : Nat) (keep last : Bool) (m : MgmtReq) (parsed : Bundle) (s : State) : State :=
  let h := mgmtHdr seq ctx keep last
  match m with
  | .hello => doHello (h 8) s
  | .attestQuote nonce => doAttestQuote (h 64) nonce s
  | .identityGet o => doIdentityGet (h 8) o s
  | .eventRead a n => doEventRead (h 16) a n s
  | .telemetryRead => doTelemetryRead (h 0) s
  | .resetDevice => doResetDevice (h 0) s
  | .cfgStage r => doCfgStage (h (8 + r.data.length)) r parsed s
  | .cfgCommit => doCfgCommit (h 0) s
  | .cfgRevert => doCfgRevert (h 0) s
  | .other cmd => s.command (h 0) ⟨cmd, 1, .any, .none, false, false⟩ [] [] (fun s => (s, .done 0x0003 []))

/-- MCTP_MESSAGE. The hub answers it in an L3 too. -/
def execMctpMessage (seq : BitVec 16) (ctx : Nat) (keep last : Bool) (m : MgmtReq) (parsed : Bundle) (s : State) :
    Host.Outcome State Fault Refusal := .next (if s.pwr.powered then doMctpMessage seq ctx keep last m parsed s else s)

end Sys2Proof.Machine
end

