-- ==== Sys2Proof/Machine/Power.lean ====
section
/-! DEFINITION. Power, heat and clocks (R460-R472, R475), what an L4 loses and keeps (R426-R430, R445-R449, R463), and the entry into TEST
(R300, R458, R491): the rows POWER_ON, THERMAL_EVAL, VIN_RANGE, RAIL_FAULT, POWER_PEAK, THERM_TRIP, THERM_TRIP_RELEASE, THERM_TRIP_TIMEOUT,
COOLANT_HIGH, CLK_LOSS and TEST_ENTRY. -/

namespace Sys2Proof.Machine

/-! ### POWER_ON -/

/-- The event log after an L4: the persistent entries, under their own numbers; the next entry is above them all (R426). The recovery
registers and the boot NOR's record stay (R427, R430). -/
def Evt.afterL4 (e : Evt) (epoch : BitVec 32) : Evt :=
  { ({} : Evt) with
    next := ((e.nor.map (·.seq)).foldl max 0) + 1, log := e.nor, nor := e.nor, hubEpoch := epoch, rstLevel := 4, rstCode := e.l4Code,
    l3Cnt := e.l3Cnt, l4Cnt := satAdd 0xFFFF e.l4Cnt 1, norRecord := e.norRecord, fromNor := true }

/-- The state with which the ROM starts from power-up; CTR is that of the valid record with the higher sequence number (R448). The first power-up of a part is no L4: nothing precedes it (DESIGN CHOICE, log
entry 39). -/
def State.powerBase (s : State) (i : BootInputs) : State :=
  let first := s.boot.boots == 0
  let w := s.wipeL3 0 false
  { w with
    fns := [], hports := smMap {} s.hports (fun _ p => { ({} : HPort) with perst := p.perst }), cfg := {}, rwi := [], rwiNew := [], old := [],
    evt := if first then { s.evt with since := s.beat.now } else s.evt.afterL4 w.evt.hubEpoch,
    boot := { w.boot with pufFail := !(i.pufOk && i.certOk), ctrLost := !(i.ctrOk || i.ctrOldOk),
                          ctr := if i.ctrOk || !i.ctrOldOk then w.boot.ctr else w.boot.ctrOld,
                          ctrSeq := if i.ctrOk || !i.ctrOldOk then w.boot.ctrSeq else w.boot.ctrSeq - 1, activeSig := i.activeSig, otherSig := i.otherSig },
    board := { w.board with slot := i.slotId % 16 },
    pwr := { ({} : Pwr) with powered := true, coreRails := true, pwrOk := true,
                             vin := if 4400 ≤ s.pwr.vin ∧ s.pwr.vin ≤ 6000 then s.pwr.vin else 4400 } }

/-- POWER_ON: the input reaches 44 V (R463): after an L4 the level is logged; the PUF root is checked, a bundle in probation is rejected
(R400, R448), and the ROM boots. -/
def doPowerOn (i : BootInputs) (s : State) : State :=
  if s.pwr.powered then s else
  let first := s.boot.boots == 0
  let cause := s.evt.l4Code.toNat
  let s := s.powerBase i
  let s := if first then s else s.logLevel 4 none 31 cause
  let s := if s.boot.pufFail then s.logDev 0x8002 none 0 else s
  let s := if s.boot.probation then s.revert else s
  s.bootUp

/-- POWER_ON. -/
def execPowerOn (i : BootInputs) (s : State) : Host.Outcome State Fault Refusal := .next (doPowerOn i s)

/-! ### Input and rails (R460-R462) -/

/-- VIN_RANGE: the input in mV. Below 42.0 V or above 63.0 V every rail is removed; outside 44 to 60 V VIN_RANGE is set, and logged each
time it sets. -/
def doVinRange (mv : Nat) (s : State) : State :=
  if !s.pwr.powered then s else
  let out := decide (mv < 44000) || decide (60000 < mv)
  if mv < 42000 ∨ 63000 < mv then
    { s with pwr := { s.pwr with vin := mv / 10, powered := false, coreRails := false, pwrOk := false, vinRange := true } }
  else
    let t := { s with pwr := { s.pwr with vin := mv / 10, vinRange := out } }
    if out && !s.pwr.vinRange then t.logDev 0x9001 none (mv / 10) else t

/-- VIN_RANGE. -/
def execVinRange (mv : Nat) (s : State) : Host.Outcome State Fault Refusal := .next (doVinRange mv s)

/-- The units on the core rails: stacks, kiln groups, tiles and link ports lose their state with their power. -/
def State.dropRails (s : State) : State :=
  let ks := s.allUnits.filter (fun k => decide (k < 120))
  let s := ks.foldl (fun s k => s.modUnit k (fun _ => {})) s
  let s := (portsOf s.variant).foldl (fun s p => s.modPort p (fun x => { x with st := 0, lanesOk := 0 })) s
  { s with pwr := { s.pwr with coreRails := false, queue := s.pwr.queue.filter (fun k => decide (120 ≤ k)) } }

/-- RAIL_FAULT: the compute-die, SRAM, HBM4 and link-die rails are removed; open steps abort, FAIL is set, and L4 is requested. -/
def doRailFault (rail : Nat) (s : State) : State :=
  if !s.pwr.coreRails then s else
  let s := s.logDev 0x9002 none rail
  let s := State.abortAll { s with board := { s.board with fail := true } } 0x9002 false
  s.dropRails.requestL4 0x9002

/-- RAIL_FAULT. -/
def execRailFault (rail : Nat) (s : State) : Host.Outcome State Fault Refusal := .next (whenPowered s (doRailFault rail))

/-! ### Power and heat (R469-R472) -/

/-- The stretch level that an evaluation gives: TJ_MAX in 0.1 °C, the mean input power of the last second in W. -/
def nextStretch (k meanW tj : Nat) : Nat :=
  if 950 ≤ tj ∨ 1400 < meanW then min 16 (k + 1) else if tj < 900 ∧ meanW < 1330 then k - 1 else k

/-- THERMAL_EVAL: k is evaluated, a follower reports its change to the master, and PERIOD follows (R469, R470). A rise is caused by power
where the mean is above 1,400 W and the row says so, or TJ_MAX alone would not have raised k. -/
def doThermalEval (meanW tj : Nat) (byPower : Bool) (s : State) : State :=
  let k := s.pwr.k
  let k' := nextStretch k meanW tj
  let s := { s with pwr := { s.pwr with pin := meanW % 2 ^ 16, tj := tj % 2 ^ 11, k := k' } }
  let s := if k = 0 ∧ 0 < k' then s.logDev 0x9005 none k' else s
  let s := if k < k' ∧ 1400 < meanW ∧ (byPower = true ∨ tj < 950) then s.logDev 0x9003 none k' else s
  let s := if k ≠ k' ∧ s.board.lid ≠ 0 ∧ s.board.lid ≤ 7 then s.putControl (s.portOfLid 0) 0 (toBytes 4 k') .stretch else s
  s.applyStretch

/-- THERMAL_EVAL. -/
def execThermalEval (meanW : Nat) (tj : Nat) (byPower : Bool) (s : State) : Host.Outcome State Fault Refusal :=
  .next (whenLive s (doThermalEval meanW tj byPower))

/-- POWER_PEAK: above 1,700 W for 5 ms admission stops, for the rest of the beat at least; below 1,400 W the stop ends (R471). -/
def doPowerPeak (w : Nat) (s : State) : State :=
  let s := { s with pwr := { s.pwr with pin := w % 2 ^ 16 } }
  if 1700 < w then
    let t := { s with pwr := { s.pwr with peak := true, peakEnd := false, peakTick := if s.pwr.peak then s.pwr.peakTick else s.beat.tick } }
    if s.pwr.peak then t else t.logDev 0x9004 none w
  else if s.pwr.peak ∧ w < 1400 then
    (if s.pwr.peakTick = s.beat.tick then { s with pwr := { s.pwr with peakEnd := true } }
     else { s with pwr := { s.pwr with peak := false } })
  else s

/-- POWER_PEAK. -/
def execPowerPeak (w : Nat) (s : State) : Host.Outcome State Fault Refusal := .next (whenLive s (doPowerPeak w))

/-- THERM_TRIP: a junction reaches 105.0 °C: L3, in which the compute dies wait to cool. During an L3 it starts nothing new (R432). -/
def doThermTrip (s : State) : State :=
  let s := { s with pwr := { s.pwr with tj := max s.pwr.tj 1050 } }
  let s := s.logDev 0x9006 none 0
  match s.pwr.l3 with
  | .none => s.startL3 0x9006 s.modKeep .heldTrip
  | .heldReset => State.logEvent { s with pwr := { s.pwr with l3 := .heldBoth } } 0xA031 none 31 0 0 0 0x9006
  | _ => s.logEvent 0xA031 none 31 0 0 0 0x9006

/-- THERM_TRIP. -/
def execThermTrip (s : State) : Host.Outcome State Fault Refusal := .next (whenPowered s doThermTrip)

/-- THERM_TRIP_RELEASE: TJ_MAX falls below 95.0 °C: the compute dies leave reset, and the L3 goes on unless MOD_RST# holds it. -/
def doThermTripRelease (tj : Nat) (s : State) : State :=
  let s := { s with pwr := { s.pwr with tj := tj % 2 ^ 11 } }
  if 950 ≤ tj then s else
  match s.pwr.l3 with
  | .heldTrip => s.endL3
  | .heldBoth => { s with pwr := { s.pwr with l3 := .heldReset } }
  | _ => s

/-- THERM_TRIP_RELEASE. -/
def execThermTripRelease (tj : Nat) (s : State) : Host.Outcome State Fault Refusal := .next (whenPowered s (doThermTripRelease tj))

/-- THERM_TRIP_TIMEOUT: 60 s after a trip the compute dies still wait to cool. -/
def doThermTripTimeout (s : State) : State :=
  match s.pwr.l3 with
  | .heldTrip => s.requestL4 0x9006
  | .heldBoth => s.requestL4 0x9006
  | _ => s

/-- THERM_TRIP_TIMEOUT. -/
def execThermTripTimeout (s : State) : Host.Outcome State Fault Refusal := .next (whenPowered s doThermTripTimeout)

/-- COOLANT_HIGH: the inlet has been above 45.0 °C for 10 s: logged once. -/
def doCoolantHigh (s : State) : State :=
  let t := { s with pwr := { s.pwr with tcool := max s.pwr.tcool 451, coolLogged := true } }
  if s.pwr.coolLogged then t else t.logDev 0x9007 none 0

/-- COOLANT_HIGH. -/
def execCoolantHigh (s : State) : Host.Outcome State Fault Refusal := .next (whenPowered s doCoolantHigh)

/-! ### Clocks and TEST (R300, R458, R475) -/

/-- CLK_LOSS: LREF or the core PLL is out of lock: logged, L4 requested, and nothing runs on. -/
def doClkLoss (s : State) : State :=
  let s := (s.logDev 0x9008 none 0).requestL4 0x9008
  { s with pwr := { s.pwr with clkOk := false } }

/-- CLK_LOSS. -/
def execClkLoss (s : State) : Host.Outcome State Fault Refusal := .next (whenPowered s doClkLoss)

/-- Zero SCRATCH: tiles' scratchpads and die pools, with their poison and slot headers. -/
def State.zeroScratch (s : State) : State :=
  { s with mem := memZero s.mem 0 (2 ^ 46), poison := s.poison.filter (fun w => decide (2 ^ 42 ≤ w)), hdrs := smErase s.hdrs 0 (2 ^ 34) }

/-- TEST_ENTRY: R and its keys are cleared, SCRATCH is zeroed, pending quotes are dropped, every open step aborts, and MODE is TEST until
an L3. -/
def doTestEntry (s : State) : State :=
  if s.boot.test then s else
  let s := s.logDev 0x8009 none 0
  let s := State.abortAll { s with boot := { s.boot with test := true, rootHeld := false },
                                   fns := smMap {} s.fns (fun _ x => { x with quote := [], quoteOff := 0 }) } 0x8009 false
  s.zeroScratch.setMode 1

/-- TEST_ENTRY. -/
def execTestEntry (s : State) : Host.Outcome State Fault Refusal := .next (whenLive s doTestEntry)

/-! ### Pins -/

/-- WAKE# of host port x is asserted: power-up or an L3 has reached the point where functions accept HELLO, and the port's link is down (R483). -/
def State.wakePin (s : State) (x : Nat) : Bool := s.live && s.hub.mode != 0 && !(s.hport x).up

end Sys2Proof.Machine
end

