-- ==== Sys2Proof/Machine/RegView.lean ====
section
/-! DEFINITION. What a host's reads of BAR0 and BAR2 return: every register of Tables 02-3, 03-8, 03-9, 04-4, 05-3, 07-1, 08-6, 10-6, 11-4,
12-6, 13-6, 15-6, 16-1, 17-3, 17-4, 17-5 and 18-9 as a function of the state, the banked ones as the reading function's context shows
them (R355), and a VF's subset (R358). Reads change nothing but the exception locator (R404). -/

namespace Sys2Proof.Machine

/-- A field of w bits at bit lo. -/
def fld (lo w x : Nat) : Nat := x % 2 ^ w * 2 ^ lo

/-! ### The tile block (Tables 03-8, 03-9, 04-4, 07-1) -/

/-- SEQ_STAT of a stream. -/
def Seq.stat (q : Seq) : Nat :=
  fld 0 24 q.pc + fld 24 5 q.inflight.length + b2n q.run * 2 ^ 29 + b2n q.held * 2 ^ 30 +
  b2n (q.waiting || q.beatWait.isSome || q.inflight.any (fun x => match x.wait with
    | .sem _ _ => true
    | _ => false) || q.lastPassed) * 2 ^ 31 +
  b2n q.faulted * 2 ^ 32 + fld 33 3 q.loops.length + fld 36 4 q.calls.length + fld 48 16 q.faultCode.toNat

/-- A register of a sequencer. -/
def Seq.reg (q : Seq) (o : Nat) : Nat :=
  if o = 0 then fld 8 40 q.pbase
  else if o = 8 then fld 0 24 q.plen
  else if o = 0x10 then fld 0 20 q.crbase + fld 24 4 q.crlog2
  else if o = 0x18 then q.stat
  else if o = 0x20 then fld 0 32 q.seqNo + fld 32 32 q.icMiss
  else 0

/-- TILE_XLOC0. -/
def XLoc.word0 (x : XLoc) : Nat :=
  fld 0 32 x.cap.seq + fld 32 2 x.cap.stream + b2n x.valid * 2 ^ 34 + b2n x.more * 2 ^ 35 + fld 36 1 x.cap.bank + b2n x.cap.retry * 2 ^ 37 +
  fld 48 16 x.cap.step16

/-- TILE_XLOC1. -/
def XLoc.word1 (x : XLoc) : Nat :=
  fld 0 7 x.cap.row + fld 8 7 x.cap.col + fld 16 16 x.cap.kchunk + fld 32 2 x.cap.kind + fld 40 24 x.cap.pc

/-- Units of a cask's entries in a tier (Table 07-1). -/
def Cask.unitsIn (k : Cask) (tier : Nat) : Nat :=
  k.dir.foldl (fun a p => if p.2.valid ∧ ¬ p.2.dropped ∧ p.2.tier = tier then a + caskUnits p.2.size else a) 0

/-- A register of the cask. -/
def Cask.reg (k : Cask) (o : Nat) : Nat :=
  if o = 0 then fld 0 20 k.abase + fld 20 9 k.aunits
  else if o = 8 then fld 0 16 k.gcnt1 + fld 21 27 k.gbase1
  else if o = 0x10 then fld 0 16 k.gcnt2 + fld 21 27 k.gbase2
  else if o = 0x18 then
    fld 0 13 (k.dir.countP (fun p => p.2.valid)) + fld 16 9 (k.unitsIn 0) + b2n k.stallF.isSome * 2 ^ 32 + b2n k.stallB.isSome * 2 ^ 33
  else if o = 0x20 then fld 0 24 (k.unitsIn 1) + fld 32 24 (k.unitsIn 2)
  else if o = 0x28 then fld 0 48 k.dropCnt
  else 0

/-- TILE_STAT of tile t. ACTIVE and PEND_EN are the tile set's, which is enabled once its four tiles are (R465). -/
def State.tileStat (s : State) (t : Nat) : Nat :=
  let u := s.unit (16 + t)
  let set := (List.range 4).map (fun i => s.unit (16 + t / 4 * 4 + i))
  (match s.tileCtx t with
   | some c => c
   | none => 0xFF) +
  fld 8 5 (t / 4) + b2n (set.all (·.active) && (s.tileCtx t).isSome) * 2 ^ 13 + b2n (set.any (·.pendEn)) * 2 ^ 14 + b2n u.quar * 2 ^ 15 + u.epoch.toNat * 2 ^ 32

/-- A register of tile t's block. -/
def State.tileReg (s : State) (t o : Nat) : Nat :=
  let x := s.tile t
  if o = 0 then s.tileStat t
  else if o = 8 then (match s.tileCtx t with
    | some c => ((s.ctx c).pools.getD (t / 24) 0).toNat
    | none => 0)
  else if o = 0x10 then s.rwiGet (0x2000010 + 0x40000 * t)
  else if 0x100 ≤ o ∧ o < 0x1C0 then (x.seq (streamOf ((o - 0x100) / 0x40))).reg ((o - 0x100) % 0x40)
  else if o = 0x200 then x.invCnt
  else if o = 0x208 then x.satCnt
  else if o = 0x210 then x.flushCnt
  else if o = 0x218 then x.ovfCnt
  else if o = 0x220 then x.cmpCnt
  else if o = 0x228 then x.ovrCnt
  else if o = 0x280 then x.xloc.word0
  else if o = 0x288 then x.xloc.word1
  else if 0x300 ≤ o ∧ o < 0x330 then x.cask.reg (o - 0x300)
  else if 0x1000 ≤ o ∧ o < 0x1800 then (smGet 0 x.sems ((o - 0x1000) / 8)).toNat
  else 0

/-! ### Banked and device-wide blocks -/

/-- A unit's word, as KLN_GRP_n (Table 08-6). -/
def UnitSt.word (u : UnitSt) : Nat := b2n u.active + b2n u.pendEn * 2 + b2n u.quar * 4 + u.epoch.toNat * 2 ^ 32

/-- GLB registers; banked ones for context c (Tables 02-3, 05-3, 17-4). -/
def State.glbReg (s : State) (c : Option Nat) (o : Nat) : Nat :=
  if o = 0 then s.glbId
  else if o = 8 then capWord s.variant
  else if o = 0x100 then s.eff 0x100
  else if o = 0x108 then s.beatStat
  else if o = 0x110 then s.beat.tick % 2 ^ 64
  else match c with
    | none => 0
    | some c =>
      if o = 0x118 then (s.ctx c).step.stepNo % 2 ^ 64
      else if o = 0x120 then s.stepStat c
      else if o = 0x128 then (s.ctx c).step.cntWord
      else if o = 0x130 then (s.ctx c).seed.toNat
      else 0

/-- CFG registers (Table 17-3); CFG_STROBE and CFG_STROBE_AT read 0. -/
def State.cfgReg (s : State) (o : Nat) : Nat :=
  if o = 0x10 then s.cfgPend
  else if o = 0x18 then s.cfgInteg
  else if o = 0x20 then fld 0 16 s.cfg.badAcc + fld 16 16 s.cfg.mismatchCnt + fld 32 32 s.cfg.strobes
  else if 0x100 ≤ o ∧ o < 0x180 then s.cfgCrc ((o - 0x100) / 8)
  else if 0x200 ≤ o ∧ o < 0x280 then s.cfgRef ((o - 0x200) / 8)
  else 0

/-- PWR registers that are not RW-S (Table 17-5). -/
def State.pwrReg (s : State) (o : Nat) : Nat :=
  if o = 0 then s.pwrStat
  else if o = 0x18 then fld 0 16 s.pwr.granted + fld 16 16 s.pwr.waiting
  else 0

/-- HUB and arbiter registers that are not RW-S (Table 12-6). -/
def State.hubReg (s : State) (o : Nat) : Nat :=
  if o = 0 then s.hubState
  else if o = 0x10 then fld 0 16 s.hub.retrainCnt + fld 16 16 s.hub.bypassCnt + fld 32 32 s.hub.bypassBeats
  else if 0x1000 ≤ o ∧ o < 0x10B0 then s.rwiGet (0x400000 + o)
  else if 0x1200 ≤ o ∧ o < 0x1258 then
    if !arbOk s.variant ((o - 0x1200) / 8) then 0 else
    fld 0 32 (s.arb ((o - 0x1200) / 8)).restart + fld 32 32 (s.arb ((o - 0x1200) / 8)).aged
  else 0

/-- TIER registers below 0x1000 of context c (Table 10-6). -/
def State.tierCtxReg (s : State) (c o : Nat) : Nat :=
  let x := s.ctx c
  if o = 0 then fld 0 20 x.qBank + fld 20 20 x.qBankCask + fld 40 20 x.qLedger
  else if o = 8 then fld 0 20 x.qBulk + fld 20 20 x.qBulkCask
  else if o = 0x10 then fld 0 24 x.qCel
  else if o = 0x18 then fld 0 20 (s.tierUse c 1) + fld 20 20 (s.tierUse c 2) + fld 40 24 (s.tierUse c 3)
  else if o = 0x20 then fld 0 32 x.promo + fld 32 32 x.evict
  else if o = 0x28 then fld 0 19 (s.ctxTags c)
  else 0

/-- STK_RAS and CH_RAS. -/
def RasUnit.word (r : RasUnit) : Nat := fld 0 24 r.ce + fld 24 16 r.ue + fld 40 12 r.fret

/-- TIER registers from 0x1000 that are not RW-S. -/
def State.tierReg (s : State) (o : Nat) : Nat :=
  if o = 0x1008 then
    fld 0 10 (s.mig.moves.countP (·.started)) + fld 10 22 (s.mig.moves.countP (fun m => !m.started)) + b2n s.noRoom * 2 ^ 32
  else if o = 0x1018 then fld 0 19 s.tagsInUse + fld 19 19 s.mig.high
  else if o = 0x1020 then fld 0 48 s.mig.waits
  else if o = 0x1030 then fld 0 20 (s.tierCap 1) + fld 20 20 (s.tierCap 2) + fld 40 24 (s.tierCap 3)
  else if 0x1100 ≤ o ∧ o < 0x1180 then
    let n := (o - 0x1100) / 8 % 8
    if !stackFitted s.variant n then 0
    else if o < 0x1140 then (smGet {} s.ras.stk n).word else (smGet {} s.ras.stk n).ret % 2 ^ 64
  else if 0x1200 ≤ o ∧ o < 0x1290 then (smGet {} s.ras.ch ((o - 0x1200) / 8)).word
  else if 0x1300 ≤ o ∧ o < 0x1390 then (smGet {} s.ras.ch ((o - 0x1300) / 8)).ret % 2 ^ 16
  else if o = 0x1400 then fld 0 24 s.ras.scrCe + fld 24 16 s.ras.scrUe + fld 40 8 (s.ras.linesLeft.foldl (fun a p => min a p.2) 32)
  else if o = 0x1408 then fld 0 24 s.ras.netCe + fld 24 16 s.ras.netUe
  else 0

/-- KLN registers below 0x1000 of context c (Table 08-6). -/
def State.klnCtxReg (s : State) (c o : Nat) : Nat :=
  let x := s.ctx c
  let live := s.upds.filter (fun u => u.ctx == c && u.stage != .done && !u.shadow)
  if o = 0 then b2n x.oneSlot + b2n x.sel * 2 + b2n x.mirror * 4 + fld 6 42 (x.coefA / 64) + fld 48 16 x.timeout
  else if o = 8 then x.lbase % 2 ^ 48
  else if o = 0x10 then x.dbase % 2 ^ 48
  else if o = 0x18 then fld 0 24 x.slices
  else if o = 0x20 then x.fbase % 2 ^ 48
  else if o = 0x28 then
    fld 0 16 x.deferQuota + fld 16 16 (s.deferUsed c).length +
    b2n ((s.deferFree c).isNone && live.any (fun u => u.stage == .hold)) * 2 ^ 32
  else if o = 0x30 then x.shd1 % 2 ^ 48
  else if o = 0x38 then x.shd2 % 2 ^ 48
  else if o = 0x40 then
    fld 0 24 live.length + fld 24 24 (live.countP (fun u => u.stage == .deferred)) + b2n x.torn * 2 ^ 48 +
    b2n (x.step.pending && s.allCommitted c (x.step.stepNo - 1) && s.shardsDone c (x.step.stepNo - 1)) * 2 ^ 49
  else if o = 0x48 then fld 0 16 x.rerunCnt + fld 16 16 x.nonfinCnt + fld 32 32 x.deferCnt
  else 0

/-- KLN registers from 0x1000. -/
def State.klnReg (s : State) (o : Nat) : Nat :=
  if 0x1000 ≤ o ∧ o < 0x1040 then (if stackFitted s.variant ((o - 0x1000) / 8) then (s.unit (8 + (o - 0x1000) / 8)).word else 0)
  else if 0x1040 ≤ o ∧ o < 0x10D0 then (s.unit (160 + (o - 0x1040) / 8)).word
  else 0

/-- LNK registers of port p that are not RW-S (Table 13-6). -/
def State.portReg (s : State) (p o : Nat) : Nat :=
  let x := s.port p
  let u := s.unit (112 + p)
  if o = 0 then
    fld 0 2 x.st + fld 2 8 x.lanesOk.toNat + b2n u.pendEn * 2 ^ 10 + b2n u.quar * 2 ^ 11 + fld 12 4 x.peerSlot + fld 16 4 x.peerLid +
    fld 32 16 x.lat
  else if o = 0x10 then fld 0 32 x.crcRetry + fld 32 32 x.fecCorr
  else if o = 0x18 then fld 0 16 x.retrain + fld 16 16 x.markerMiss + fld 32 16 x.notPosted
  else if o = 0x20 then u.epoch.toNat * 2 ^ 32
  else 0

/-- LNK_CMB of context c. -/
def State.cmbReg (s : State) (c : Nat) : Nat :=
  fld 0 16 (s.ctx c).cmbSlots + fld 16 16 (s.cmbUsed c) + b2n (s.ctx c).cmbFull * 2 ^ 32

/-- The board registers at 0x108_0000. -/
def State.boardReg (s : State) (c : Option Nat) (o : Nat) : Nat :=
  let parts (lo : Nat) : Nat := (List.range 8).foldl (fun a i => a + (smGet 0 s.board.part (lo + i)).toNat * 2 ^ (8 * i)) 0
  if o = 0 then s.lnkBoard
  else if o = 0x10 then parts 0
  else if o = 0x18 then parts 8
  else if o = 0x20 then s.board.alive.toNat + s.board.failed.toNat * 2 ^ 9
  else if o = 0x28 then fld 0 3 s.board.phase + fld 3 4 s.board.flid + fld 32 32 s.board.progress
  else if o = 0x30 then c.elim 0 s.cmbReg
  else if o = 0x38 then fld 0 16 s.board.takeovers + fld 16 16 s.board.verdictLost
  else 0

/-- Function f's registers (Table 15-6). -/
def State.fnReg (s : State) (f o : Nat) : Nat :=
  let x := s.fn f
  if o = 0 then
    f + fld 4 1 (f / 8) + b2n (f % 8 == 0) * 2 ^ 5 + b2n x.pendEn * 2 ^ 12 +
    (match s.fnCtx f with
     | some c => 2 ^ 6 + b2n (s.ctx c).frozen * 2 ^ 7 + fld 8 4 c + (s.ctx c).tsets.toNat * 2 ^ 16
     | none => 0)
  else if o = 0x10 then fld 0 4 x.winLog2
  else if o = 0x18 then fld 0 24 x.flags + fld 24 24 x.winErr
  else s.rwiGet (0x1800000 + 0x1000 * f + o)

/-- Host port registers that are not RW-S, and PCI_POLICY (Table 15-6). -/
def State.pciReg (s : State) (o : Nat) : Nat :=
  let x := s.hport (o / 0x100 % 2)
  if o = 0x10200 then b2n s.boot.active.adoptAB + b2n s.boot.active.adoptBA * 2
  else if o = 0x10000 ∨ o = 0x10100 then fld 0 3 x.rate + fld 3 5 x.width + b2n x.flit * 2 ^ 8 + b2n x.up * 2 ^ 9
  else if o = 0x10010 ∨ o = 0x10110 then fld 0 16 x.downCnt + fld 16 16 x.parkFull + fld 32 16 x.ridWide
  else 0

/-- Function f's MSI-X block: the table, and the PBA at 0x800 (R369, R412). -/
def State.msixReg (s : State) (f o : Nat) : Nat :=
  if o = 0x800 then (s.fn f).pba.toNat else s.rwiGet (0x1820000 + 0x1000 * f + o)

/-- KiB charged in the last seven days of a daily list. -/
def State.lastWeek (s : State) (l : List (Nat × Nat)) : Nat := l.foldl (fun a p => if s.dayNo < p.1 + 7 then a + p.2 else a) 0

/-- DAYS_LEFT (R292): the cycles left of 3,000, at 64 KiB × 65,536 units of each of 5,120 superblocks a cycle, over the mean
programming of seven days; with none programmed 0xFFFF (DEDUCED, log entry 38). -/
def State.daysLeft (s : State) : Nat :=
  let w := s.lastWeek s.cel.nandDaily
  if w = 0 then 0xFFFF else min 0xFFFF ((3000 - s.cel.peAvg) * (sbCount * 65536 * 64) * 7 / w)

/-- CEL registers that are not RW-S (Table 11-4). -/
def State.celReg (s : State) (o : Nat) : Nat :=
  let x := s.cel
  if o = 0x10 then ofSigned 48 x.credit
  else if o = 0x18 then
    fld 0 13 x.freeCount + b2n x.throttled * 2 ^ 13 + b2n (!x.rebuilding.isEmpty) * 2 ^ 14 + b2n x.readOnly * 2 ^ 15 +
    b2n s.compacting * 2 ^ 16 + fld 24 8 x.dead.length
  else if o = 0x20 then fld 0 12 x.peAvg + fld 12 12 x.peMax + fld 24 12 x.peMin + fld 36 7 x.lifePct + fld 48 12 x.sbMargin
  else if o = 0x28 then s.daysLeft + fld 16 24 (min (2 ^ 24 - 1) (s.lastWeek x.daily / 1048576))
  else if o = 0x30 then min (2 ^ 32 - 1) (x.hostKib / 1048576) + fld 32 32 (min (2 ^ 32 - 1) (x.nandKib / 1048576))
  else if o = 0x38 then fld 0 32 x.retries + fld 32 32 x.rebuilds
  else if o = 0x40 then fld 0 32 x.lost + fld 32 16 x.blkRet
  else if 0x100 ≤ o ∧ o < 0x200 then
    let c := (o - 0x100) / 8
    (List.range 5).foldl (fun a d => if x.dead.contains (c, d) then a else a + 2 ^ d) 0 + fld 8 10 (x.spares.countP (·.ch == c))
  else 0

/-- EVT registers that are not RW-S (Table 18-9), for function f. -/
def State.evtReg (s : State) (f : Nat) (o : Nat) : Nat :=
  if o = 0 then (match s.fnCtx f with
    | none => 0
    | some c =>
      let x := s.ctx c
      x.stateNo + b2n x.pendEn * 4 + fld 4 3 x.lastLevel + x.lastCode.toNat * 2 ^ 16 + fld 32 16 x.l1Cnt + fld 48 16 x.l2Cnt)
  else if o = 8 then (match s.evt.log.find? (s.mayRead f) with
    | some e => e.seq + 1
    | none => 1)
  else if o = 0x1000 then s.evt.next
  else if o = 0x1008 then s.evtTail
  else if o = 0x1018 then s.evt.hubEpoch.toNat
  else if o = 0x1020 then s.evtRst
  else if o = 0x1028 then s.evtAlert
  else if 0x1100 ≤ o ∧ o < 0x1150 then smGet 0 s.evt.cls ((o - 0x1100) / 8 + 1)
  else if 0x1200 ≤ o ∧ o < 0x1240 then (if stackFitted s.variant ((o - 0x1200) / 8) then (s.unit ((o - 0x1200) / 8)).word else 0)
  else if 0x1240 ≤ o ∧ o < 0x12D0 then (s.unit (128 + (o - 0x1240) / 8)).word
  else 0

/-! ### BAR0 and BAR2 -/

/-- The register at a PF offset of BAR0, a multiple of 8, as function f reads it (Table 17-1). -/
def State.regAt (s : State) (f a : Nat) : Nat :=
  let c := s.fnCtx f
  if (s.rws a).isSome then s.eff a
  else if a < 0x100000 then s.glbReg c a
  else if a < 0x200000 then s.cfgReg (a - 0x100000)
  else if a < 0x400000 then s.pwrReg (a - 0x200000)
  else if a < 0x800000 then s.hubReg (a - 0x400000)
  else if a < 0x801000 then c.elim 0 (fun c => s.tierCtxReg c (a - 0x800000))
  else if a < 0xC00000 then s.tierReg (a - 0x800000)
  else if a < 0xC01000 then c.elim 0 (fun c => s.klnCtxReg c (a - 0xC00000))
  else if a < 0x1000000 then s.klnReg (a - 0xC00000)
  else if 0x1080000 ≤ a ∧ a < 0x1080040 then s.boardReg c (a - 0x1080000)
  else if a < 0x1800000 then
    let p := (a - 0x1000000) / 0x100000
    if portFitted s.variant p then s.portReg p (a % 0x100000) else 0
  else if a < 0x1810000 then s.fnReg ((a - 0x1800000) / 0x1000) (a % 0x1000)
  else if a < 0x1820000 then s.pciReg (a - 0x1800000)
  else if a < 0x1830000 then s.msixReg ((a - 0x1820000) / 0x1000) (a % 0x1000)
  else if a < 0x1C00000 then 0
  else if a < 0x2000000 then (if cellarFitted s.variant then s.celReg (a - 0x1C00000) else 0)
  else if a < 0x3800000 then s.tileReg ((a - 0x2000000) / 0x40000) (a % 0x40000)
  else if a < 0x4000000 then s.evtReg f (a - 0x3800000)
  else 0

/-- The PF offset that a function's BAR0 offset shows (R358): a PF's own, a VF's context subset. LNK_CMB stands at its board offset
0x30 of the VF's range. -/
def State.regOffset (s : State) (f off : Nat) : Option Nat :=
  if f % 8 = 0 then some off
  else if off < 0x1000 then (if off / 8 = 0x20 then none else some off)
  else if off < 0x2000 then some (0xC00000 + off - 0x1000)
  else if off < 0x3000 then some (0x800000 + off - 0x2000)
  else if off < 0x4000 then (if off / 8 = 0x606 then some (0x1080000 + off - 0x3000) else none)
  else if off < 0x5000 then some (0x1800000 + 0x1000 * f + off - 0x4000)
  else if off < 0x6000 then some (0x3800000 + off - 0x5000)
  else if off < 0x7000 then some (0x1820000 + 0x1000 * f + off - 0x6000)
  else if 0x10000 ≤ off ∧ off < 0xD0000 then
    let t := (off - 0x10000) / 0x2000
    if (s.fnCtx f).isSome && s.tileCtx t == s.fnCtx f then some (0x2000000 + 0x40000 * t + off % 0x2000) else none
  else none

/-- An access to BAR0 is 8 bytes at a multiple of 8, or 4 at a multiple of 4 (R401). -/
def accessOk (off size : Nat) : Bool := size == 8 && off % 8 == 0 || size == 4 && off % 4 == 0

/-- What a read of BAR0 returns (R401-R404). -/
def State.bar0Read (s : State) (f off size : Nat) : Nat :=
  if !accessOk off size then 0 else
  match s.regOffset f off with
  | none => 0
  | some a =>
    let w := s.regAt f (a / 8 * 8)
    if size = 8 then w % 2 ^ 64 else bits w (8 * (a % 8)) 32

/-- A reply or done entry as bytes: the header of Table 16-2 and the payload. -/
def Reply.bytes (r : Reply) : List Byte :=
  leB 2 r.cmd ++ leB 2 r.seq.toNat ++ leB 4 r.len ++ leB 1 r.ctx ++ leB 1 (b2n r.detached * 16) ++ leB 2 r.status ++ leB 4 0 ++ r.body

/-- MBX_STAT (Table 16-1). -/
def Fn.mbxStat (x : Fn) : Nat :=
  b2n (x.busy.isSome || x.posted.isSome) + b2n x.done * 2 + b2n x.reset * 4 + x.seq.toNat * 2 ^ 16 + fld 32 4 x.head +
  fld 36 5 x.detached.length

/-- MBX_CNT. -/
def Fn.mbxCnt (x : Fn) : Nat := fld 0 32 x.served + fld 32 16 x.lost

/-- The byte at an offset of BAR2 (R377). -/
def Fn.bar2Byte (x : Fn) (off : Nat) : Byte :=
  if off < 0x1000 then smGet 0 x.slot off
  else if off < 0x2000 then (x.reply.elim [] Reply.bytes).getD (off - 0x1000) 0
  else if 0x2008 ≤ off ∧ off < 0x2010 then BitVec.ofNat 8 (x.mbxStat / 2 ^ (8 * (off - 0x2008)))
  else if 0x2010 ≤ off ∧ off < 0x2018 then BitVec.ofNat 8 (x.mbxCnt / 2 ^ (8 * (off - 0x2010)))
  else if 0x3000 ≤ off ∧ off < 0x3400 then
    (match x.ring.find? (fun p => p.1 == (off - 0x3000) / 64) with
     | some p => p.2.bytes.getD (off % 64) 0
     | none => 0)
  else 0

end Sys2Proof.Machine
end

