-- ==== Sys2Proof/Machine/Registers.lean ====
section
/-! DEFINITION. A host's writes of registers (R358, R377, R378, R401-R405, R412), the check of WIN_FLAGB (R367) and the re-arming read of the
exception locator (R107): the rows XLOC_REARM, WIN_FLAG_SET and REGISTER_WRITE. -/

namespace Sys2Proof.Machine

/-! ### XLOC_REARM -/

/-- XLOC_REARM: a completed read of TILE_XLOC1, of any size that R401 allows. -/
def doXlocRearm (t : Nat) (s : State) : State := s.modTile t (fun x => { x with xloc := x.xloc.rearm s.beat.now })

/-- XLOC_REARM. -/
def execXlocRearm (t : TileId) (s : State) : Host.Outcome State Fault Refusal := .next (whenLive s (doXlocRearm t.val))

/-! ### WIN_FLAGB (R367) -/

/-- Whether [lo, hi) lies wholly in one host region of context c. -/
def State.inHostRegion (s : State) (c lo hi : Nat) : Bool :=
  (s.ctx c).regions.any (fun r => r.host && decide (r.gbase * granule ≤ lo) && decide (hi ≤ (r.gbase + r.gcnt) * granule))

/-- A value of WIN_FLAGB_n of function f whose VALID the device refuses. -/
def State.flagRefused (s : State) (f n v : Nat) : Bool :=
  let lo := s.winFlagA f n
  bits v 0 16 == 0 ||
  (bitOf v 18 && ((s.fnCtx f).isNone || s.tileCtx (bits v 19 7) != s.fnCtx f)) ||
  (bitOf v 34 && decide (bits v 35 6 < 8)) ||
  (bitOf v 17 && match s.fnCtx f with
    | some c => !s.inHostRegion c lo (lo + 64 * bits v 0 16)
    | none => true)

/-- Write WIN_FLAGB_n: a refused VALID stays 0, and the rest is written. -/
def State.setFlagB (s : State) (f n v : Nat) : State :=
  s.rwiSet (0x1800108 + 0x1000 * f + 0x10 * n) (if bitOf v 16 && s.flagRefused f n v then setBits v 16 1 0 else v)

/-- A function writes its own function registers; a PF those of its port's VFs too (R358). -/
def mayWriteFn (by_ f : Nat) : Bool := by_ == f || by_ % 8 == 0 && by_ / 8 == f / 8

/-- A posted write of a function reaches the device: the function can be reached, and its port has posted credits (R362). -/
def State.postReach (s : State) (f : Nat) : Bool := s.fnReach f && s.credits (f / 8)

/-- WIN_FLAG_SET: a 64-bit write of WIN_FLAGB_n of function f by function by_. -/
def doWinFlagSet (by_ f n v : Nat) (s : State) : State := if s.postReach by_ && mayWriteFn by_ f then s.setFlagB f n v else s

/-- WIN_FLAG_SET. -/
def execWinFlagSet (by_ : FnId) (f : FnId) (n : Fin 16) (v : Word) (s : State) : Host.Outcome State Fault Refusal :=
  .next (whenLive s (doWinFlagSet by_.val f.val n.val v.toNat))

/-! ### Writes of BAR0 -/

/-- A register's value after a write: a 32-bit write changes only the bits in its half (R402). -/
def mergeWrite (off size old v : Nat) : Nat :=
  if size = 8 then v % 2 ^ 64 else if off % 8 = 0 then setBits old 0 32 v else setBits old 32 32 v

/-- A host's write of CFG_REF_n; the maltster's of the same clk prevails over it (R415). -/
def State.setRef (s : State) (n v : Nat) : State :=
  if s.cfg.maltster.contains (0x100200 + 8 * n) then s else s.rwiSet (0x100200 + 8 * n) v

/-- A write of an RW-S register by a host: its shadow (R405). LNK_REMAP is the maltster's (R406). A write that reaches BEAT_CTL.PERIOD sets
the base period (R469, R470). -/
def State.hostShadow (s : State) (a off size v : Nat) : State :=
  if a = offLnkRemap then s else
  let w := mergeWrite off size (s.shadowNow a) v
  let s := s.putShadow a w
  if a = 0x100 ∧ off % 8 = 0 then { s with pwr := { s.pwr with base := bits w 0 16 } } else s

/-- A write of the register at PF offset a (a multiple of 8) by function f. -/
def State.regWrite (s : State) (f a off size v : Nat) : State :=
  if (s.rws a).isSome then s.hostShadow a off size v
  else if a = 0x100000 then doCfgStrobe (mergeWrite off size 0 v) s
  else if a = 0x100008 then doCfgStrobeAt (mergeWrite off size 0 v) false s
  else if 0x100200 ≤ a ∧ a < 0x100280 then s.setRef ((a - 0x100200) / 8) (mergeWrite off size (s.rwiNow a) v)
  else if 0x1800000 ≤ a ∧ a < 0x1810000 then
    let g := (a - 0x1800000) / 0x1000
    if !mayWriteFn f g then s
    else if 0x100 ≤ a % 0x1000 ∧ a % 0x1000 < 0x200 ∧ a % 16 = 8 then
      s.setFlagB g ((a % 0x1000 - 0x100) / 16) (mergeWrite off size (s.rwiNow a) v)
    else s.rwiSet a (mergeWrite off size (s.rwiNow a) v)
  else if 0x1820000 ≤ a ∧ a < 0x1830000 then
    let g := (a - 0x1820000) / 0x1000
    if mayWriteFn f g then s.rwiSet a (mergeWrite off size (s.rwiNow a) v) else s
  else s.rwiSet a (mergeWrite off size (s.rwiNow a) v)

/-- A write of BAR0. An access of another size or alignment is ignored and counted (R401). -/
def State.bar0Write (s : State) (f off size v : Nat) : State :=
  if !accessOk off size then { s with cfg := { s.cfg with badAcc := satAdd 0xFFFF s.cfg.badAcc 1 } }
  else match s.regOffset f off with
    | none => s
    | some a => s.regWrite f (a / 8 * 8) off size v

/-! ### Writes of BAR2 (R377, R378) -/

/-- MBX_POST.GO: a busy mailbox ignores the post and counts it; else the request is copied and accepted. A CMD that Table 16-4 lacks is
answered BAD_CMD, the first check of R384; the rest wait for their command's row. -/
def State.post (s : State) (f : Nat) : State :=
  let x := s.fn f
  if x.busy.isSome || x.posted.isSome then s.lostPost f
  else
    let len := ofBytes ((List.range 4).map (fun i => smGet 0 x.slot (4 + i)))
    let copy := (List.range (16 + min len 4080)).map (fun i => smGet 0 x.slot i)
    let hd := postHdr copy
    let s := s.accept f (BitVec.ofNat 16 (bits hd 16 16))
    if !cmdCodes.contains (bits hd 0 16) && s.serving then
      s.reply f { cmd := bits hd 0 16, seq := BitVec.ofNat 16 (bits hd 16 16), ctx := bits hd 64 8 } 0x0002 []
    else s.modFn f (fun x => { x with posted := some copy })

/-- A write of BAR2: the request slot takes its bytes, MBX_POST its GO, and nothing else is written. -/
def State.bar2Write (s : State) (f off size v : Nat) : State :=
  if off = 0x2000 then (if bitOf v 0 then s.post f else s)
  else s.modFn f (fun x => { x with slot := (List.range (min size 8)).foldl (fun m i =>
    if off + i < 0x1000 then smSet 0 m (off + i) (BitVec.ofNat 8 (v / 2 ^ (8 * i))) else m) x.slot })

/-! ### Configuration space -/

/-- A write of a function's configuration space, which the row carries as BAR number 7: at 4 the Command register, whose bit 2 is Bus
Master Enable, and at 8 the BAR4 size of Resizable BAR in bits [13:8], 2^n MiB (PCIe's own layout; PRESUMED, log entry 37). -/
def State.cfgSpaceWrite (s : State) (f off v : Nat) : State :=
  if off = 4 then s.modFn f (fun x => { x with bme := bitOf v 2 })
  else if off = 8 ∧ 10 ≤ bits v 8 6 ∧ bits v 8 6 ≤ 19 then s.modFn f (fun x => { x with winLog2 := bits v 8 6 - 10 })
  else s

/-- REGISTER_WRITE: `size` in bytes. BAR4 is the window, which WINDOW_WRITE carries. -/
def doRegisterWrite (f bar off size v : Nat) (s : State) : State :=
  if !s.postReach f then s
  else if bar = 0 then s.bar0Write f off size v
  else if bar = 2 then s.bar2Write f off size v
  else if bar = 7 then s.cfgSpaceWrite f off v
  else s

/-- REGISTER_WRITE. -/
def execRegisterWrite (f : FnId) (bar : Nat) (off : Nat) (size : Nat) (v : Word) (s : State) : Host.Outcome State Fault Refusal :=
  .next (whenLive s (doRegisterWrite f.val bar off size v.toNat))

end Sys2Proof.Machine
end

