-- ==== Sys2Proof/Machine/Dispatch.lean ====
section
/-! DEFINITION. The meaning of each command: one arm for each row of the table, each one direct call. -/

namespace Sys2Proof.Machine

/-- The command's effect on everything but the queue. -/
def exec (i : Instr) (s : State) : Host.Outcome State Fault Refusal :=
  match i with
  | .nop t st w => Sys2Proof.Machine.execNop t st w s
  | .jump t st w => Sys2Proof.Machine.execJump t st w s
  | .call t st w => Sys2Proof.Machine.execCall t st w s
  | .ret t st w => Sys2Proof.Machine.execRet t st w s
  | .loop t st w => Sys2Proof.Machine.execLoop t st w s
  | .prefetch t st w => Sys2Proof.Machine.execPrefetch t st w s
  | .waitBeat t st w => Sys2Proof.Machine.execWaitBeat t st w s
  | .commitPoint t st w => Sys2Proof.Machine.execCommitPoint t st w s
  | .semSet t st w => Sys2Proof.Machine.execSemSet t st w s
  | .semSignal t st w => Sys2Proof.Machine.execSemSignal t st w s
  | .semWait t st w => Sys2Proof.Machine.execSemWait t st w s
  | .semSignalRemote t st w => Sys2Proof.Machine.execSemSignalRemote t st w s
  | .dmaRead t st w => Sys2Proof.Machine.execDmaRead t st w s
  | .dmaWrite t st w => Sys2Proof.Machine.execDmaWrite t st w s
  | .dmaCopy t st w => Sys2Proof.Machine.execDmaCopy t st w s
  | .dmaFill t st w => Sys2Proof.Machine.execDmaFill t st w s
  | .dmaWait t st w => Sys2Proof.Machine.execDmaWait t st w s
  | .mm t st w => Sys2Proof.Machine.execMm t st w s
  | .mmOvw t st w => Sys2Proof.Machine.execMmOvw t st w s
  | .mmDrain t st w => Sys2Proof.Machine.execMmDrain t st w s
  | .accZero t st w => Sys2Proof.Machine.execAccZero t st w s
  | .chainRun t st w => Sys2Proof.Machine.execChainRun t st w s
  | .chainRunAcc t st w => Sys2Proof.Machine.execChainRunAcc t st w s
  | .linkSend t st w => Sys2Proof.Machine.execLinkSend t st w s
  | .recvPost t st w => Sys2Proof.Machine.execRecvPost t st w s
  | .linkWait t st w => Sys2Proof.Machine.execLinkWait t st w s
  | .scalarReduce t st w => Sys2Proof.Machine.execScalarReduce t st w s
  | .kilnUpdate t st w => Sys2Proof.Machine.execKilnUpdate t st w s
  | .kilnWait t st w => Sys2Proof.Machine.execKilnWait t st w s
  | .caskPut t st w => Sys2Proof.Machine.execCaskPut t st w s
  | .caskGet t st w => Sys2Proof.Machine.execCaskGet t st w s
  | .caskRelease t st w => Sys2Proof.Machine.execCaskRelease t st w s
  | .insnComplete t st seq => Sys2Proof.Machine.execInsnComplete t st seq s
  | .icacheFill t st => Sys2Proof.Machine.execIcacheFill t st s
  | .remoteSignalApply t => Sys2Proof.Machine.execRemoteSignalApply t s
  | .tick => Sys2Proof.Machine.execTick s
  | .markerReceive p image => Sys2Proof.Machine.execMarkerReceive p image s
  | .verdictForm => Sys2Proof.Machine.execVerdictForm s
  | .verdictReceive p image => Sys2Proof.Machine.execVerdictReceive p image s
  | .verdictReply v => Sys2Proof.Machine.execVerdictReply v s
  | .verdictTimeout => Sys2Proof.Machine.execVerdictTimeout s
  | .stepOpen c => Sys2Proof.Machine.execStepOpen c s
  | .stepCommit c => Sys2Proof.Machine.execStepCommit c s
  | .abortTick x => Sys2Proof.Machine.execAbortTick x s
  | .weightRebuild c => Sys2Proof.Machine.execWeightRebuild c s
  | .holdover => Sys2Proof.Machine.execHoldover s
  | .holdoverClear => Sys2Proof.Machine.execHoldoverClear s
  | .beatInPulse clk => Sys2Proof.Machine.execBeatInPulse clk s
  | .beatInErr => Sys2Proof.Machine.execBeatInErr s
  | .arbDraw a d => Sys2Proof.Machine.execArbDraw a d s
  | .arbPreempt p present => Sys2Proof.Machine.execArbPreempt p present s
  | .caskPutRetry t st => Sys2Proof.Machine.execCaskPutRetry t st s
  | .caskFull t st => Sys2Proof.Machine.execCaskFull t st s
  | .transferComplete id host found => Sys2Proof.Machine.execTransferComplete id host found s
  | .ledgerContribution c slice lid => Sys2Proof.Machine.execLedgerContribution c slice lid s
  | .kilnStart id => Sys2Proof.Machine.execKilnStart id s
  | .conditioning id => Sys2Proof.Machine.execConditioning id s
  | .deferredRun id => Sys2Proof.Machine.execDeferredRun id s
  | .deferRecordTake c => Sys2Proof.Machine.execDeferRecordTake c s
  | .updateRerun id => Sys2Proof.Machine.execUpdateRerun id s
  | .ledgerTimeout c => Sys2Proof.Machine.execLedgerTimeout c s
  | .shadowUpdate c step desc => Sys2Proof.Machine.execShadowUpdate c step desc s
  | .mirrorSum c slice step sum poison => Sys2Proof.Machine.execMirrorSum c slice step sum poison s
  | .freshFillDone lgn => Sys2Proof.Machine.execFreshFillDone lgn s
  | .moveStart => Sys2Proof.Machine.execMoveStart s
  | .moveComplete lgn => Sys2Proof.Machine.execMoveComplete lgn s
  | .heatDecay => Sys2Proof.Machine.execHeatDecay s
  | .tagGrant t st seq => Sys2Proof.Machine.execTagGrant t st seq s
  | .regionRelease c ca => Sys2Proof.Machine.execRegionRelease c ca s
  | .patrolScrub tier found => Sys2Proof.Machine.execPatrolScrub tier found s
  | .windowWrite f off data rid b found => Sys2Proof.Machine.execWindowWrite f off data rid b found s
  | .windowRead f off r => Sys2Proof.Machine.execWindowRead f off r s
  | .flagVisible f n => Sys2Proof.Machine.execFlagVisible f n s
  | .hostCompletionTimeout id => Sys2Proof.Machine.execHostCompletionTimeout id s
  | .cellarRead frame unit out => Sys2Proof.Machine.execCellarRead frame unit out s
  | .cellarWriteDone frame => Sys2Proof.Machine.execCellarWriteDone frame s
  | .cellarRefresh frame => Sys2Proof.Machine.execCellarRefresh frame s
  | .cellarPatrol reads => Sys2Proof.Machine.execCellarPatrol reads s
  | .celDie ch die => Sys2Proof.Machine.execCelDie ch die s
  | .cellarRebuildDone => Sys2Proof.Machine.execCellarRebuildDone s
  | .compaction => Sys2Proof.Machine.execCompaction s
  | .wearLevel => Sys2Proof.Machine.execWearLevel s
  | .programFail sb l => Sys2Proof.Machine.execProgramFail sb l s
  | .eraseFail sb ch => Sys2Proof.Machine.execEraseFail sb ch s
  | .bridgeRetrain q => Sys2Proof.Machine.execBridgeRetrain q s
  | .bridgeTrainDone q ok => Sys2Proof.Machine.execBridgeTrainDone q ok s
  | .flitReceive p f => Sys2Proof.Machine.execFlitReceive p f s
  | .linkNak p lseq => Sys2Proof.Machine.execLinkNak p lseq s
  | .scalarReceive p c tag m => Sys2Proof.Machine.execScalarReceive p c tag m s
  | .laneDegraded p lanesOk => Sys2Proof.Machine.execLaneDegraded p lanesOk s
  | .portDown p => Sys2Proof.Machine.execPortDown p s
  | .peerFailed l => Sys2Proof.Machine.execPeerFailed l s
  | .remapApply => Sys2Proof.Machine.execRemapApply s
  | .takeoverStreamDone sel => Sys2Proof.Machine.execTakeoverStreamDone sel s
  | .takeoverDone => Sys2Proof.Machine.execTakeoverDone s
  | .spareLost => Sys2Proof.Machine.execSpareLost s
  | .stretchReport l k => Sys2Proof.Machine.execStretchReport l k s
  | .hostPortTrained x rate width flit => Sys2Proof.Machine.execHostPortTrained x rate width flit s
  | .portLost x => Sys2Proof.Machine.execPortLost x s
  | .perst x => Sys2Proof.Machine.execPerst x s
  | .functionLevelReset f => Sys2Proof.Machine.execFunctionLevelReset f s
  | .modRst us => Sys2Proof.Machine.execModRst us s
  | .hello h => Sys2Proof.Machine.execHello h s
  | .ctxOpen h r => Sys2Proof.Machine.execCtxOpen h r s
  | .ctxClose h => Sys2Proof.Machine.execCtxClose h s
  | .ctxQuotaSet h r => Sys2Proof.Machine.execCtxQuotaSet h r s
  | .ctxAdopt h => Sys2Proof.Machine.execCtxAdopt h s
  | .memMap h r => Sys2Proof.Machine.execMemMap h r s
  | .memUnmap h ca => Sys2Proof.Machine.execMemUnmap h ca s
  | .memPin h ca gcnt tier => Sys2Proof.Machine.execMemPin h ca gcnt tier s
  | .memUnpin h ca gcnt tier => Sys2Proof.Machine.execMemUnpin h ca gcnt tier s
  | .memHint h ca gcnt tier => Sys2Proof.Machine.execMemHint h ca gcnt tier s
  | .progLoad h ca len => Sys2Proof.Machine.execProgLoad h ca len s
  | .progUnload h => Sys2Proof.Machine.execProgUnload h s
  | .stepArm h stepNo count => Sys2Proof.Machine.execStepArm h stepNo count s
  | .stepRun h => Sys2Proof.Machine.execStepRun h s
  | .stepAbort h => Sys2Proof.Machine.execStepAbort h s
  | .stepStatus h => Sys2Proof.Machine.execStepStatus h s
  | .tableBuild h tbl cfmt clr ca len => Sys2Proof.Machine.execTableBuild h tbl cfmt clr ca len s
  | .tableLoad h tbl image => Sys2Proof.Machine.execTableLoad h tbl image s
  | .ckptSeal h ckid dest dstCa => Sys2Proof.Machine.execCkptSeal h ckid dest dstCa s
  | .ckptDelete h ckid => Sys2Proof.Machine.execCkptDelete h ckid s
  | .ckptRestore h ckid src flid srcCa image => Sys2Proof.Machine.execCkptRestore h ckid src flid srcCa image s
  | .stateExport h dstCa => Sys2Proof.Machine.execStateExport h dstCa s
  | .boardJoin h slotId masterCap boardId epoch peerAuth => Sys2Proof.Machine.execBoardJoin h slotId masterCap boardId epoch peerAuth s
  | .boardRemap h tick slots spare => Sys2Proof.Machine.execBoardRemap h tick slots spare s
  | .spareTakeover h flid => Sys2Proof.Machine.execSpareTakeover h flid s
  | .mirrorSet h on mcmpEn mcmp delta1 delta2 => Sys2Proof.Machine.execMirrorSet h on mcmpEn mcmp delta1 delta2 s
  | .cfgStage h r parsed => Sys2Proof.Machine.execCfgStage h r parsed s
  | .cfgCommit h => Sys2Proof.Machine.execCfgCommit h s
  | .cfgRevert h => Sys2Proof.Machine.execCfgRevert h s
  | .resetFunc h => Sys2Proof.Machine.execResetFunc h s
  | .resetDevice h => Sys2Proof.Machine.execResetDevice h s
  | .attestQuote h nonce => Sys2Proof.Machine.execAttestQuote h nonce s
  | .identityGet h offset => Sys2Proof.Machine.execIdentityGet h offset s
  | .eventRead h from_ max => Sys2Proof.Machine.execEventRead h from_ max s
  | .telemetryRead h => Sys2Proof.Machine.execTelemetryRead h s
  | .cmdDone f => Sys2Proof.Machine.execCmdDone f s
  | .cfgStrobe v => Sys2Proof.Machine.execCfgStrobe v s
  | .cfgStrobeAt v maltster => Sys2Proof.Machine.execCfgStrobeAt v maltster s
  | .strobeAtApply => Sys2Proof.Machine.execStrobeAtApply s
  | .cfgIntegCompare => Sys2Proof.Machine.execCfgIntegCompare s
  | .xlocRearm t => Sys2Proof.Machine.execXlocRearm t s
  | .winFlagSet by_ f n v => Sys2Proof.Machine.execWinFlagSet by_ f n v s
  | .registerWrite f bar off size v => Sys2Proof.Machine.execRegisterWrite f bar off size v s
  | .watchdog => Sys2Proof.Machine.execWatchdog s
  | .maltsterUe => Sys2Proof.Machine.execMaltsterUe s
  | .levelL3 cause => Sys2Proof.Machine.execLevelL3 cause s
  | .l4Request code => Sys2Proof.Machine.execL4Request code s
  | .powerOn b => Sys2Proof.Machine.execPowerOn b s
  | .unitWake u => Sys2Proof.Machine.execUnitWake u s
  | .unitAwake u => Sys2Proof.Machine.execUnitAwake u s
  | .pendingEnable u => Sys2Proof.Machine.execPendingEnable u s
  | .probationEnd => Sys2Proof.Machine.execProbationEnd s
  | .thermalEval meanW tj byPower => Sys2Proof.Machine.execThermalEval meanW tj byPower s
  | .vinRange mv => Sys2Proof.Machine.execVinRange mv s
  | .railFault rail => Sys2Proof.Machine.execRailFault rail s
  | .powerPeak w => Sys2Proof.Machine.execPowerPeak w s
  | .thermTrip => Sys2Proof.Machine.execThermTrip s
  | .thermTripTimeout => Sys2Proof.Machine.execThermTripTimeout s
  | .coolantHigh => Sys2Proof.Machine.execCoolantHigh s
  | .clkLoss => Sys2Proof.Machine.execClkLoss s
  | .mctpMessage seq ctx keep last m parsed => Sys2Proof.Machine.execMctpMessage seq ctx keep last m parsed s
  | .testEntry => Sys2Proof.Machine.execTestEntry s
  | .linkTrainingDone p r => Sys2Proof.Machine.execLinkTrainingDone p r s
  | .notPosted p tag => Sys2Proof.Machine.execNotPosted p tag s
  | .verdictRequest p tick => Sys2Proof.Machine.execVerdictRequest p tick s
  | .quadSelfCheckFault q => Sys2Proof.Machine.execQuadSelfCheckFault q s
  | .phyFault u => Sys2Proof.Machine.execPhyFault u s
  | .thermTripRelease tj => Sys2Proof.Machine.execThermTripRelease tj s
  | .modRstRelease => Sys2Proof.Machine.execModRstRelease s
  | .perstRelease x => Sys2Proof.Machine.execPerstRelease x s
  | .vfEnable x enable n => Sys2Proof.Machine.execVfEnable x enable n s

end Sys2Proof.Machine
end

