-- ==== Sys2Proof/Safety.lean ====
section
/-! DEFINITION. What holds of every state that the part can be in, and when an instruction is admitted: the terms in which the statements
speak of a safe run. -/

namespace Sys2Proof.Machine

/-- A state is sound: its memory is in the one canonical form, the hub's epoch is not 0, which it never takes (R437), and the bytes noted as
changed in this clk lie in scratch (R51). -/
structure State.Sound (s : State) : Prop where
  mem : Memory.wf s.mem = true
  epoch : s.evt.hubEpoch ≠ 0
  old : ∀ o ∈ s.old, o.key < 2 ^ 32

/-- The command c runs from s to t. -/
def Runs (c : Instr) (s t : State) : Prop := exec c s = .next t

/-- A step is safe where it is taken from a sound state and ends in one. -/
def SafeStep (s : State) : Prop := s.Sound → ∃ t, step s = .next t ∧ t.Sound

/-! ### What a command may change -/

/-- The fields of State. -/
inductive Field where
  | variant | beat | cfg | rwi | rwiNew | old | hub | arbs | tiles | ctxs | fns | hports | units | mem | poison | hdrs | hdrPoison | place | mig | ras
  | xfers | upds | contribs | rsigs | heldWrites | ports | board | cel | evt | boot | pwr | outbox | pending
deriving DecidableEq, Repr

/-- From s to t no field changed but those of the list F. -/
structure Chg (F : List Field) (s t : State) : Prop where
  variant : Field.variant ∉ F → t.variant = s.variant
  beat : Field.beat ∉ F → t.beat = s.beat
  cfg : Field.cfg ∉ F → t.cfg = s.cfg
  rwi : Field.rwi ∉ F → t.rwi = s.rwi
  rwiNew : Field.rwiNew ∉ F → t.rwiNew = s.rwiNew
  old : Field.old ∉ F → t.old = s.old
  hub : Field.hub ∉ F → t.hub = s.hub
  arbs : Field.arbs ∉ F → t.arbs = s.arbs
  tiles : Field.tiles ∉ F → t.tiles = s.tiles
  ctxs : Field.ctxs ∉ F → t.ctxs = s.ctxs
  fns : Field.fns ∉ F → t.fns = s.fns
  hports : Field.hports ∉ F → t.hports = s.hports
  units : Field.units ∉ F → t.units = s.units
  mem : Field.mem ∉ F → t.mem = s.mem
  poison : Field.poison ∉ F → t.poison = s.poison
  hdrs : Field.hdrs ∉ F → t.hdrs = s.hdrs
  hdrPoison : Field.hdrPoison ∉ F → t.hdrPoison = s.hdrPoison
  place : Field.place ∉ F → t.place = s.place
  mig : Field.mig ∉ F → t.mig = s.mig
  ras : Field.ras ∉ F → t.ras = s.ras
  xfers : Field.xfers ∉ F → t.xfers = s.xfers
  upds : Field.upds ∉ F → t.upds = s.upds
  contribs : Field.contribs ∉ F → t.contribs = s.contribs
  rsigs : Field.rsigs ∉ F → t.rsigs = s.rsigs
  heldWrites : Field.heldWrites ∉ F → t.heldWrites = s.heldWrites
  ports : Field.ports ∉ F → t.ports = s.ports
  board : Field.board ∉ F → t.board = s.board
  cel : Field.cel ∉ F → t.cel = s.cel
  evt : Field.evt ∉ F → t.evt = s.evt
  boot : Field.boot ∉ F → t.boot = s.boot
  pwr : Field.pwr ∉ F → t.pwr = s.pwr
  outbox : Field.outbox ∉ F → t.outbox = s.outbox
  pending : Field.pending ∉ F → t.pending = s.pending

/-- The command c changes nothing but fields of the list F. -/
def Only (F : List Field) (c : Instr) : Prop := ∀ s t, exec c s = .next t → Chg F s t

/-- The rows of the table that are instructions of a tile's stream, with what the instruction's word must hold (Tables 03-4 and 03-5). -/
def instructionRows (t : TileId) (st : Stream) (w : Insn) : List (Instr × OpInfo) :=
  [(.nop t st w, opNop), (.jump t st w, opJump), (.call t st w, opCall), (.ret t st w, opRet), (.loop t st w, opLoop),
   (.prefetch t st w, opPrefetch), (.waitBeat t st w, opWaitBeat), (.commitPoint t st w, opCommitPoint), (.semSet t st w, opSemSet),
   (.semSignal t st w, opSemSignal), (.semWait t st w, opSemWait), (.semSignalRemote t st w, opSemRemote), (.dmaRead t st w, opDmaRead),
   (.dmaWrite t st w, opDmaWrite), (.dmaCopy t st w, opDmaCopy), (.dmaFill t st w, opDmaFill), (.dmaWait t st w, opDmaWait)] ++
  [(.mm t st w, opMm), (.mmOvw t st w, opMmOvw), (.mmDrain t st w, opMmDrain), (.accZero t st w, opAccZero), (.chainRun t st w, opChainRun),
   (.chainRunAcc t st w, opChainRunAcc), (.linkSend t st w, opLinkSend), (.recvPost t st w, opRecvPost), (.linkWait t st w, opLinkWait),
   (.scalarReduce t st w, opScalarReduce), (.kilnUpdate t st w, opKilnUpdate), (.kilnWait t st w, opKilnWait), (.caskPut t st w, opCaskPut),
   (.caskGet t st w, opCaskGet), (.caskRelease t st w, opCaskRelease)]

/-- The state that the work of an instruction admitted in s reads: its stream has taken its sequence number, and scratch reads as it stood
before this clk's writes (R51). -/
def State.atWork (s : State) (t : Nat) (st : Stream) : State :=
  (s.modSeq t st (fun q => { q with seqNo := q.seqNo + 1, admitClk := some s.beat.now, held := false, waiting := false })).asBefore

/-- Every byte of memory reads in u as it reads in s. -/
def SameMem (s u : State) : Prop := ∀ a, memRead u.mem a = memRead s.mem a

/-- From s to u memory became m where the work of an instruction or transfer, which reads scratch as it stood before this clk's writes (R51),
changed it; every other byte reads as it did. -/
def Landed (s u : State) (m : List Host.Cell) : Prop :=
  ∀ a, memRead u.mem a = if memRead m a = memRead s.memBefore a then memRead s.mem a else memRead m a

/-! ### Where an instruction is admitted -/

/-- The stream st of tile t, which context c owns, reaches an instruction w of the kind k in this clk: the part is live, the stream runs
and waits for nothing (R26, R31, R33, R67), PC is below PLEN, its line is in the instruction cache and unpoisoned (R58, R85), the word's
CLASS and OP are the operation's and Table 03-5 lists them (R71, R73), the word is legal (R72, R85), LAST stands in no loop and no call (R62), and the operation's own checks `pre` pass. -/
structure CanReach (s : State) (t : Nat) (st : Stream) (k : OpInfo) (w : Insn) (pre : Seq → Option Nat) (c : Nat) : Prop where
  live : s.live = true
  ctx : s.tileCtx t = some c
  free : (s.seq t st).blocked s.beat.now = false
  quar : (s.unit (16 + t)).quar = false
  inside : (s.seq t st).pc < (s.seq t st).plen
  line : (s.seq t st).icache.contains ((s.seq t st).lineOf (s.seq t st).pc) = true
  clean : (s.seq t st).icPoison.contains (16 * (s.seq t st).pbase + (s.seq t st).pc) = false
  listed : opListed w = true
  named : k.isOf w = true
  legal : illegalWord k st w = false
  loops : k.desc = true → lsel w ≤ (s.seq t st).loops.length
  last : w.last = true → (s.seq t st).loops = [] ∧ (s.seq t st).calls = []
  own : pre (s.seq t st) = none

/-- The instruction is admitted in this clk: it is reached, ORD finds nothing outstanding (R61), at most 15 are outstanding (R59), no other
was admitted in this clk, and its BUDGET fits what is left of the beat (R29). -/
structure CanIssue (s : State) (t : Nat) (st : Stream) (k : OpInfo) (w : Insn) (pre : Seq → Option Nat) (c : Nat) : Prop
    extends CanReach s t st k w pre c where
  ord : w.ord = true → (s.seq t st).inflight = []
  room : (s.seq t st).inflight.length < 16
  admitted : (s.seq t st).admitClk ≠ some s.beat.now
  budget : s.admitTest w.budget.toNat = .ok

/-- The sequencer at the admission of an instruction: its sequence number is taken (R80) and the clk is used (R29). -/
def Seq.admitted (q : Seq) (now : Nat) : Seq :=
  { q with seqNo := q.seqNo + 1, admitClk := some now, held := false, waiting := false }

/-- The entry of an instruction in its stream's list of outstanding ones, as it is made at its admission. -/
def State.newEntry (s : State) (t : Nat) (st : Stream) (w : Insn) : InFlight := (s.seq t st).entry w s.beat.now

/-- What a descriptor instruction is admitted with: the state, the descriptor's offset o and its bits d (R72, R78), which it reads as they
stood before this clk's writes (R51). -/
structure CanIssueDesc (s : State) (t : Nat) (st : Stream) (k : OpInfo) (w : Insn) (pre : Seq → Option Nat) (ops : List Nat) (c o d : Nat) : Prop
    extends CanIssue s t st k w pre c where
  desc : s.asBefore.readDesc t w (s.seq t st).loops k.cls ops = .ok (o, d)

/-- From s to u the stream st of tile t took the next sequence number (R80) and went on with the program counter, loop stack and call
stack given, after the loops that end at its old program counter closed (R62). -/
structure WentOn (s u : State) (t : Nat) (st : Stream) (next : Nat) (stack : List LoopLevel) (rets : List Nat) : Prop where
  seqNo : (u.seq t st).seqNo = (s.seq t st).seqNo + 1
  pc : (u.seq t st).pc = (closeLoops (s.seq t st).pc next stack).1
  loops : (u.seq t st).loops = (closeLoops (s.seq t st).pc next stack).2
  calls : (u.seq t st).calls = rets

/-- From s to u the stream went on to the next instruction. -/
def WentNext (s u : State) (t : Nat) (st : Stream) : Prop :=
  WentOn s u t st ((s.seq t st).pc + 1) (s.seq t st).loops (s.seq t st).calls

/-- The entry of a descriptor instruction: the descriptor's offset o and its bits d with it. -/
def State.descEntry (s : State) (t : Nat) (st : Stream) (w : Insn) (o d : Nat) : InFlight :=
  { s.newEntry t st w with desc := d, off := o }

/-- From s to u an instruction of the stream st of tile t was admitted: the stream went on to the next one with the entry x outstanding
(R59), and no other tile changed. -/
structure Admitted (s u : State) (t : Nat) (st : Stream) (x : InFlight) : Prop where
  on : WentNext s u t st
  entry : (u.seq t st).inflight = (s.seq t st).inflight ++ [x]
  tiles : ∀ t', t' ≠ t → u.tile t' = s.tile t'

/-- From s to u an instruction of the stream st of tile t was admitted: the stream went on to the next one, the entry x is the last of the
outstanding ones, and no other tile changed. -/
structure Entered (s u : State) (t : Nat) (st : Stream) (x : InFlight) : Prop where
  on : WentNext s u t st
  entry : (u.seq t st).inflight.getLast? = some x
  count : (u.seq t st).inflight.length = (s.seq t st).inflight.length + 1
  tiles : ∀ t', t' ≠ t → u.tile t' = s.tile t'

/-- From s to u no element of tile t's accumulator banks, no count and no exception locator of it changed. -/
structure EngineKept (s u : State) (t : Nat) : Prop where
  acc0 : (u.tile t).acc0 = (s.tile t).acc0
  acc1 : (u.tile t).acc1 = (s.tile t).acc1
  xloc : (u.tile t).xloc = (s.tile t).xloc
  cask : (u.tile t).cask = (s.tile t).cask

/-- From s to u the program fault code stopped the stream (R86): it is faulted with that code, at the program counter and with the stacks
that it had. -/
structure Stopped (s u : State) (t : Nat) (st : Stream) (code : Nat) : Prop where
  faulted : (u.seq t st).faulted = true
  code : (u.seq t st).faultCode = BitVec.ofNat 16 code
  pc : (u.seq t st).pc = (s.seq t st).pc
  loops : (u.seq t st).loops = (s.seq t st).loops
  calls : (u.seq t st).calls = (s.seq t st).calls
  inflight : (u.seq t st).inflight = (s.seq t st).inflight

/-- From s to u a tracked transfer of the kind given was registered under the descriptor's offset (R73, R74). It has its tag (`tagged`), or
its instruction waits for one: where no tag is free for its context (R261); it does not wait where more shared tags are free than transfers
wait for, its number is new and no earlier transfer of its stream waits (R59, R260). Memory does not change. -/
structure Sent (s u : State) (t : Nat) (st : Stream) (w : Insn) (c o d : Nat) (kind : XKind) (tagged : Bool) : Prop where
  admitted : Admitted s u t st
    { s.descEntry t st w o d with wait := if tagged = true then .none else .tag s.mig.nextId }
  engine : EngineKept s u t
  xfer : ∃ f ∈ u.xfers, f.id = s.mig.nextId ∧ f.tile = t ∧ f.stream = streamNo st ∧ f.ctx = c ∧ f.step = (s.seq t st).stepNo ∧
    f.off = o ∧ f.kind = kind ∧ f.desc = d ∧ f.tag = tagged ∧ f.done = false ∧ f.consumed = false
  none : s.tagFree c = false → tagged = false
  some : s.tagFree c = true → s.tagWaiters < s.sharedFree →
    (∀ g ∈ s.xfers, g.id ≠ s.mig.nextId ∧ ¬ (g.waitsTag = true ∧ g.tile = t ∧ g.stream = streamNo st)) → tagged = true
  next : u.mig.nextId = s.mig.nextId + 1
  mem : SameMem s u

/-- From s to u the stream st of tile t, which context c owns, passed LAST of its step (R26, R64): where the next step is open it stands at
program counter 0 of that step and runs, else it has passed its commit point and stands still. -/
def PassedLast (s u : State) (t : Nat) (st : Stream) (c : Nat) : Prop :=
  let k := (s.ctx c).step
  if k.opened = true ∧ k.stepNo = (s.seq t st).stepNo + 1 then
    (u.seq t st).pc = 0 ∧ (u.seq t st).stepNo = k.stepNo ∧ (u.seq t st).run = true ∧ (u.seq t st).lastPassed = false
  else (u.seq t st).run = false ∧ (u.seq t st).lastPassed = true ∧ (u.seq t st).committed = true

/-- The ME and the VC of tile t are free: no instruction of theirs is outstanding, none holds or waits for a bank, and no grant stands (R65,
R102, R103). -/
structure UnitsFree (s : State) (t : Nat) : Prop where
  idle : ∀ q, ∀ x ∈ (s.seq t q).inflight, x.cls ≠ 3 ∧ x.cls ≠ 4 ∧ x.bank = none ∧ ∀ b, x.wait ≠ .bank b
  me : (s.arb (16 + 3 * t)).grant = none
  vc : (s.arb (16 + 3 * t + 1)).grant = none

/-- Tile t has no instruction outstanding that needs the ME or the VC, or a bank, but the one of stream st with sequence number n. -/
def OnlyUnitUser (s : State) (t : Nat) (st : Stream) (n : Nat) : Prop :=
  ∀ q, ∀ x ∈ (s.seq t q).inflight, q = st ∧ x.seq = n ∨ x.cls ≠ 3 ∧ x.cls ≠ 4 ∧ x.bank = none ∧ ∀ b, x.wait ≠ .bank b

/-- From s to u the next event was logged: it has the code given and the number that follows the one before (R422, R423). -/
def Logged (s u : State) (code : Nat) : Prop :=
  ∃ e, u.evt.log.head? = some e ∧ e.code = BitVec.ofNat 16 code ∧ e.seq = s.evt.next ∧ u.evt.next = s.evt.next + 1

/-- From s to u the record of instruction x of stream st of tile t was written where REC is set (R80-R82): 32 bytes in its stream's ring;
every other byte of memory reads as it did. -/
def Recorded (s u : State) (t : Nat) (st : Stream) (x : InFlight) : Prop :=
  ∀ a, memRead u.mem a = memRead (if x.rcd = true then
      memWriteList s.mem (recordKey t (s.seq t st) x.seq) (toBytes 32 (recordBits st (s.seq t st).crlog2 (s.beat.now - x.clk) x))
    else s.mem) a

/-- From s to u instruction x of stream st of tile t completed (R60): it is no longer outstanding, its counts joined the tile's counters
(R133), and its record was written. -/
structure Completed (s u : State) (t : Nat) (st : Stream) (x : InFlight) : Prop where
  inflight : (u.seq t st).inflight = (s.seq t st).inflight.filter (fun y => y.seq != x.seq || y.step != x.step)
  inv : (u.tile t).invCnt = min (2 ^ 48 - 1) ((s.tile t).invCnt + x.counts.inv)
  sat : (u.tile t).satCnt = min (2 ^ 48 - 1) ((s.tile t).satCnt + x.counts.sat)
  flush : (u.tile t).flushCnt = min (2 ^ 48 - 1) ((s.tile t).flushCnt + x.counts.flush)
  ovf : (u.tile t).ovfCnt = min (2 ^ 48 - 1) ((s.tile t).ovfCnt + x.counts.ovf)
  cmp : (u.tile t).cmpCnt = min (2 ^ 48 - 1) ((s.tile t).cmpCnt + x.counts.cmp)

/-- From s to b nothing changed but the HEAT of granules, the queue of moves (R252), and fields of the list F. -/
structure Heated (F : List Field) (s b : State) : Prop where
  rest : Chg (.place :: .mig :: F) s b
  pent : ∀ l, b.pent l = { s.pent l with heat := (b.pent l).heat }

/-! ### Links -/

/-- From s to u one flit was handed to port p (R317, R318): it has the header h with the port's next LSEQ and the payload, its CRC-32C covers
both, and it is kept for a replay and sent. -/
structure FlitSent (s u : State) (p : Nat) (h : FlitHdr) (payload : List Byte) (note : Carried) : Prop where
  out : u.outbox = s.outbox ++ [.flit p (mkFlit { h with lseq := (s.port p).txSeq } payload note)]
  seq : (u.port p).txSeq = ((s.port p).txSeq + 1) % 4096
  kept : (u.port p).replay.getLast? = some (mkFlit { h with lseq := (s.port p).txSeq } payload note)

/-! ### Mailbox commands -/

/-- What Table 16-4 gives the row of a mailbox command: its request header, and its CMD, request LEN, issuer, step rule, whether it runs
detached, and whether R383 refuses it while a detached command of the context runs. -/
def mailboxRow : Instr → Option (ReqHdr × CmdInfo)
  | .hello h => some (h, ⟨0x0001, 8, .any, .none, false, false⟩)
  | .ctxOpen h _ => some (h, ⟨0x0010, 24, .free, .none, false, false⟩)
  | .ctxClose h => some (h, ⟨0x0011, 0, .ownPf, .idleForce, false, false⟩)
  | .ctxQuotaSet h _ => some (h, ⟨0x0012, 48, .own, .none, true, true⟩)
  | .ctxAdopt h => some (h, ⟨0x0013, 0, .free, .none, false, false⟩)
  | .memMap h r => some (h, ⟨0x0020, if r.host = true then 32 + 8 * r.gcnt else 24, .own, .none, false, false⟩)
  | .memUnmap h _ => some (h, ⟨0x0021, 8, .own, .none, false, true⟩)
  | .memPin h _ _ _ => some (h, ⟨0x0022, 16, .own, .none, true, false⟩)
  | .memUnpin h _ _ _ => some (h, ⟨0x0022, 16, .own, .none, false, false⟩)
  | .memHint h _ _ _ => some (h, ⟨0x0023, 16, .own, .none, false, false⟩)
  | .progLoad h _ _ => some (h, ⟨0x0030, 16, .own, .idleNoRun, false, false⟩)
  | .progUnload h => some (h, ⟨0x0031, 0, .own, .idleNoRun, false, false⟩)
  | .stepArm h _ _ => some (h, ⟨0x0040, 16, .own, .idleNoRun, false, false⟩)
  | .stepRun h => some (h, ⟨0x0041, 0, .own, .none, false, true⟩)
  | .stepAbort h => some (h, ⟨0x0042, 0, .own, .none, false, false⟩)
  | .stepStatus h => some (h, ⟨0x0043, 0, .own, .none, false, false⟩)
  | .tableBuild h _ _ _ _ _ => some (h, ⟨0x0050, 24, .own, .none, false, false⟩)
  | .tableLoad h _ _ => some (h, ⟨0x0051, 144, .own, .none, false, false⟩)
  | .ckptSeal h _ _ _ =>
    some (if h.del = true then (h, ⟨0x0060, 24, .own, .idle, false, true⟩) else (h, ⟨0x0060, 24, .own, .idle, true, true⟩))
  | .ckptDelete h _ => some ({ h with del := true }, ⟨0x0060, 24, .own, .idle, false, true⟩)
  | .ckptRestore h _ _ _ _ _ => some (h, ⟨0x0061, 24, .own, .idleNoRun, true, true⟩)
  | .stateExport h _ => some (h, ⟨0x0062, 8, .own, .idle, true, true⟩)
  | .boardJoin h _ _ _ _ _ => some (h, ⟨0x0070, 0, .pf, .none, false, false⟩)
  | .boardRemap h _ _ _ => some (h, ⟨0x0071, 24, .pf, .none, false, false⟩)
  | .spareTakeover h _ => some (h, ⟨0x0072, 8, .pf, .none, true, false⟩)
  | .mirrorSet h _ _ _ _ _ => some (h, ⟨0x0073, 24, .own, .idle, false, false⟩)
  | .cfgStage h r _ => if r.data.length ≤ 4072 then some (h, ⟨0x0080, 8 + r.data.length, .pf, .none, false, false⟩) else none
  | .cfgCommit h => some (h, ⟨0x0081, 0, .pf, .none, false, false⟩)
  | .cfgRevert h => some (h, ⟨0x0082, 0, .pf, .none, false, false⟩)
  | .resetFunc h => some (h, ⟨0x0090, 0, .ownPf, .none, false, false⟩)
  | .resetDevice h => some (h, ⟨0x0091, 0, .pf, .none, false, false⟩)
  | .attestQuote h _ => some (h, ⟨0x00A0, 64, .any, .none, false, false⟩)
  | .identityGet h _ => some (h, ⟨0x00A1, 8, .any, .none, false, false⟩)
  | .eventRead h _ _ => some (h, ⟨0x00B0, 16, .any, .none, false, false⟩)
  | .telemetryRead h => some (h, ⟨0x00C0, 0, .any, .none, false, false⟩)
  | _ => none

/-- The row c posts its command, with header h, at function f's mailbox, which is free and served, and no other mailbox is served first
(R378, R379). -/
structure Posts (s : State) (c : Instr) (f : FnId) (h : ReqHdr) (i : CmdInfo) : Prop where
  row : mailboxRow c = some (h, i)
  issuer : h.issuer = .fn f
  live : s.live = true
  reach : s.fnReach f.val = true
  free : (s.fn f.val).busy = none
  noPost : (s.fn f.val).posted = none
  serving : s.serving = true
  turn : s.postTurn f.val s.beat.now = true

/-- The command passes the checks that R384 puts before its own: length, issuer and header; and those of the state that Table 16-4 and
R447, R445 and R383 give it. -/
structure Accepts (s : State) (c : Instr) (f : FnId) (h : ReqHdr) (i : CmdInfo) : Prop extends Posts s c f h i where
  len : h.len = i.len
  who : s.issuerBad f.val h.ctx i.may i.code = none
  header : hdrBad h i = none
  state : s.stateBad f.val h i = none

/-- The reply in function f's mailbox is that of a command with header h and CMD code: its STATUS and body (R378, R381). -/
structure RepliedWith (u : State) (f : FnId) (h : ReqHdr) (code status : Nat) (body : List Byte) : Prop where
  reply : (u.fn f.val).reply = some ⟨code, h.seq, (padBody body).length, h.ctx, false, status, padBody body⟩
  done : (u.fn f.val).done = true
  busy : (u.fn f.val).busy = none

/-- From s to u the command was served and replied (R378): DONE set, BUSY clear, SERVED counted. -/
structure Replied (s u : State) (f : FnId) (h : ReqHdr) (code status : Nat) (body : List Byte) : Prop
    extends RepliedWith u f h code status body where
  seq : (u.fn f.val).seq = h.seq
  served : (u.fn f.val).served = min (2 ^ 32 - 1) ((s.fn f.val).served + 1)

/-- From s to u the command was accepted as detached (R382): the reply says so, and it runs on, waiting for w. -/
structure DetachedAs (s u : State) (f : FnId) (h : ReqHdr) (code : Nat) (w : CmdWait) : Prop where
  reply : (u.fn f.val).reply = some ⟨code, h.seq, 0, h.ctx, true, 1, []⟩
  done : (u.fn f.val).done = true
  busy : (u.fn f.val).busy = none
  detached : ∃ k, (u.fn f.val).detached = (s.fn f.val).detached ++ [k] ∧ k.cmd = code ∧ k.ctx = h.ctx ∧ k.wait = w

/-- From s to u the command is in service, and replies later: BUSY, with no reply yet (R378). -/
structure WaitsFor (u : State) (f : FnId) (h : ReqHdr) (code : Nat) (w : CmdWait) : Prop where
  busy : ∃ k, (u.fn f.val).busy = some k ∧ k.cmd = code ∧ k.seq = h.seq ∧ k.ctx = h.ctx ∧ k.wait = w
  done : (u.fn f.val).done = false
  reply : (u.fn f.val).reply = none

end Sys2Proof.Machine
end

