-- ==== Sys2Proof/Certificates/Slice0/Obligations.lean ====
section
/-! DEFINITION. The statements for the provers. -/

open Sys2Proof Sys2Proof.Machine

/-- Every command answers a next state: no command of the table stops the machine.

A command leaves the queue and the part as assembled alone: what waits, waits on, in the same order. -/
def Obligations.CommandsRun : Prop :=
  (∀ (c : Instr) (s : State), ∃ t, exec c s = .next t) ∧
  (∀ (c : Instr) (s t : State), exec c s = .next t → t.pending = s.pending ∧ t.variant = s.variant)

/-- A step with a command at the front of the queue is that command's effect on the state with the queue's rest. -/
def Obligations.StepRunsFront : Prop :=
  ∀ (c : Instr) (rest : List Instr) (s : State), step { s with pending := c :: rest } = exec c { s with pending := rest }

/-- On an empty queue a step passes one clk, and stays in the last clk of a beat while the generator runs: the model's choice (log entry 3). With the
clk that begins, the strobed shadows are in effect (R407), the clk's shadow writes are pending (R408), its writes of RW-I registers are in effect
(R412), and no byte counts as changed in it (R51).

A part without power does nothing but take its power-on and note its input (the model's choice, log entry 5). -/
def Obligations.IdleAndUnpowered : Prop :=
  (∀ s : State, s.pending = [] →
    (s.beatEnable = true ∧ s.beat.periodEff ≤ s.clk + 1 → step s = .next s) ∧
    (¬ (s.beatEnable = true ∧ s.beat.periodEff ≤ s.clk + 1) →
      ∃ u, step s = .next u ∧ u.pending = [] ∧ u.beat.now = s.beat.now + 1 ∧ u.cfg.strobe = 0 ∧ u.cfg.shadowNew = [] ∧ u.rwiNew = [] ∧
        u.old = [] ∧
        (s.clk ≠ 0 → s.cfg.strobe = 0 → ∀ off v, s.rwiNew = [(off, v)] → u.rwiGet off = v.toNat ∧ ∀ o, o ≠ off → u.rwiGet o = s.rwiGet o))) ∧
  (∀ (s : State) (c : Instr), s.pwr.powered = false → (∀ i, c ≠ .powerOn i) → (∀ mv, c ≠ .vinRange mv) → exec c s = .next s)

/-- The state after reset is sound. -/
def Obligations.ResetSound : Prop := State.reset.Sound

/-- Every step from a sound state ends in a sound one: memory keeps its one canonical form, and the hub's epoch never takes 0 (R437). -/
def Obligations.StepKeepsSound : Prop := ∀ s : State, s.Sound → ∀ t, step s = .next t → t.Sound

/-- The state after reset has the values that the spec gives: BEAT_CTL with PERIOD 12,000, STRETCH 16, SOURCE 0 and ENABLE 0; tick 0; every stream with
no program, CRLOG2 4 and PC 0; every context closed, with TIMEOUT 0x1000; every counter and semaphore of a tile 0; the hub's MODE 0 and epoch 1;
logical ID 0xE and board epoch 0; every mailbox in RESET; every memory byte reads 0 (the model's choice for SCRATCH, log entry 4). -/
def Obligations.ResetValues : Prop :=
  State.reset.pending = [] ∧ bits (State.reset.eff 0x100) 0 16 = 12000 ∧ bits (State.reset.eff 0x100) 16 8 = 16 ∧ State.reset.source = 0 ∧
  State.reset.beatEnable = false ∧ State.reset.beat.tick = 0 ∧ State.reset.beat.periodEff = 12000 ∧ State.reset.hub.mode = 0 ∧
  State.reset.evt.hubEpoch = 1 ∧ State.reset.board.lid = 0xE ∧ State.reset.board.epoch = 0 ∧ State.reset.evt.log = [] ∧ State.reset.xfers = [] ∧
  (∀ c, (State.reset.ctx c).st = .closed ∧ (State.reset.ctx c).timeout = 0x1000 ∧ (State.reset.ctx c).sel = false) ∧
  (∀ t st, (State.reset.seq t st).plen = 0 ∧ (State.reset.seq t st).pc = 0 ∧ (State.reset.seq t st).crlog2 = 4 ∧ (State.reset.seq t st).run = false) ∧
  (∀ t, (State.reset.tile t).sems = [] ∧ (State.reset.tile t).invCnt = 0 ∧ (State.reset.tile t).satCnt = 0 ∧ (State.reset.tile t).cmpCnt = 0) ∧
  (∀ f, (State.reset.fn f).busy = none ∧ (State.reset.fn f).done = false ∧ (State.reset.fn f).reset = true ∧ (State.reset.fn f).served = 0) ∧
  ∀ a, memRead State.reset.mem a = 0

/-- Memory: a byte written reads back and every other byte reads as before, a zeroed range reads 0; two memories in the canonical form that read alike
at every address are the same, and every update keeps the form. -/
def Obligations.MemoryLaws : Prop :=
  ∀ (m n : List Host.Cell) (a b lo hi : Nat) (l : List Byte), Memory.wf m = true →
    memRead (memWriteList m a l) b = (if a ≤ b ∧ b < a + l.length then l.getD (b - a) 0 else memRead m b) ∧
    memRead (memZero m lo hi) b = (if lo ≤ b ∧ b < hi then 0 else memRead m b) ∧
    Memory.wf (memWriteList m a l) = true ∧ Memory.wf (memZero m lo hi) = true ∧
    (Memory.wf n = true → (∀ k, memRead m k = memRead n k) → m = n)

/-- CTRL instructions, where they are admitted: without LAST, or with LAST while others are outstanding (LastPasses has the rest). NOP goes on to the
next instruction; JUMP to its target; CALL to its target with the next program counter pushed; RET to the program counter popped; LOOP into a body
pushed with index 0, or, with count 0, past its end; PREFETCH to the next instruction with its lines named for fetching. Each completes in the clk
of its admission (R60): it is not outstanding, and its record is written.

LAST on an admitted CTRL instruction, on a COMMIT_POINT, or on a WAIT_BEAT whose beat has come, with nothing else outstanding is passed in its own
clk (R26, R60, R64); on a WAIT_BEAT before its beat LAST is seen, and the stream waits. -/
def Obligations.ControlFlow : Prop :=
  (∀ (s : State) (t : TileId) (st : Stream) (w : Insn) (c : Nat),
    w.last = false ∨ (∃ y ∈ (s.seq t.val st).inflight, y.seq ≠ (s.seq t.val st).seqNo ∨ y.step ≠ (s.seq t.val st).stepNo) →
    let q := s.seq t.val st
    let done (u : State) : Prop := Recorded s u t.val st (s.newEntry t.val st w) ∧ (u.seq t.val st).lastSeen = w.last ∧
      (u.seq t.val st).inflight = q.inflight.filter (fun y => y.seq != q.seqNo || y.step != q.stepNo)
    (CanIssue s t.val st opNop w noPre c → ∃ u, exec (.nop t st w) s = .next u ∧ WentNext s u t.val st ∧ done u) ∧
    (CanIssue s t.val st opJump w (jumpPre w) c →
      ∃ u, exec (.jump t st w) s = .next u ∧ WentOn s u t.val st (branchTo w) q.loops q.calls ∧ done u) ∧
    (CanIssue s t.val st opCall w (callPre w) c →
      ∃ u, exec (.call t st w) s = .next u ∧ WentOn s u t.val st (branchTo w) q.loops ((q.pc + 1) :: q.calls) ∧ done u) ∧
    (CanIssue s t.val st opRet w retPre c →
      ∃ u, exec (.ret t st w) s = .next u ∧ WentOn s u t.val st (q.calls.headD 0) q.loops (q.calls.drop 1) ∧ done u) ∧
    (CanIssue s t.val st opLoop w (loopPre w) c →
      ∃ u, exec (.loop t st w) s = .next u ∧ done u ∧
        if loopCount w = 0 then WentOn s u t.val st (branchTo w + 1) q.loops q.calls
        else WentOn s u t.val st (q.pc + 1) (⟨q.pc + 1, branchTo w, loopCount w, 0⟩ :: q.loops) q.calls) ∧
    (CanIssue s t.val st opPrefetch w (prefetchPre w) c →
      ∃ u, exec (.prefetch t st w) s = .next u ∧ WentNext s u t.val st ∧ done u ∧
        (u.seq t.val st).prefetching = q.prefetching ++ (List.range (fetchLines w)).map (fun i => q.lineOf (branchTo w) + i))) ∧
  (∀ (s : State) (t : TileId) (st : Stream) (w : Insn) (c : Nat), w.last = true → (s.seq t.val st).inflight = [] →
    (∀ p ∈ ([(opNop, noPre, .nop t st w), (opJump, jumpPre w, .jump t st w), (opCall, callPre w, .call t st w), (opRet, retPre, .ret t st w),
             (opLoop, loopPre w, .loop t st w), (opPrefetch, prefetchPre w, .prefetch t st w)] :
             List (OpInfo × (Seq → Option Nat) × Instr)),
      CanIssue s t.val st p.1 w p.2.1 c → ∃ u, exec p.2.2 s = .next u ∧ PassedLast s u t.val st c) ∧
    (CanReach s t.val st opCommitPoint w noPre c → ∃ u, exec (.commitPoint t st w) s = .next u ∧ PassedLast s u t.val st c) ∧
    (CanReach s t.val st opWaitBeat w noPre c →
      ∃ u, exec (.waitBeat t st w) s = .next u ∧
        if (s.ctx c).step.beatOf (s.seq t.val st).stepNo < w.opc.toNat then
          (u.seq t.val st).beatWait.map (·.beat) = some w.opc.toNat ∧ (u.seq t.val st).lastSeen = true ∧ (u.seq t.val st).run = true
        else PassedLast s u t.val st c))

/-- WAIT_BEAT b and COMMIT_POINT, reached with nothing outstanding. WAIT_BEAT before beat b of its step waits for it; in clk 0 of beat b it is passed;
later it is passed with one slip counted (R33), and COMMIT_POINT passes the stream's commit point. Where LAST is not set the stream goes on to the
next instruction, and each takes a sequence number. -/
def Obligations.BeatSync : Prop :=
  ∀ (s : State) (t : TileId) (st : Stream) (w : Insn) (c : Nat), w.last = false → (s.seq t.val st).inflight = [] →
    let k := (s.ctx c).step
    let n := k.beatOf (s.seq t.val st).stepNo
    (CanReach s t.val st opWaitBeat w noPre c →
      ∃ u, exec (.waitBeat t st w) s = .next u ∧ WentNext s u t.val st ∧
        (if n < w.opc.toNat then (u.seq t.val st).beatWait.map (·.beat) = some w.opc.toNat ∧ (u.seq t.val st).waiting = true
         else (u.seq t.val st).beatWait = none ∧
           (u.ctx c).step.slipCnt = if n = w.opc.toNat ∧ s.clk = 0 then k.slipCnt else satAdd 0xFFFF k.slipCnt 1)) ∧
    (CanReach s t.val st opCommitPoint w noPre c →
      ∃ u, exec (.commitPoint t st w) s = .next u ∧ WentNext s u t.val st ∧ (u.seq t.val st).committed = true)

/-- Semaphore instructions, admitted where no semaphore operation of the tile has taken place in this clk and no stream of the tile waits in SEM_WAIT:
SEM_SET writes the value; SEM_SIGNAL adds it, and where the sum passes 0xFFFF saturates and faults the stream with 0x4013 (R70); SEM_WAIT whose
value the semaphore reaches subtracts it and waits for nothing, else it waits; SEM_SIGNAL_REMOTE to a tile of the same context puts the signal in
flight after those before it. No other semaphore changes.

REMOTE_SIGNAL_APPLY (R69, R70) where no stream of the tile waits in SEM_WAIT and no operation has taken place in this clk: the oldest signal to the
tile, over all its senders (the model's choice, log entry 92), is taken and added to its semaphore; past 0xFFFF it saturates, and the stream that
sent it stops with 0x4013. Where no signal to the tile is in flight nothing changes. -/
def Obligations.SemaphoreRows : Prop :=
  (∀ (s : State) (t : TileId) (st : Stream) (w : Insn) (c : Nat),
    (s.tile t.val).semOps.any (·.clk == s.beat.now) = false → (∀ x : Stream, (s.seq t.val x).semHeld s.beat.now = false) →
    let v := s.sem t.val (semNo w)
    let others (u : State) : Prop := ∀ n, n ≠ semNo w → u.sem t.val n = s.sem t.val n
    (CanIssue s t.val st opSemSet w noPre c →
      ∃ u, exec (.semSet t st w) s = .next u ∧ WentNext s u t.val st ∧ u.sem t.val (semNo w) = semVal w ∧ others u) ∧
    (CanIssue s t.val st opSemSignal w noPre c → v + semVal w ≤ 0xFFFF →
      ∃ u, exec (.semSignal t st w) s = .next u ∧ WentNext s u t.val st ∧ u.sem t.val (semNo w) = v + semVal w ∧ others u) ∧
    (CanIssue s t.val st opSemSignal w noPre c → 0xFFFF < v + semVal w →
      ∃ u, exec (.semSignal t st w) s = .next u ∧ u.sem t.val (semNo w) = 0xFFFF ∧ others u ∧
        (u.seq t.val st).faulted = true ∧ (u.seq t.val st).faultCode = 0x4013) ∧
    (CanIssue s t.val st opSemWait w noPre c → semVal w ≤ v →
      ∃ u, exec (.semWait t st w) s = .next u ∧ WentNext s u t.val st ∧ u.sem t.val (semNo w) = v - semVal w ∧ others u ∧
        (u.seq t.val st).semWait = none) ∧
    (CanIssue s t.val st opSemWait w noPre c → v < semVal w →
      ∃ u, exec (.semWait t st w) s = .next u ∧ WentNext s u t.val st ∧ u.sem t.val (semNo w) = v ∧ others u ∧
        (u.seq t.val st).semWait = some ((s.seq t.val st).seqNo, semNo w, semVal w, (s.seq t.val st).stepNo)) ∧
    (CanIssue s t.val st opSemRemote w (s.remotePre t.val w) c →
      ∃ u, exec (.semSignalRemote t st w) s = .next u ∧ WentNext s u t.val st ∧
        u.rsigs = s.rsigs ++ [⟨bits w.opb.toNat 8 7, semNo w, semVal w, c, some (s.seq t.val st).stepNo, some (t.val, st)⟩])) ∧
  (∀ (s : State) (t : TileId), s.live = true →
    (s.rsigs.find? (fun r => r.tgt == t.val) = none → exec (.remoteSignalApply t) s = .next s) ∧
    (∀ r, s.rsigs.find? (fun r => r.tgt == t.val) = some r →
      (s.tile t.val).semOps.any (·.clk == s.beat.now) = false → (∀ b : Stream, (s.seq t.val b).semHeld s.beat.now = false) →
      let v := s.sem t.val r.sem
      ∃ u, exec (.remoteSignalApply t) s = .next u ∧ u.rsigs = s.rsigs.eraseP (fun r => r.tgt == t.val) ∧
        u.sem t.val r.sem = min 0xFFFF (v + r.inc) ∧ (∀ n, n ≠ r.sem → u.sem t.val n = s.sem t.val n) ∧
        (v + r.inc ≤ 0xFFFF → Chg [.tiles, .rsigs] s u) ∧
        (0xFFFF < v + r.inc → ∀ t' st', r.src = some (t', st') → (s.seq t' st').faulted = false →
          (u.seq t' st').faulted = true ∧ (u.seq t' st').faultCode = 0x4013)))

/-- A descriptor instruction whose descriptor cannot be read stops its stream with the fault that the reading found (R78, R79, R86); it is not
outstanding, and no transfer is registered. Those of the ME and the VC do where the two are free.

Where an instruction is reached and may not be admitted, its stream stops with the fault of R85 and R58: 0x4015 past the program's end, 0x2002 in a
poisoned line, 0x4010 for a CLASS and OP that Table 03-5 does not list, for an illegal word, or for a loop index that no level holds; nothing is
outstanding for it, and its step aborts. A word of another listed operation is not the row's to reach. The rows of the ME and the VC do so where the
two are free. -/
def Obligations.InstructionFaults : Prop :=
  (∀ (s : State) (t : TileId) (st : Stream) (w : Insn) (c : Nat) (f : DFault),
    let stops (k : OpInfo) (ops : List Nat) (i : Instr) : Prop :=
      CanIssue s t.val st k w noPre c → s.asBefore.readDesc t.val w (s.seq t.val st).loops k.cls ops = .error f →
      ∃ u, exec i s = .next u ∧ Stopped s u t.val st f.code ∧ u.xfers = s.xfers
    (∀ p ∈ ([(opDmaRead, [0], .dmaRead t st w), (opDmaWrite, [1], .dmaWrite t st w), (opDmaCopy, [2], .dmaCopy t st w),
             (opDmaFill, [3], .dmaFill t st w), (opDmaWait, [0, 1, 2], .dmaWait t st w), (opLinkSend, [0], .linkSend t st w),
             (opRecvPost, [1], .recvPost t st w), (opLinkWait, [0, 1], .linkWait t st w), (opScalarReduce, [3], .scalarReduce t st w),
             (opKilnUpdate, [0], .kilnUpdate t st w), (opKilnWait, [0], .kilnWait t st w)] : List (OpInfo × List Nat × Instr)),
      stops p.1 p.2.1 p.2.2) ∧
    (UnitsFree s t.val →
      ∀ p ∈ ([(opMm, [0], .mm t st w), (opMmOvw, [1], .mmOvw t st w), (opMmDrain, [2], .mmDrain t st w),
              (opChainRun, [0], .chainRun t st w), (opChainRunAcc, [1], .chainRunAcc t st w)] : List (OpInfo × List Nat × Instr)),
        stops p.1 p.2.1 p.2.2)) ∧
  (∀ (s : State) (t : TileId) (st : Stream) (w : Insn) (c : Nat), s.live = true → s.tileCtx t.val = some c →
    (s.seq t.val st).blocked s.beat.now = false → (s.unit (16 + t.val)).quar = false →
    ∀ p ∈ instructionRows t st w, p.2.cls ≠ 3 ∧ p.2.cls ≠ 4 ∨ UnitsFree s t.val →
      let q := s.seq t.val st
      let here : Bool := q.icache.contains (q.lineOf q.pc)
      let poisoned : Bool := q.icPoison.contains (16 * q.pbase + q.pc)
      let bad : Bool := illegalWord p.2 st w || p.2.desc && decide (q.loops.length < lsel w)
      let stops (code : Nat) : Prop := ∃ u, exec p.1 s = .next u ∧ Stopped s u t.val st code ∧
        ((s.ctx c).step.flight.contains q.stepNo = true →
          ∃ x ∈ (u.ctx c).step.causes, x.code = BitVec.ofNat 16 code ∧ x.step = some q.stepNo ∧ x.place = placeOf t.val st)
      (q.plen ≤ q.pc → stops 0x4015) ∧
      (q.pc < q.plen → here = true → poisoned = true → stops 0x2002) ∧
      (q.pc < q.plen → here = true → poisoned = false → opListed w = false → stops 0x4010) ∧
      (q.pc < q.plen → here = true → poisoned = false → opListed w = true → p.2.isOf w = false → exec p.1 s = .next s) ∧
      (q.pc < q.plen → here = true → poisoned = false → p.2.isOf w = true → bad = true → stops 0x4010))

/-- An instruction with LAST that its stream reaches with a loop or a call still open faults with 0x4014, and LAST has no effect (R63): the stream has
not passed the end of its step. -/
def Obligations.LastNeedsTopLevel : Prop :=
  ∀ (s : State) (t : TileId) (st : Stream) (w : Insn) (c : Nat), s.live = true → s.tileCtx t.val = some c →
    ∀ p ∈ instructionRows t st w, p.2.cls ≠ 3 ∧ p.2.cls ≠ 4 ∨ UnitsFree s t.val →
      let q := s.seq t.val st
      q.blocked s.beat.now = false → (s.unit (16 + t.val)).quar = false → q.pc < q.plen → q.icache.contains (q.lineOf q.pc) = true →
      q.icPoison.contains (16 * q.pbase + q.pc) = false → opListed w = true → p.2.isOf w = true → illegalWord p.2 st w = false → (p.2.desc = true → lsel w ≤ q.loops.length) →
      w.last = true → q.loops ≠ [] ∨ q.calls ≠ [] →
      ∃ u, exec p.1 s = .next u ∧ Stopped s u t.val st 0x4014 ∧ (u.seq t.val st).lastSeen = q.lastSeen ∧
        (u.seq t.val st).lastPassed = q.lastPassed ∧ (u.seq t.val st).committed = q.committed ∧ (u.seq t.val st).run = q.run ∧
        (u.seq t.val st).stepNo = q.stepNo

/-- DMA.READ, DMA.WRITE, DMA.COPY, LINK.SEND and LINK.RECV_POST whose checks pass issue a tracked transfer.

DMA.FILL whose checks pass is outstanding until its bytes have landed: it waits for a transfer that no other instruction can consume and that holds
no tag (R73).

DMA.WAIT, LINK.WAIT and KILN.WAIT take the earliest transfer of their stream and step, of their kinds, that was registered under the same offset and
that no other has taken (R74), and wait for it; where there is none the stream stops with 0x401D, and where DOP is not the OP of the instruction
that issued it, with 0x4011 (R76). -/
def Obligations.TransferIssue : Prop :=
  (∀ (s : State) (t : TileId) (st : Stream) (w : Insn) (c o d : Nat),
    let a := s.atWork t.val st
    (CanIssueDesc s t.val st opDmaRead w noPre [0] c o d → a.dmaCheck t.val c 0 d = none →
      ∃ u b, exec (.dmaRead t st w) s = .next u ∧ Sent s u t.val st w c o d .dmaRead b) ∧
    (CanIssueDesc s t.val st opDmaWrite w noPre [1] c o d → a.dmaCheck t.val c 1 d = none →
      ∃ u b, exec (.dmaWrite t st w) s = .next u ∧ Sent s u t.val st w c o d .dmaWrite b) ∧
    (CanIssueDesc s t.val st opDmaCopy w noPre [2] c o d → a.dmaCheck t.val c 2 d = none →
      ∃ u b, exec (.dmaCopy t st w) s = .next u ∧ Sent s u t.val st w c o d .dmaCopy b) ∧
    (CanIssueDesc s t.val st opLinkSend w noPre [0] c o d → a.sendCheck t.val c d = none →
      ∃ u b, exec (.linkSend t st w) s = .next u ∧ Sent s u t.val st w c o d .linkSend b) ∧
    (CanIssueDesc s t.val st opRecvPost w noPre [1] c o d → a.postCheck t.val c d = none →
      ∃ u b, exec (.recvPost t st w) s = .next u ∧ Sent s u t.val st w c o d .recvPost b)) ∧
  (∀ (s : State) (t : TileId) (st : Stream) (w : Insn) (c o d : Nat),
    CanIssueDesc s t.val st opDmaFill w noPre [3] c o d → (s.atWork t.val st).dmaCheck t.val c 3 d = none →
    ∃ u, exec (.dmaFill t st w) s = .next u ∧
      Admitted s u t.val st { s.descEntry t.val st w o d with wait := .xfer s.mig.nextId, ran := some s.beat.now } ∧ EngineKept s u t.val ∧
      ∃ f ∈ u.xfers, f.id = s.mig.nextId ∧ f.kind = .dmaFill ∧ f.fill = w.opc.toNat ∧ f.consumed = true ∧ f.tag = false) ∧
  (∀ (s : State) (t : TileId) (st : Stream) (w : Insn) (c o d : Nat),
    ∀ p ∈ ([(opDmaWait, [0, 1, 2], [XKind.dmaRead, .dmaWrite, .dmaCopy], .dmaWait t st w),
            (opLinkWait, [0, 1], [XKind.linkSend, .recvPost], .linkWait t st w),
            (opKilnWait, [0], [XKind.kiln], .kilnWait t st w)] : List (OpInfo × List Nat × List XKind × Instr)),
      CanIssueDesc s t.val st p.1 w noPre p.2.1 c o d →
      let found := s.xfers.find? (fun f => f.tile == t.val && f.stream == streamNo st && f.step == (s.seq t.val st).stepNo && f.off == o &&
        !f.consumed && !f.released && p.2.2.1.contains f.kind)
      (∀ f, found = some f → p.2.2.1[dmaOp d]? = some f.kind →
        ∃ u, exec p.2.2.2 s = .next u ∧ Admitted s u t.val st { s.descEntry t.val st w o d with wait := .xfer f.id } ∧ EngineKept s u t.val ∧
          u.xfers = s.xfers.map (fun g => if g.id = f.id then { g with consumed := true } else g) ∧ SameMem s u) ∧
      (∀ f, found = some f → p.2.2.1[dmaOp d]? ≠ some f.kind →
        ∃ u, exec p.2.2.2 s = .next u ∧ Stopped s u t.val st 0x4011 ∧ u.xfers = s.xfers) ∧
      (found = none → ∃ u, exec p.2.2.2 s = .next u ∧ Stopped s u t.val st 0x401D ∧ u.xfers = s.xfers))

/-- MM and MM_OVW, where the ME and the VC are free (R90-R94): element (m, n) of the region is the sum of a(m, k) · b(k, n) over the chunks of 32 in
ascending k, each chunk summed exactly and rounded once, from the element's old value for MM and from none for MM_OVW; every element outside the
region, the other bank and memory stay as they were. The instruction holds its bank and the ME until it completes (R103).

ACC_ZERO, where the ME and the VC are free, writes +0 to every element of the bank that OPB [0] names, and leaves the other bank alone (R100).

XLOC_REARM (R107, R108): the tile's exception locator is re-armed, VALID and MORE clear, and then holds the first invalid operation of this clk
where there was one, MORE with a further one; nothing else changes. -/
def Obligations.MatrixElements : Prop :=
  (∀ (s : State) (t : TileId) (st : Stream) (w : Insn) (c o d : Nat),
    ∀ p ∈ ([(opMm, false, .mm t st w), (opMmOvw, true, .mmOvw t st w)] : List (OpInfo × Bool × Instr)),
      CanIssueDesc s t.val st p.1 w noPre [p.1.op] c o d → (s.atWork t.val st).mmCheck t.val c d false = none → UnitsFree s t.val →
      let bank (v : State) : SMap F32 := if mmBank d = 0 then (v.tile t.val).acc0 else (v.tile t.val).acc1
      let other (v : State) : SMap F32 := if mmBank d = 0 then (v.tile t.val).acc1 else (v.tile t.val).acc0
      let b := s.asBefore
      let pairs (m n : Nat) : List ((Val × Val) × (Val × Val)) := (List.range (mmK d)).map (fun k =>
        (b.meElem (mmA d) (if bitOf d 48 = true then k else m) (if bitOf d 48 = true then m else k),
         b.meElem (mmB d) (if bitOf d 49 = true then n else k) (if bitOf d 49 = true then k else n)))
      let old (m n : Nat) : Nat := (smGet 0 (bank s) (128 * m + n)).toNat
      ∃ u y, exec p.2.2 s = .next u ∧ Entered s u t.val st y ∧ y.wait = .none ∧ y.bank = some (mmBank d) ∧ other u = other s ∧
        SameMem s u ∧ (u.arb (16 + 3 * t.val)).grant.map (fun g => (g.who, g.insn)) = some (streamNo st, some (s.seq t.val st).seqNo) ∧
        (∀ k, ¬ (k / 128 < mmM d ∧ k % 128 < mmN d) → smGet 0 (bank u) k = smGet 0 (bank s) k) ∧
        ∀ m n, m < mmM d → n < mmN d →
          smGet 0 (bank u) (128 * m + n) = BitVec.ofNat 32
            (if mmIntAcc d = true then
              sumInt (chunks 32 ((pairs m n).map (fun q => intOf q.1.1 * intOf q.2.1)))
                (if p.2.1 = true then none else some (toSigned 32 (old m n))) (bitOf d 51)
            else sumFloat (chunks 32 ((pairs m n).map (fun q => mkTerm q.1 q.2))) (if p.2.1 = true then none else some (old m n))).code) ∧
  (∀ (s : State) (t : TileId) (st : Stream) (w : Insn) (c : Nat),
    CanIssue s t.val st opAccZero w noPre c → UnitsFree s t.val →
    ∃ u, exec (.accZero t st w) s = .next u ∧
      Entered s u t.val st { s.newEntry t.val st w with bank := some (bits w.opb.toNat 0 1), ran := some s.beat.now } ∧
      (∀ k, smGet 0 (if bits w.opb.toNat 0 1 = 0 then (u.tile t.val).acc0 else (u.tile t.val).acc1) k = 0) ∧
      (if bits w.opb.toNat 0 1 = 0 then (u.tile t.val).acc1 = (s.tile t.val).acc1 else (u.tile t.val).acc0 = (s.tile t.val).acc0) ∧
      (u.tile t.val).xloc = (s.tile t.val).xloc ∧ SameMem s u) ∧
  (∀ (s : State) (t : TileId), s.live = true →
    let l := (s.tile t.val).xloc
    ∃ u, exec (.xlocRearm t) s = .next u ∧ Chg [.tiles] s u ∧ (∀ t', t' ≠ t.val → u.tile t' = s.tile t') ∧
      (∀ e, l.late = some (s.beat.now, e) →
        u.tile t.val = { s.tile t.val with xloc := { l with cap := e, valid := true, more := l.lateMore } }) ∧
      ((∀ e, l.late ≠ some (s.beat.now, e)) → u.tile t.val = { s.tile t.val with xloc := { l with valid := false, more := false } }))

/-- CHAIN.RUN and CHAIN.RUN_ACC whose checks pass, where the ME and the VC are free, run the chain of their descriptor on their source, a scratch tensor
or the bank that OPB [0] names (R137): on a state b that differs from s in sequencers, grants and the transfer of a hand-off (R153) alone, they
write what the chain's rows give. The instruction holds the VC until it completes, and waits for nothing but the tag of a hand-off.

MM_DRAIN whose checks pass, where the ME and the VC are free, computes as MM, or as MM_OVW where START is set, then drains its region through the
chain descriptor at OPB (R104): its record's counts are those of both. -/
def Obligations.ChainIssue : Prop :=
  (∀ (s : State) (t : TileId) (st : Stream) (w : Insn) (c o d : Nat), UnitsFree s t.val →
    let a := s.atWork t.val st
    let ran (i : Instr) (rows cols : Nat) (src : ChainSrc) : Prop :=
      ∃ u b x y, exec i s = .next u ∧ Chg [.tiles, .arbs, .xfers, .mig, .mem, .old] s b ∧ SameMem s b ∧ EngineKept s b t.val ∧
        x.desc = d ∧ x.pc = (s.seq t.val st).pc ∧ x.seq = (s.seq t.val st).seqNo ∧ x.step = (s.seq t.val st).stepNo ∧
        let r := b.asBefore.runChain t.val c st x d rows cols src
        Entered s u t.val st y ∧ y.counts = r.2.counts ∧ y.status = r.2.status ∧
        (y.wait = .none ∨ dkind d = 2 ∧ ∃ id, y.wait = .chainTag id) ∧
        (u.arb (16 + 3 * t.val + 1)).grant.map (fun g => (g.who, g.insn)) = some (streamNo st, some (s.seq t.val st).seqNo) ∧
        u.poison = r.1.poison ∧ (u.tile t.val).acc0 = (r.1.tile t.val).acc0 ∧ (u.tile t.val).acc1 = (r.1.tile t.val).acc1 ∧
        ∀ k, memRead u.mem k = memRead (b.afterAll r.1 0).mem k
    (CanIssueDesc s t.val st opChainRun w noPre [0] c o d → a.chainCheck t.val c st d 0 (cf d 64 16) (cf d 80 24) .scratch = none →
      ran (.chainRun t st w) (cf d 64 16) (cf d 80 24) .scratch) ∧
    (let src := ChainSrc.acc (bits w.opb.toNat 0 1) (bitOf d 50) (bitOf d 51)
     CanIssueDesc s t.val st opChainRunAcc w noPre [1] c o d → a.chainCheck t.val c st d 1 (cf d 64 16) (cf d 80 24) src = none →
      ran (.chainRunAcc t st w) (cf d 64 16) (cf d 80 24) src)) ∧
  (∀ (s : State) (t : TileId) (st : Stream) (w : Insn) (c o d k : Nat), UnitsFree s t.val →
    let a := s.atWork t.val st
    CanIssueDesc s t.val st opMmDrain w noPre [2] c o d → a.descAt t.val (bits w.opb.toNat 0 20) 4 [1] none = .ok k →
    let src := ChainSrc.acc (mmBank d) (mmIntAcc d) (bitOf d 53)
    a.mmCheck t.val c d true = none → a.chainCheck t.val c st k 2 (mmM d) (mmN d) src = none →
    ∃ u b e x y, exec (.mmDrain t st w) s = .next u ∧
      Chg [.tiles, .arbs, .xfers, .mig, .mem, .old] s b ∧ SameMem s b ∧ EngineKept s b t.val ∧ x.desc = d ∧
      x.seq = (s.seq t.val st).seqNo ∧ x.step = (s.seq t.val st).stepNo ∧ x.pc = (s.seq t.val st).pc ∧
      let m := b.asBefore.runMm t.val c st x d (bitOf d 52)
      (e.tile t.val).acc0 = (m.1.tile t.val).acc0 ∧ (e.tile t.val).acc1 = (m.1.tile t.val).acc1 ∧
      Chg [.tiles, .arbs, .ctxs, .fns, .evt, .outbox, .mem, .old] b e ∧ SameMem b e ∧
      let r := e.asBefore.runChain t.val c st { m.2 with desc2 := k } k (mmM d) (mmN d) src
      Entered s u t.val st y ∧ y.counts = r.2.counts ∧ (u.tile t.val).acc0 = (r.1.tile t.val).acc0 ∧
        (u.tile t.val).acc1 = (r.1.tile t.val).acc1 ∧ (u.tile t.val).xloc = (m.1.tile t.val).xloc ∧ u.poison = r.1.poison ∧
        ∀ k, memRead u.mem k = memRead (e.afterAll r.1 0).mem k)

/-- SCALAR_REDUCE whose checks pass puts its own message among the module's, and sends it as a flit to every other peer that a port not DOWN leads to
(R333, R317); where its peers' messages are all there it combines them at DST and drops them, else it waits for them.

SCALAR_RECEIVE (R333): a message of a peer whose port is up is held, up to 64 for a context and peer; further ones are not. The last one that a
reduction awaits completes it: its messages are dropped, and its instruction waits no more. -/
def Obligations.ScalarRows : Prop :=
  (∀ (s : State) (t : TileId) (st : Stream) (w : Insn) (c o d : Nat),
    CanIssueDesc s t.val st opScalarReduce w noPre [3] c o d → (s.atWork t.val st).scalarCheck t.val c d = none →
    s.poisoned (32 * dfield d 128 32) (4 * scalarCount d) = false →
    let tag := dfield d 72 8
    let own : Scalar := ⟨c, s.ownLid, tag, (s.seq t.val st).stepNo,
      (List.range (scalarCount d)).map (fun i => BitVec.ofNat 32 (s.asBefore.word32 (32 * dfield d 128 32 + 4 * i)))⟩
    let held := s.board.scalars ++ [own]
    let peers := (scalarPeers d).filterMap (fun l => held.find? (fun m => m.ctx == c && m.lid == l && m.tag == tag))
    let ports := ((scalarPeers d).filter (fun l => l != s.ownLid && s.linked (s.portOfLid l))).map s.portOfLid
    ∃ u, exec (.scalarReduce t st w) s = .next u ∧ EngineKept s u t.val ∧
      (∃ l : List Flit, u.outbox = s.outbox ++ (ports.zip l).map (fun p => .flit p.1 p.2) ∧ l.length = ports.length ∧
        ∀ f ∈ l, f.ftype = some .scalar ∧ f.tag = tag ∧ f.ctx = c % 16 ∧ f.crcOk = true ∧ f.payload = own.vals.flatMap (fun v => toBytes 4 v.toNat)) ∧
      (peers.length = (scalarPeers d).length →
        Admitted s u t.val st { s.descEntry t.val st w o d with ran := some s.beat.now } ∧
        u.board.scalars = held.filter (fun m => !(m.ctx == c && m.tag == tag)) ∧
        (s.Sound → Landed s u (memWriteList s.memBefore (32 * dfield d 160 32)
          ((scalarCombine (dfield d 48 2) (scalarCount d) (peers.map (·.vals))).flatMap (fun v => toBytes 4 v.toNat))))) ∧
      (peers.length ≠ (scalarPeers d).length →
        Admitted s u t.val st { s.descEntry t.val st w o d with wait := .reduce tag } ∧ u.board.scalars = held ∧ SameMem s u)) ∧
  (∀ (s : State) (p : PortId) (c : CtxId) (tag n l : Nat) (vals : List F32), s.live = true → s.lidOfPort p.val = some l →
    let held : State := { s with board := { s.board with scalars := s.board.scalars ++ [⟨c.val, l, tag, n, vals⟩] } }
    2 ≤ (s.port p.val).st →
    (64 ≤ s.board.scalars.countP (fun m => m.ctx == c.val && m.lid == l) → exec (.scalarReceive p c tag ⟨n, vals⟩) s = .next s) ∧
    (s.board.scalars.countP (fun m => m.ctx == c.val && m.lid == l) < 64 →
      (s.reduceWaiter c.val tag = none → exec (.scalarReceive p c tag ⟨n, vals⟩) s = .next held) ∧
      (∀ t x, s.reduceWaiter c.val tag = some (t, x) → dfield x.desc 72 8 = tag →
        ((∃ i ∈ scalarPeers x.desc, held.scalarOf c.val i tag = none) → exec (.scalarReceive p c tag ⟨n, vals⟩) s = .next held) ∧
        ((∀ i ∈ scalarPeers x.desc, held.scalarOf c.val i tag ≠ none) →
          ∃ u, exec (.scalarReceive p c tag ⟨n, vals⟩) s = .next u ∧ (∀ m ∈ u.board.scalars, ¬ (m.ctx = c.val ∧ m.tag = tag)) ∧
            ∀ y ∈ (u.seq t .U).inflight, y.seq = x.seq → y.wait = .none))))

/-- KILN.UPDATE whose checks pass registers a transfer and an update under one number (R191). With its tag it is issued: its slice counts as updated in
its step (R189), and it goes on, or waits for a deferred record (R205); else its instruction waits for the tag, and the update is not issued (R46,
R188).

TAG_GRANT (R46, R59, R260, R261): where a tag is free for its context, no earlier transfer of its stream waits, and the free shared tags are as many
as the transfers that wait, an instruction that waits for the tag of its transfer gets it. A transfer that is no update then starts, and its
instruction waits no longer; an update whose slice no other of its step has named is issued (R189). Where no tag is free for its context nothing
changes. -/
def Obligations.UpdateIssue : Prop :=
  (∀ (s : State) (t : TileId) (st : Stream) (w : Insn) (c o d : Nat),
    CanIssueDesc s t.val st opKilnUpdate w noPre [0] c o d → (s.atWork t.val st).updCheck t.val c (s.seq t.val st).stepNo d = none →
    ∃ u tagged, exec (.kilnUpdate t st w) s = .next u ∧ WentNext s u t.val st ∧ EngineKept s u t.val ∧
      (∃ f ∈ u.xfers, f.id = s.mig.nextId ∧ f.kind = .kiln ∧ f.off = o ∧ f.desc = d ∧ f.consumed = false ∧ f.tag = tagged) ∧
      (s.tagFree c = false → tagged = false) ∧
      (s.tagFree c = true → s.tagWaiters < s.sharedFree →
        (∀ g ∈ s.xfers, g.id ≠ s.mig.nextId ∧ ¬ (g.waitsTag = true ∧ g.tile = t.val ∧ g.stream = streamNo st)) → tagged = true) ∧
      ∃ v ∈ u.upds, v.id = s.mig.nextId ∧ v.ctx = c ∧ v.tile = t.val ∧ v.step = (s.seq t.val st).stepNo ∧ v.desc = d ∧
        (tagged = true →
          (u.ctx c).step.updated = (s.ctx c).step.updated ++ [((s.seq t.val st).stepNo, updSlice d)] ∧
          (v.stage = .issued ∨ v.stage = .deferred ∨ v.stage = .hold) ∧
          ∃ x ∈ [Wait.none, .deferRec s.mig.nextId],
            (u.seq t.val st).inflight = (s.seq t.val st).inflight ++ [{ s.descEntry t.val st w o d with wait := x }]) ∧
        (tagged = false →
          (u.ctx c).step.updated = (s.ctx c).step.updated ∧ v.stage = .tag ∧
          (u.seq t.val st).inflight = (s.seq t.val st).inflight ++ [{ s.descEntry t.val st w o d with wait := .tag s.mig.nextId }])) ∧
  (∀ (s : State) (t : TileId) (st : Stream) (n id : Nat) (x : InFlight) (f : Xfer), s.live = true →
    (s.seq t.val st).inflight.find? (fun y => y.seq == n) = some x → x.wait = .tag id ∨ x.wait = .chainTag id →
    s.xfers.find? (fun g => g.id == id) = some f →
    (s.tagFree f.ctx = false → exec (.tagGrant t st n) s = .next s) ∧
    (s.tagFree f.ctx = true → s.tagBehind id = false → s.tagWaiters ≤ s.sharedFree →
      ((∀ u ∈ s.upds, u.id ≠ id) →
        ∃ u, exec (.tagGrant t st n) s = .next u ∧
          u.xfers = s.xfers.map (fun g => if g.id = id then { g with asked := true, tag := true } else g) ∧
          (u.seq t.val st).inflight = (s.seq t.val st).inflight.map (fun y => if y.seq = n then { y with wait := .none } else y) ∧
          u.mig.high = max s.mig.high u.tagsInUse ∧ u.mem = s.mem) ∧
      (∀ v, s.upds.find? (fun u => u.id == id && u.stage == .tag) = some v →
        (s.ctx v.ctx).step.updated.contains (v.step, updSlice v.desc) = false →
        ∃ u, exec (.tagGrant t st n) s = .next u ∧ (∃ g ∈ u.xfers, g.id = id ∧ g.tag = true) ∧
          (u.ctx v.ctx).step.updated = (s.ctx v.ctx).step.updated ++ [(v.step, updSlice v.desc)] ∧
          ∃ y ∈ [Wait.none, .deferRec v.id],
            (u.seq t.val st).inflight = (s.seq t.val st).inflight.map (fun z => if z.seq = n then { z with wait := y } else z))))

/-- CASK.PUT whose checks pass (R163-R170), where the other stream has placed nothing in this clk: its entry is placed by the rule of R168 and its bytes
follow; where nothing can be placed it stalls. Where the arena has a run of units for it, and MIN allows the arena, the entry lies there: a free
slot names it, and its bytes are those of its source.

CASK.GET of a resident entry whose size fits delivers its bytes; of a dropped one it branches to the recompute program with the next program counter
pushed, and with REL its slot is released (R171).

CASK.RELEASE frees what its key names, of both kinds with BOTHK; a key that names nothing is no fault (R172).

A stalled CASK.PUT (R169, R170, R176). CASK_PUT_RETRY in a clk after one in which units or slots were freed, before the tick that ends its beat,
tries its placement again, where the other stream has placed nothing in this clk: placed, it waits no longer. CASK_FULL at that tick completes it
with STATUS 0x4003, its record with it, and logs 0x4003, unless the tick aborts its step. -/
def Obligations.CaskRows : Prop :=
  (∀ (s : State) (t : TileId) (st : Stream) (w : Insn) (c o d : Nat),
    let n := (s.seq t.val st).stepNo % 2
    let a := s.atWork t.val st
    let k := (s.tile t.val).cask
    CanIssue s t.val st opCaskPut w (s.caskPre t.val) c → a.readDesc t.val w (s.seq t.val st).loops 7 [0] = .ok (o, d) →
      caskBody 0 d = none → a.caskReach t.val d = none → a.putFault t.val c d n = none → s.caskLate t.val st = false →
      let r := a.caskPlace t.val c st d n
      (∃ u, exec (.caskPut t st w) s = .next u ∧ (u.tile t.val).cask.dir = (r.1.tile t.val).cask.dir ∧ u.poison = r.1.poison ∧
        (s.Sound → Landed s u r.1.mem) ∧
        (r.2 = true → Admitted s u t.val st (s.descEntry t.val st w o d)) ∧
        (r.2 = false → Admitted s u t.val st { s.descEntry t.val st w o d with wait := .cask } ∧
          (u.tile t.val).cask.stall st = some (s.seq t.val st).seqNo)) ∧
      (∀ i l, k.freeSlot s.beat.now = some i → caskMin d = 0 → 0 < (k.room 0).2 → k.fit s.beat.now 0 (caskUnits (caskSize d)) = some l →
        ∃ u, exec (.caskPut t st w) s = .next u ∧ Admitted s u t.val st (s.descEntry t.val st w o d) ∧
          let e := smGet {} (u.tile t.val).cask.dir i
          e.valid = true ∧ e.dropped = false ∧ e.tier = 0 ∧ e.loc = l ∧ e.layer = caskLayer d ∧ e.mb = caskMb d ∧ e.kind = caskKind d ∧
          e.par = n ∧ e.size = caskSize d)) ∧
  (∀ (s : State) (t : TileId) (st : Stream) (w : Insn) (c o d i : Nat) (k : CaskSlot),
    let n := (s.seq t.val st).stepNo % 2
    let a := s.atWork t.val st
    CanIssue s t.val st opCaskGet w (s.caskPre t.val) c → a.readDesc t.val w (s.seq t.val st).loops 7 [1] = .ok (o, d) →
      caskBody 1 d = none → a.caskReach t.val d = none →
      (s.tile t.val).cask.find (caskLayer d) (caskMb d) (caskKind d) n = some (i, k) → k.size = caskSize d →
      (k.dropped = true → (s.seq t.val st).calls.length < 8 →
        ∃ u, exec (.caskGet t st w) s = .next u ∧ (u.seq t.val st).pc = k.rpc ∧
          (u.seq t.val st).calls =
            (closeLoops (s.seq t.val st).pc ((s.seq t.val st).pc + 1) (s.seq t.val st).loops).1 :: (s.seq t.val st).calls ∧
          (caskBit49 d = true → (smGet {} (u.tile t.val).cask.dir i).valid = false) ∧
          (caskBit49 d = false → (u.tile t.val).cask = (s.tile t.val).cask ∧ SameMem s u)) ∧
      (k.dropped = false →
        ∃ u, exec (.caskGet t st w) s = .next u ∧
          let r := a.caskLoad t.val c st (s.descEntry t.val st w o d) k
          Admitted s u t.val st r.2 ∧ EngineKept s u t.val ∧ u.poison = r.1.poison ∧ (s.Sound → Landed s u r.1.mem))) ∧
  (∀ (s : State) (t : TileId) (st : Stream) (w : Insn) (c o d : Nat),
    let n := (s.seq t.val st).stepNo % 2
    CanIssue s t.val st opCaskRelease w (s.caskPre t.val) c →
      (s.atWork t.val st).readDesc t.val w (s.seq t.val st).loops 7 [2] = .ok (o, d) → caskBody 2 d = none →
      ∃ u, exec (.caskRelease t st w) s = .next u ∧ Admitted s u t.val st (s.descEntry t.val st w o d) ∧
        (∀ kind i k, (s.tile t.val).cask.find (caskLayer d) (caskMb d) kind n = some (i, k) → caskBit49 d = true ∧ kind < 2 ∨ kind = caskKind d →
          (smGet {} (u.tile t.val).cask.dir i).valid = false)) ∧
  (∀ (s : State) (t : TileId) (st : Stream) (c : Nat) (x : InFlight), s.live = true → s.tileCtx t.val = some c →
    (s.seq t.val st).inflight.find? (fun y => y.wait == .cask) = some x →
    let k := (s.tile t.val).cask
    let r := s.asBefore.caskPlace t.val c st x.desc (x.step % 2)
    let y := { x with wait := .none, status := 0x4003 }
    (x.clk ≤ k.freedClk → k.freedClk < s.beat.now → s.beat.tickClk ≤ x.clk → s.caskLate t.val st = false →
      ∃ u, exec (.caskPutRetry t st) s = .next u ∧ (s.Sound → Landed s u r.1.mem) ∧ u.poison = r.1.poison ∧
        (r.2 = true → (u.tile t.val).cask.stall st = none ∧
          (u.seq t.val st).inflight = (s.seq t.val st).inflight.map (fun y => if y.seq = x.seq then { y with wait := .none, status := 0 } else y)) ∧
        (r.2 = false → (u.seq t.val st).inflight = (s.seq t.val st).inflight ∧ (u.tile t.val).cask = (r.1.tile t.val).cask)) ∧
    (s.beat.now ≤ k.freedClk ∨ k.freedClk < x.clk ∨ x.clk < s.beat.tickClk → exec (.caskPutRetry t st) s = .next s) ∧
    (x.clk < s.beat.tickClk → s.abortDue c x.step = false →
      ∃ u, exec (.caskFull t st) s = .next u ∧ (u.tile t.val).cask.stall st = none ∧
        (∀ z ∈ (u.seq t.val st).inflight, ¬ (z.seq = x.seq ∧ z.step = x.step)) ∧ Recorded s u t.val st y ∧ Logged s u 0x4003 ∧
        ((s.ctx c).step.flight.contains x.step = true →
          ∃ q ∈ (u.ctx c).step.causes, q.code = 0x4003 ∧ q.step = some x.step ∧ q.retry = false)) ∧
    (s.beat.tickClk ≤ x.clk ∨ s.abortDue c x.step = true → exec (.caskFull t st) s = .next s))

/-- INSN_COMPLETE (R47, R60, R68, R74, R133). An instruction that waits for nothing completes, where no other of its tile needs the ME or the VC, and a
CASK.GET does once the PUT of its entry has; a SEM_WAIT whose test passed in an earlier clk completes; one that waits for a transfer that is done
consumes it, and takes its counts, status and XINFO; one that waits for anything else, or for a transfer that is not done, does not complete.

ICACHE_FILL after a miss (R58, R85): the three lines arrive, no line is fetched any longer, lines of other sets stay cached, and a word of the lines
is poisoned in the cache exactly where it was poisoned in memory. The stream stays at its instruction. -/
def Obligations.InsnCompletes : Prop :=
  (∀ (s : State) (t : TileId) (st : Stream) (n : Nat) (x : InFlight), s.live = true →
    (s.seq t.val st).inflight.find? (fun y => y.seq == n) = some x →
    (x.wait = .none → (s.tile t.val).getBehind x = false → OnlyUnitUser s t.val st n →
      ∃ u, exec (.insnComplete t st n) s = .next u ∧ Completed s u t.val st x ∧ u.xfers = s.xfers ∧
        (¬ (x.cls = 7 ∧ x.op = 1) → Recorded s u t.val st x)) ∧
    (∀ m v k, x.wait = .passed m v k → k < s.beat.now → OnlyUnitUser s t.val st n →
      ∃ u, exec (.insnComplete t st n) s = .next u ∧ Completed s u t.val st x ∧ Recorded s u t.val st x ∧ u.xfers = s.xfers) ∧
    (∀ id f, x.wait = .xfer id → s.xfers.find? (fun g => g.id == id) = some f → f.done = true → OnlyUnitUser s t.val st n →
      let y := { x with counts := x.counts.plus f.counts, status := f.status, xinfo := f.xinfo }
      ∃ u, exec (.insnComplete t st n) s = .next u ∧ Completed s u t.val st y ∧ Recorded s u t.val st y ∧
        u.xfers = s.xfers.filter (fun g => g.id != id)) ∧
    (∀ id f, x.wait = .xfer id → s.xfers.find? (fun g => g.id == id) = some f → f.done = false →
      exec (.insnComplete t st n) s = .next s) ∧
    (x.wait ≠ .none → (∀ id, x.wait ≠ .xfer id) → (∀ m v k, x.wait = .passed m v k → s.beat.now ≤ k) →
      exec (.insnComplete t st n) s = .next s)) ∧
  (∀ (s : State) (t : TileId) (st : Stream) (c l : Nat), s.live = true → s.tileCtx t.val = some c →
    (s.seq t.val st).fetching = [l, l + 1, l + 2] → (s.seq t.val st).prefetching = [] →
    ∃ u, exec (.icacheFill t st) s = .next u ∧ (u.seq t.val st).fetching = [] ∧ (u.seq t.val st).prefetching = [] ∧
      (∀ i, i < 3 → (u.seq t.val st).icache.contains (l + i) = true) ∧
      (∀ m, (s.seq t.val st).icache.contains m = true → (∀ i, i < 3 → m % 64 ≠ (l + i) % 64) → (u.seq t.val st).icache.contains m = true) ∧
      (∀ w, l ≤ w / 16 → w / 16 < l + 3 → (u.seq t.val st).icPoison.contains w = s.caPoison c (16 * w)) ∧
      (u.seq t.val st).pc = (s.seq t.val st).pc ∧ (u.seq t.val st).inflight = (s.seq t.val st).inflight ∧ u.mem = s.mem)

/-- The completion record of an instruction (Table 03-7, R81): SEQ, STATUS, STREAM, RETRY, the valid bit that turns at every lap of the ring, CLASS, OP,
USED, STEP_LO, the five counts, each at most 0xFFFF, XINFO and PC, each at its own bits; nothing stands above bit 247. -/
def Obligations.RecordLayout : Prop :=
  ∀ (st : Stream) (lg used : Nat) (x : InFlight), x.cls < 16 → x.op < 256 →
    let r := recordBits st lg used x
    bits r 0 32 = x.seq % 2 ^ 32 ∧ bits r 32 16 = x.status.toNat ∧ bits r 48 2 = streamNo st ∧ bits r 50 1 = (if x.retry = true then 1 else 0) ∧
    bits r 51 1 = 1 - x.seq / 2 ^ lg % 2 ∧ bits r 52 4 = x.cls ∧ bits r 56 8 = x.op ∧ bits r 64 32 = min used 0xFFFFFFFF ∧
    bits r 96 32 = x.step % 2 ^ 32 ∧ bits r 128 16 = min x.counts.inv 0xFFFF ∧ bits r 144 16 = min x.counts.sat 0xFFFF ∧
    bits r 160 16 = min x.counts.flush 0xFFFF ∧ bits r 176 16 = min x.counts.ovf 0xFFFF ∧ bits r 192 16 = min x.counts.cmp 0xFFFF ∧
    bits r 208 16 = min x.xinfo 0xFFFF ∧ bits r 224 24 = x.pc % 2 ^ 24 ∧ r < 2 ^ 248

/-- An instruction of a tile changes no other tile, and no context but its own (R13, R55, R356); but a SEM_SET or SEM_SIGNAL may carry a semaphore past
0xFFFF, and the streams of other tiles whose signals of the clk are in the sum fault with it (R70).

Instructions that store nothing of their own: every byte of memory outside the completion rings of the tile's three streams (R80) reads as it did.
Those of the ME do so where it and the VC are free: else what waited for them may run. -/
def Obligations.InstructionFrame : Prop :=
  (∀ (s u : State) (t : TileId) (st : Stream) (w : Insn), ∀ p ∈ instructionRows t st w, exec p.1 s = .next u →
    let sent (t' : Nat) : Prop := (p.1 = .semSet t st w ∨ p.1 = .semSignal t st w) ∧ ∃ o ∈ (s.tile t.val).semOps, ∃ x, o.src = some (t', x)
    (∀ t', t' ≠ t.val → ¬ sent t' → u.tile t' = s.tile t') ∧
    ∀ c, s.tileCtx t.val ≠ some c → (∀ t', sent t' → s.tileCtx t' ≠ some c) → u.ctx c = s.ctx c) ∧
  (∀ (s u : State) (t : TileId) (st : Stream) (w : Insn),
    ∀ i ∈ ([.nop t st w, .jump t st w, .call t st w, .ret t st w, .loop t st w, .prefetch t st w, .waitBeat t st w, .commitPoint t st w,
        .semSet t st w, .semSignal t st w, .semWait t st w, .semSignalRemote t st w, .dmaRead t st w, .dmaWrite t st w, .dmaCopy t st w,
        .dmaWait t st w, .linkSend t st w, .recvPost t st w, .linkWait t st w, .kilnWait t st w, .mm t st w, .mmOvw t st w, .accZero t st w] : List Instr),
      (i ∈ ([.mm t st w, .mmOvw t st w, .accZero t st w] : List Instr) → UnitsFree s t.val) → exec i s = .next u → ∀ a,
        (∀ x : Stream, let q := s.seq t.val x
          a < localKey t.val q.crbase ∨ localKey t.val (q.crbase + 2 ^ q.crlog2) ≤ a) →
        memRead u.mem a = memRead s.mem a)

/-- TICK with no verdict left to act on, nothing strobed or due to be, no watchdog expired and no die cut off (R18-R20, R326, R327): the tick counter
rises by one, the beat whose length was announced begins at the clk of the tick, and that clk is PERIOD_EFF after the last tick where the generator
runs alone. The verdict of the tick is taken; a follower without one acts on none, and asks for it. Where the generator does not run, nothing
happens. -/
def Obligations.TickBegins : Prop :=
  ∀ s : State, s.live = true →
    (s.beatEnable = false → exec .tick s = .next s) ∧
    (s.beatEnable = true → s.board.applied = none → s.cfg.due = 0 → s.cfg.strobe = 0 → s.evt.wdog = false → (∀ q, q < 4 → s.dieCut q = false) →
      ∃ u, exec .tick s = .next u ∧ u.beat.tick = (s.beat.tick + 1) % 2 ^ 64 ∧ u.beat.tickClk = u.beat.now ∧ s.beat.now < u.beat.now ∧
        (s.source = 0 → u.beat.now = max (s.beat.now + 1) (s.beat.tickClk + s.beat.periodEff)) ∧
        u.beat.periodEff = s.beat.nextPeriod ∧ u.beat.stretched = s.beat.nextStretched ∧ u.beat.pulse = none ∧ u.cfg.armNext = 0 ∧
        u.mig.decay = s.mig.decay + 1 ∧
        (∀ v, s.board.held = some v → v.tick = (s.beat.tick + 1) % 2 ^ 64 → u.board.applied = some v ∧ u.board.missing = s.board.missing) ∧
        (s.forms = false → s.board.held = none → u.board.applied = none ∧ (s.beat.tick + 1) % 2 ^ 64 ∈ u.board.missing ∧
          u.board.verdictLost = min 0xFFFF (s.board.verdictLost + 1)))

/-- The verdict that a module forms (R326, R43): a context aborts where any of its participants asks for it; it commits, or opens, where none asks for
an abort and every participant is ready to. It names the next tick.

The verdict rows (R324, R326, R327): VERDICT_FORM keeps the formed verdict for the coming tick and among the last 16, and sends its image where a
port carries the sideband; VERDICT_RECEIVE gives a follower the verdict of the coming tick, and asks again, up to three times in the first half of a
beat, for an image whose CRC fails; VERDICT_REPLY supplies a missing one; VERDICT_TIMEOUT after two beats without an answer sets FAIL;
VERDICT_REQUEST is answered from the last 16 with a CONTROL flit. -/
def Obligations.VerdictRows : Prop :=
  (∀ (s : State) (c : Nat), c < 16 →
    let v := s.formVerdict
    let asks (l : Nat) : Bool := s.markerBit (·.abortReq) c l
    v.tick = s.beat.tick + 1 ∧
    (bitOf v.abortM.toNat c = true ↔ ∃ l ∈ s.participants c, asks l = true) ∧
    (bitOf v.commitM.toNat c = true ↔
      s.participants c ≠ [] ∧ ∀ l ∈ s.participants c, asks l = false ∧ s.markerBit (·.commitReady) c l = true) ∧
    (bitOf v.openM.toNat c = true ↔
      s.participants c ≠ [] ∧ ∀ l ∈ s.participants c, asks l = false ∧ s.markerBit (·.openReady) c l = true)) ∧
  (∀ (s : State) (v : Verdict) (image : List Byte) (p : PortId) (n : Nat), s.live = true →
    (s.forms = true → s.beatEnable = true →
      ∃ u, exec .verdictForm s = .next u ∧ Chg [.board, .outbox] s u ∧ u.board.held = some s.formVerdict ∧
        u.board.recent.head? = some s.formVerdict ∧ u.board.recent.length ≤ 16 ∧
        u.outbox = if s.anyPortUp = true then s.outbox ++ [.verdict (s.formVerdict.image s.board.lid)] else s.outbox) ∧
    (s.forms = false → verdictOk image = true → (verdictOfBytes image).tick = (s.beat.tick + 1) % 2 ^ 48 →
      exec (.verdictReceive p image) s = .next
        { s with board := { s.board with held := some { verdictOfBytes image with tick := s.beat.tick + 1 } } }) ∧
    (s.forms = true ∨ verdictOk image = true ∧ (verdictOfBytes image).tick ≠ (s.beat.tick + 1) % 2 ^ 48 →
      exec (.verdictReceive p image) s = .next s) ∧
    (s.forms = false → verdictOk image = false →
      (2 * s.clk ≤ s.beat.periodEff → smGet 0 s.board.again p.val < 3 →
        ∃ u, exec (.verdictReceive p image) s = .next u ∧ u.outbox = s.outbox ++ [.again p.val] ∧
          smGet 0 u.board.again p.val = smGet 0 s.board.again p.val + 1 ∧ u.board.held = s.board.held) ∧
      (s.beat.periodEff < 2 * s.clk ∨ 3 ≤ smGet 0 s.board.again p.val → exec (.verdictReceive p image) s = .next s)) ∧
    (s.board.missing.contains v.tick = true →
      ∃ u, exec (.verdictReply v) s = .next u ∧ Chg [.board] s u ∧ v.tick ∉ u.board.missing ∧
        ∃ w, u.board.applied = some w ∧ ∀ c, (bitOf v.abortM.toNat c = true → bitOf w.abortM.toNat c = true) ∧
          (bitOf v.commitM.toNat c = true → bitOf w.commitM.toNat c = true) ∧ (bitOf v.openM.toNat c = true → bitOf w.openM.toNat c = true)) ∧
    (s.board.missing.contains v.tick = false → exec (.verdictReply v) s = .next s) ∧
    exec .verdictTimeout s = .next (if s.board.missing ≠ [] ∧ 2 ≤ s.board.missBeats then { s with board := { s.board with fail := true } } else s) ∧
    (∀ w, s.board.recent.find? (fun x => x.tick == n) = some w → s.forms = true → 2 ≤ (s.port p.val).st →
      ∃ u, exec (.verdictRequest p n) s = .next u ∧ Chg [.ports, .outbox] s u ∧
        FlitSent s u p.val { ftype := .control, srcLid := s.board.lid } (w.image s.board.lid) .verdictAnswer) ∧
    (s.board.recent.find? (fun x => x.tick == n) = none → exec (.verdictRequest p n) s = .next s))

/-- The abort wins (R43): where a participating module's marker asks for an abort of the context, the verdict formed from it commits no step of the
context: at its tick STEP_COMMIT does nothing, on every module that applies it. -/
def Obligations.AbortWins : Prop :=
  ∀ (s s1 : State) (c : CtxId) (l : Nat), l ∈ s.participants c.val → s.markerBit (·.abortReq) c.val l = true →
    s1.live = true → s1.board.applied = some s.formVerdict →
    exec (.stepCommit c) s1 = .next s1 ∧ bitOf s.formVerdict.abortM.toNat c.val = true

/-- MARKER_RECEIVE (R20, R21, R23, R324): a marker whose CRC and epoch are good is kept in place of the sender's last one for its tick, and the beat
master's gives a follower its tick number, the next length and the skew, which is the distance of the two ticks less the link's one-way latency; one
of another epoch counts as missing once a beat; one with a bad CRC is not taken, and is asked for again up to three times in the first half of a
beat.

The follower and BEAT_IN (R23, R24). HOLDOVER: a follower that lost the master sets HOLDOVER and logs 0x4007, and every context with a step in
flight asks for an abort. HOLDOVER_CLEAR: after 8 calm beats it clears. BEAT_IN_PULSE within 4 clk of the expected tick is taken as the tick;
HOLDOVER clears after four in a row; any other pulse, and a window without one, sets HOLDOVER and logs 0x4005. -/
def Obligations.MarkerRows : Prop :=
  (∀ (s : State) (p : PortId) (image : List Byte), s.live = true → (s.port p.val).st ≠ 0 → s.standalone = false →
    let m := markerOfBytes image
    (markerOk image = false → 2 * s.clk ≤ s.beat.periodEff → smGet 0 s.board.again p.val < 3 →
      ∃ u, exec (.markerReceive p image) s = .next u ∧ u.outbox = s.outbox ++ [.again p.val] ∧ u.board.markers = s.board.markers ∧
        smGet 0 u.board.again p.val = smGet 0 s.board.again p.val + 1) ∧
    (markerOk image = false → s.beat.periodEff < 2 * s.clk ∨ 3 ≤ smGet 0 s.board.again p.val → exec (.markerReceive p image) s = .next s) ∧
    (markerOk image = true → m.epoch ≠ BitVec.ofNat 16 s.board.epoch.toNat →
      ∃ u, exec (.markerReceive p image) s = .next u ∧ u.board.markers = s.board.markers ∧ u.board.ignored.contains p.val = true ∧
        (s.board.ignored.contains p.val = false → (u.port p.val).markerMiss = min 0xFFFF ((s.port p.val).markerMiss + 1)) ∧ u.beat = s.beat) ∧
    (markerOk image = true → m.epoch = BitVec.ofNat 16 s.board.epoch.toNat →
      ∃ u, exec (.markerReceive p image) s = .next u ∧
        u.board.markers = s.board.markers.filter (fun x => x.srcLid != m.srcLid || x.tick != m.tick) ++ [m] ∧
        (u.port p.val).peerLid = (if m.srcLid ≤ 7 then m.srcLid else 0xF) ∧
        (¬ (s.source = 2 ∧ m.srcLid = 0 ∧ m.master = true) → u.beat = s.beat) ∧
        (s.source = 2 → m.srcLid = 0 → m.master = true →
          let phase : Int := (s.beat.now : Int) - (s.port p.val).lat - s.beat.tickClk
          let hi := s.beat.tick / 2 ^ 48 * 2 ^ 48
          u.beat.measured = true ∧ u.beat.calm = (if -4 ≤ u.beat.skew ∧ u.beat.skew ≤ 4 then s.beat.calm + 1 else 0) ∧
          (2 * phase ≤ s.beat.periodEff →
            u.beat.skew = -phase ∧ u.beat.tick = hi + m.tick ∧ u.beat.nextPeriod = max 1 (m.nextPeriod % 65536) ∧ u.beat.later = s.beat.later) ∧
          (s.beat.periodEff < 2 * phase →
            u.beat.skew = s.beat.periodEff - phase ∧ u.beat.tick = hi + (m.tick - 1) ∧ u.beat.nextPeriod = s.beat.nextPeriod ∧
            u.beat.later = some (max 1 (m.nextPeriod % 65536)))))) ∧
  (∀ (s : State) (n : Nat), s.live = true →
    (s.source = 2 → s.beat.holdover = false → s.masterLost = true →
      ∃ u, exec .holdover s = .next u ∧ u.beat = { s.beat with holdover := true, calm := 0 } ∧ Logged s u 0x4007 ∧
        ∀ c, c < 16 → (s.ctx c).step.flight ≠ [] → ∃ q ∈ (u.ctx c).step.causes, q.code = 0x4007 ∧ q.retry = false) ∧
    (s.source ≠ 2 ∨ s.beat.holdover = true ∨ s.masterLost = false → exec .holdover s = .next s) ∧
    exec .holdoverClear s = .next
      (if s.source = 2 ∧ s.beat.holdover = true ∧ 8 ≤ s.beat.calm then { s with beat := { s.beat with holdover := false } } else s) ∧
    (s.source = 1 → s.beatEnable = true →
      (s.beat.periodEff ≤ n + 4 ∧ n ≤ s.beat.periodEff + 4 →
        exec (.beatInPulse n) s = .next { s with beat := { s.beat with
          pulse := some n, calm := s.beat.calm + 1, holdover := s.beat.holdover && decide (s.beat.calm + 1 < 4) } }) ∧
      (n + 4 < s.beat.periodEff ∨ s.beat.periodEff + 4 < n →
        ∃ u, exec (.beatInPulse n) s = .next u ∧ u.beat = { s.beat with holdover := true, calm := 0 } ∧ Logged s u 0x4005) ∧
      (s.beat.pulse = none →
        ∃ u, exec .beatInErr s = .next u ∧ u.beat = { s.beat with holdover := true, calm := 0 } ∧ Logged s u 0x4005) ∧
      (s.beat.pulse ≠ none → exec .beatInErr s = .next s)) ∧
    (s.source ≠ 1 ∨ s.beatEnable = false → exec (.beatInPulse n) s = .next s ∧ exec .beatInErr s = .next s))

/-- STEP_OPEN where the tick's verdict opens the context's next step (R25-R27): the open step's number goes to the next, its beat number to 0, the one
before it waits to commit, and every stream of the program's tiles that ran in no step starts at program counter 0 of it. Without the verdict's bit
nothing happens, and a third step in flight waits. None opens on a follower in HOLDOVER (R23), nor in a mode in which no context runs (R300). -/
def Obligations.StepOpens : Prop :=
  ∀ (s : State) (c : CtxId) (v : Verdict), s.live = true → s.board.applied = some v →
    let k := (s.ctx c.val).step
    (bitOf v.openM.toNat c.val = false ∨ k.opened = true ∧ k.pending = true → exec (.stepOpen c) s = .next s) ∧
    (bitOf v.openM.toNat c.val = true → ¬ (k.opened = true ∧ k.pending = true) →
      s.source = 2 ∧ s.beat.holdover = true ∨ s.hub.mode ≠ 2 ∧ s.hub.mode ≠ 3 →
      ∃ u, exec (.stepOpen c) s = .next u ∧ Chg [.board] s u ∧ ∃ w, u.board.applied = some w ∧ bitOf w.openM.toNat c.val = false) ∧
    (bitOf v.openM.toNat c.val = true → ¬ (k.opened = true ∧ k.pending = true) → k.more = true → (s.ctx c.val).st = .isOpen →
      ¬ (s.source = 2 ∧ s.beat.holdover = true) → s.hub.mode = 2 ∨ s.hub.mode = 3 →
      ∃ u, exec (.stepOpen c) s = .next u ∧
        let n := if k.waitOpen = true then k.stepNo else k.stepNo + 1
        (u.ctx c.val).step.stepNo = n ∧ (u.ctx c.val).step.opened = true ∧ (u.ctx c.val).step.beatNo = 0 ∧
        (u.ctx c.val).step.pending = (k.pending || k.opened) ∧ (u.ctx c.val).step.retry = k.retryNext ∧
        (∀ c', c' ≠ c.val → u.ctx c' = s.ctx c') ∧
        (∀ t ∈ s.progTiles c.val, ∀ st : Stream, (s.seq t st).run = false → (s.seq t st).plen ≠ 0 →
          (u.seq t st).run = true ∧ (u.seq t st).pc = 0 ∧ (u.seq t st).loops = [] ∧ (u.seq t st).calls = [] ∧ (u.seq t st).seqNo = 0 ∧
          (u.seq t st).stepNo = n) ∧
        (∀ t st, (s.seq t st).run = true → u.seq t st = s.seq t st) ∧
        ∃ w, u.board.applied = some w ∧ bitOf w.openM.toNat c.val = false ∧ w.commitM = v.commitM ∧ w.abortM = v.abortM)

/-- STEP_COMMIT where the tick's verdict commits the context's earliest step n (R45, R74, R197, R437): the step is no longer in flight, SEL flips where
the context has two slots, every transfer of its steps up to n that nothing consumed is released with its tag (those that are done, and posts, are
gone), and the hub's epoch advances. Without the verdict's bit nothing happens. -/
def Obligations.StepCommits : Prop :=
  ∀ (s : State) (c : CtxId) (v : Verdict) (n : Nat) (r : List Nat), s.live = true → s.board.applied = some v →
    (bitOf v.commitM.toNat c.val = false → exec (.stepCommit c) s = .next s) ∧
    (bitOf v.commitM.toNat c.val = true → (s.ctx c.val).step.flight = n :: r →
      let mine (x : Xfer) : Bool := x.ctx == c.val && decide (x.step ≤ n) && !x.consumed && !x.released
      ∃ u, exec (.stepCommit c) s = .next u ∧
        (u.ctx c.val).step.flight = r ∧ (u.ctx c.val).step.lastCommit = n ∧ (u.ctx c.val).step.left = (s.ctx c.val).step.left - 1 ∧
        (u.ctx c.val).sel = (if (s.ctx c.val).oneSlot = true then (s.ctx c.val).sel else !(s.ctx c.val).sel) ∧
        u.xfers = (s.xfers.filter (fun x => !(mine x && (x.done || x.kind == .recvPost)))).map
          (fun x => if mine x = true then { x with released := true, tag := false, req := 0 } else x) ∧
        (∀ x ∈ u.upds, ¬ (x.ctx = c.val ∧ x.step = n ∧ x.stage = .done)) ∧
        u.evt.hubEpoch = (if s.evt.hubEpoch.toNat = 2 ^ 32 - 1 then 1 else s.evt.hubEpoch + 1))

/-- ABORT_TICK where the tick's verdict aborts the context (R35-R42, R88, R496): the steps from the earliest one that a cause names are no longer in
flight; ABORT_CNT rises; ABORT_CODE is the code of the cause that comes first of all, this module's and the participating peers', by clk, then
module, then place, and stays where no cause has a code; the step is opened again as a retry where every cause allows it; no cause is left; and no
transfer, update or signal of an aborted step remains. Without the verdict's bit nothing happens. (That ABORT_CODE stays is the model's choice, log
entry 79.) -/
def Obligations.StepAborts : Prop :=
  ∀ (s : State) (c : CtxId) (v : Verdict) (lo : Nat) (peers : List PeerCause), s.live = true → s.board.applied = some v →
    let k := (s.ctx c.val).step
    let own := k.causes.map (fun x => PeerCause.mk s.ownLid x.clk x.code x.place x.retry)
    let named := (own ++ s.peersOf c.val peers).filter (fun p => p.code != 0)
    (bitOf v.abortM.toNat c.val = false → exec (.abortTick ⟨c, peers⟩) s = .next s) ∧
    (bitOf v.abortM.toNat c.val = true → k.abortFrom = some lo → (∀ f, f < 17 → (s.fn f).busy = none) → (∀ f, f < 16 → (s.fn f).l2 = none) →
      ∃ u, exec (.abortTick ⟨c, peers⟩) s = .next u ∧
        (u.ctx c.val).step.opened = false ∧ (u.ctx c.val).step.stepNo = lo ∧ (u.ctx c.val).step.waitOpen = true ∧
        (∀ n ∈ (u.ctx c.val).step.flight, n < lo) ∧ (u.ctx c.val).step.causes = [] ∧
        (u.ctx c.val).step.abortCnt = min 0xFFFF (k.abortCnt + 1) ∧ (u.ctx c.val).step.retryNext = s.willRetry c.val peers ∧
        (∀ p ∈ named, (∀ q ∈ named, q = p ∨ p.clk < q.clk ∨ p.clk = q.clk ∧ (p.lid < q.lid ∨ p.lid = q.lid ∧ p.place < q.place)) →
          (u.ctx c.val).step.abortCode = p.code) ∧
        (named = [] → s.tornBy c.val k.abortSteps = [] → (u.ctx c.val).step.abortCode = k.abortCode) ∧
        (∀ x ∈ u.xfers, ¬ (x.ctx = c.val ∧ x.step ∈ k.abortSteps)) ∧ (∀ x ∈ u.upds, ¬ (x.ctx = c.val ∧ x.step ∈ k.abortSteps)) ∧
        (∀ x ∈ u.rsigs, ∀ n ∈ k.abortSteps, ¬ (x.ctx = c.val ∧ x.step = some n)))

/-- CFG_STROBE (R405, R407): the groups it names are strobed in the next clk, and nothing else changes in this one. When that clk begins, every register
of a strobed group has in effect the shadow that the clk of the strobe found, and no write of an earlier clk is pending; the others keep both, and a
write in the clk of the strobe stays pending (R408). Group 2 loads the arbiters' LFSRs from the seed then in effect (R308), and a beat generator
that the strobe enables starts at clk 0 of beat 0. (Where no bridge is down; the queue is empty, so one clk passes, log entry 3.)

CFG_STROBE_AT and STROBE_AT_APPLY (R408). The groups of a write without ATTICK, or from BAR0, are armed for the next tick; those of the maltster's
write with ATTICK for the tick named, where it lies ahead. What is due at a tick applies, and nothing is due after it (where no bridge is down).

CFG_INTEG_COMPARE (R414, R415, R436) does nothing outside clk 1 of a running beat. In clk 1, with every enabled group equal to its reference, no
MISMATCH bit stays. With one group that differs for the first time, and neither an abort nor an L3 asked for by EVT_CFG, its bit sets, is counted
and logged with 0xA010. -/
def Obligations.StrobeRows : Prop :=
  (∀ (s : State) (v : Word), s.live = true →
    exec (.cfgStrobe v) s = .next { s with cfg := { s.cfg with strobe := s.cfg.strobe ||| BitVec.ofNat 16 v.toNat } } ∧
    (s.pending = [] → s.clk ≠ 0 ∨ s.beatEnable = false → ¬ (s.beatEnable = true ∧ s.beat.periodEff ≤ s.clk + 1) →
      s.cfg.strobe ≠ 0 → (∀ q, q < 4 → s.qst q = 0) →
      ∃ u, step s = .next u ∧
        (∀ off n, s.groupOf off = some n →
          (bitOf s.cfg.strobe.toNat n = true → u.eff off = s.shadowOf off) ∧ (bitOf s.cfg.strobe.toNat n = false → u.eff off = s.eff off) ∧
          u.shadowOf off = s.shadowNow off ∧
          (bitOf s.cfg.strobe.toNat n = true → s.cfg.shadowNew.all (fun p => p.1 != off) = true →
            u.cfg.shadow.all (fun p => p.1 != off) = true)) ∧
        (bitOf s.cfg.strobe.toNat 2 = true → u.hub.lfsrClk = s.beat.now + 1 ∧ u.hub.lfsrSeed = u.arbSeed) ∧
        (s.beatEnable = false → u.beatEnable = true → u.beat.tick = 0 ∧ u.beat.tickClk = s.beat.now + 1 ∧ u.beat.periodEff = u.period) ∧
        (s.beatEnable = true ∨ u.beatEnable = false →
          u.beat.tick = s.beat.tick ∧ u.beat.tickClk = s.beat.tickClk ∧ u.beat.periodEff = s.beat.periodEff))) ∧
  (∀ (s : State) (v : Word) (maltster : Bool), s.live = true →
    (bitOf v.toNat 48 = false ∨ maltster = false →
      ∃ u, exec (.cfgStrobeAt v maltster) s = .next u ∧ Chg [.cfg] s u ∧ u.cfg.armNext = s.cfg.armNext ||| BitVec.ofNat 16 (bits v.toNat 0 16) ∧
        u.cfg.armAt = s.cfg.armAt ∧ u.cfg.eff = s.cfg.eff ∧ u.cfg.shadow = s.cfg.shadow) ∧
    (bitOf v.toNat 48 = true → maltster = true → tickAfter (bits v.toNat 16 32) s.beat.tick = true →
      ∃ u, exec (.cfgStrobeAt v maltster) s = .next u ∧ Chg [.cfg] s u ∧ u.cfg.armNext = s.cfg.armNext ∧ u.cfg.eff = s.cfg.eff ∧
        ∃ m k, u.cfg.armAt.head? = some (bits v.toNat 16 32, m, k) ∧ ∀ n, n < 16 → bitOf v.toNat n = true → bitOf m.toNat n = true) ∧
    ((∀ q, q < 4 → s.qst q = 0) →
      ∃ u, exec .strobeAtApply s = .next u ∧ u.cfg.due = 0 ∧
        ∀ off n, s.groupOf off = some n →
          (bitOf s.cfg.due.toNat n = true → u.eff off = s.shadowOf off ∧ u.cfg.shadow.all (fun p => p.1 != off) = true) ∧
          (bitOf s.cfg.due.toNat n = false → u.eff off = s.eff off) ∧ u.shadowOf off = s.shadowOf off)) ∧
  (∀ (s : State) (n : Nat), s.live = true →
    let differs (k : Nat) : Bool := bitOf (s.refNow k) 32 && s.cfgCrc k != bits (s.refNow k) 0 32
    (s.clk ≠ 1 ∨ s.beatEnable = false → exec .cfgIntegCompare s = .next s) ∧
    (s.clk = 1 → s.beatEnable = true →
      ((∀ k, k < 16 → differs k = false) → ∃ u, exec .cfgIntegCompare s = .next u ∧ Chg [.cfg] s u ∧ u.cfg.mismatch = 0 ∧
        u.cfg.mismatchCnt = s.cfg.mismatchCnt ∧ u.cfg.eff = s.cfg.eff ∧ u.cfg.shadow = s.cfg.shadow) ∧
      (n < 16 → (∀ k, k < 16 → differs k = true ↔ k = n) → bitOf s.cfg.mismatch.toNat n = false → bits s.evtCfg 8 8 = 0 →
        bitOf s.evtCfg 1 = false ∨ n ≠ 0 ∧ n ≠ 3 →
        ∃ u, exec .cfgIntegCompare s = .next u ∧ Logged s u 0xA010 ∧ (∀ k, k < 16 → bitOf u.cfg.mismatch.toNat k = decide (k = n)) ∧
          u.cfg.mismatchCnt = min 0xFFFF (s.cfg.mismatchCnt + 1) ∧ u.cfg.eff = s.cfg.eff)))

/-- Writes of BAR0 by a function that can be reached (R401, R402, R405, R406, R412): an access of another size or alignment is ignored and counted; a
write of an RW-S register reaches its shadow alone, a 32-bit one its half alone, and neither the value in effect nor what a strobe in this clk finds
changes; a write of the maltster's in the same clk prevails over it. In BEAT_CTL, SOURCE 0b11 leaves SOURCE as it was, and a write that reaches
PERIOD sets the base period (R469). LNK_REMAP is not written by a host. A write of an RW-I register of the device leaves the value in effect in this
clk as it is.

WIN_FLAG_SET (R367, R358): a function that may write WIN_FLAGB_n of function f writes it, in effect from the next clk (R412), but VALID stays 0
where the device refuses the range; one that may not write it changes nothing. -/
def Obligations.RegisterWrites : Prop :=
  (∀ (s : State) (f : FnId) (off size : Nat) (v : Word), s.live = true → s.postReach f.val = true →
    (accessOk off size = false →
      exec (.registerWrite f 0 off size v) s = .next { s with cfg := { s.cfg with badAcc := min 0xFFFF (s.cfg.badAcc + 1) } }) ∧
    (accessOk off size = true → s.regOffset f.val off = none → exec (.registerWrite f 0 off size v) s = .next s) ∧
    (∀ b i, accessOk off size = true → s.regOffset f.val off = some b → s.rws (b / 8 * 8) = some i →
      let a := b / 8 * 8
      let w := if size = 8 then v.toNat else if off % 8 = 0 then setBits (s.shadowNow a) 0 32 v.toNat else setBits (s.shadowNow a) 32 32 v.toNat
      (a = offLnkRemap → exec (.registerWrite f 0 off size v) s = .next s) ∧
      (a ≠ offLnkRemap → ∃ u, exec (.registerWrite f 0 off size v) s = .next u ∧ Chg [.cfg, .pwr] s u ∧ u.cfg.eff = s.cfg.eff ∧
        u.cfg.shadow = s.cfg.shadow ∧ (s.cfg.maltster.contains a = true → u.cfg = s.cfg) ∧
        (s.cfg.maltster.contains a = false →
          u.shadowNow a = (if a = 0x100 ∧ bits w 24 2 = 3 then setBits w 24 2 (bits (s.shadowNow a) 24 2) else w) &&& i.mask) ∧
        (∀ b, b ≠ a → u.shadowNow b = s.shadowNow b) ∧
        u.pwr = if a = 0x100 ∧ off % 8 = 0 then { s.pwr with base := bits w 0 16 } else s.pwr)) ∧
    (∀ b i, accessOk off size = true → s.regOffset f.val off = some b → b / 8 * 8 < 0x1800000 → b / 8 * 8 < 0x100000 ∨ 0x100280 ≤ b / 8 * 8 →
      s.rws (b / 8 * 8) = none → rwiInfo s.variant (b / 8 * 8) = some i →
      let a := b / 8 * 8
      let w := if size = 8 then v.toNat else if off % 8 = 0 then setBits (s.rwiNow a) 0 32 v.toNat else setBits (s.rwiNow a) 32 32 v.toNat
      ∃ u, exec (.registerWrite f 0 off size v) s = .next u ∧ Chg [.rwiNew] s u ∧ u.rwiNow a = w &&& i.mask ∧
        ∀ b, b ≠ a → u.rwiNow b = s.rwiNow b)) ∧
  (∀ (s : State) (g f : FnId) (n : Fin 16) (v : Word), s.live = true →
    (s.postReach g.val = false ∨ mayWriteFn g.val f.val = false → exec (.winFlagSet g f n v) s = .next s) ∧
    (s.postReach g.val = true → mayWriteFn g.val f.val = true →
      let a := 0x1800108 + 0x1000 * f.val + 0x10 * n.val
      ∃ u, exec (.winFlagSet g f n v) s = .next u ∧ Chg [.rwiNew] s u ∧
        u.rwiNow a = (if bitOf v.toNat 16 = true ∧ s.flagRefused f.val n.val v.toNat = true then setBits v.toNat 16 1 0 else v.toNat) &&&
          0x1FFFFFFFFFF ∧
        ∀ off, off ≠ a → u.rwiNow off = s.rwiNow off))

/-- ARB_DRAW. At a hub port, among the present requesters (R306, R307): one of them takes the grant; its loss count becomes 0 and the others' rise by
one, to 255 at the most; where one has reached the age limit the winner is one with the highest count; else a PREEMPT requester wins over the rest
(R310); with nobody present a grant that ends leaves the port free. At a tile's DMA engine, among the streams whose transfers ask: the winner's
earliest transfer makes its next request where the request tags it needs are free, else it waits for them (R259). No draw is held while a grant goes
on, nor in the clk in which one was given.

ARB_PREEMPT at hub port p (R310, R311): a grant of an ordinary requester that the age limit did not force, that began in an earlier clk and that was
not withdrawn is cut when a PREEMPT requester is present: the port counts a restart and a draw is held with the cut requester in it; else nothing
changes.

The bridges (R301-R304) of a hub in NORMAL with the ring enabled. BRIDGE_RETRAIN takes the quadrant to RETRAIN and the hub to DEGRADED; one more
retraining within the hour than RETRAIN_MAX allows, and a self-check fault, take it to OUT. BRIDGE_TRAIN_DONE notes a trained bridge, and the next
tick returns its quadrant to NORMAL, and the hub with it (R302); the third failure in a row takes it to OUT.

A die that no bridge and no ring serves goes OFF (R304, R305, R434): its stacks and kiln groups leave service, FAIL is set, and the contexts of its
tiles ask for an abort. -/
def Obligations.HubRows : Prop :=
  (∀ (s : State) (a : Nat) (ends : Bool) (present : List PortReq), s.live = true →
    let p := presentOf s.variant a (present.map (·.who))
    let loss (v : State) (n : Nat) : Nat := smGet 0 (v.arb a).loss n
    (s.mayDraw a ends = false → exec (.arbDraw a ⟨ends, present⟩) s = .next s) ∧
    (a < 16 → arbOk s.variant a = true → s.mayDraw a ends = true → p = [] →
      ∃ u, exec (.arbDraw a ⟨ends, present⟩) s = .next u ∧ Chg [.arbs] s u ∧ u.arb a = { s.arb a with grant := none }) ∧
    (a < 16 → arbOk s.variant a = true → s.mayDraw a ends = true → p ≠ [] →
      ∃ u g, exec (.arbDraw a ⟨ends, present⟩) s = .next u ∧ Chg [.arbs] s u ∧ (u.arb a).grant = some g ∧ g.clk = s.beat.now ∧ g.gone = false ∧
        g.who ∈ p ∧ g.tx = txOf present g.who ∧ loss u g.who = 0 ∧
        (∀ n ∈ p, n ≠ g.who → loss u n = min 255 (loss s n + 1)) ∧ (∀ n, n ∉ p → loss u n = loss s n) ∧
        (g.forced = true ↔ s.ageLimit ≠ 0 ∧ ∃ n ∈ p, s.ageLimit ≤ loss s n) ∧ (g.forced = true → ∀ n ∈ p, loss s n ≤ loss s g.who) ∧
        (g.forced = false → (∃ n ∈ p, preemptClass a n = true) → preemptClass a g.who = true) ∧ ∀ b, b ≠ a → u.arb b = s.arb b) ∧
    (∀ t, t < 96 → a = 18 + 3 * t → s.mayDraw a ends = true → s.dmaStreams t ≠ [] →
      ∃ u g f, exec (.arbDraw a ⟨ends, present⟩) s = .next u ∧ Chg [.arbs, .xfers, .mig] s u ∧ (u.arb a).grant = some g ∧ g.clk = s.beat.now ∧
        g.who ∈ s.dmaStreams t ∧ s.xfers.find? (fun f => f.tile == t && f.stream == g.who && f.asksDma) = some f ∧
        (s.reqTags f ≤ min s.sharedFree (s.ctxRoom f.ctx) →
          u.xfers = s.xfers.map (fun x => if x.id = f.id then { x with left := x.left - 1, req := x.req + s.reqTags f, reqWait := false } else x)) ∧
        (min s.sharedFree (s.ctxRoom f.ctx) < s.reqTags f →
          u.xfers = s.xfers ∨ u.xfers = s.xfers.map (fun x => if x.id = f.id then { x with reqWait := true } else x)) ∧
        ∀ b, b ≠ a → u.arb b = s.arb b)) ∧
  (∀ (s : State) (p : Nat) (g : Grant) (present : List PortReq), s.live = true → (s.arb p).grant = some g →
    let l := presentOf s.variant p (g.who :: present.map (·.who))
    let cut : Prop := p < 10 ∧ g.forced = false ∧ g.gone = false ∧ g.clk ≠ s.beat.now ∧ preemptClass p g.who = false ∧
      ∃ n ∈ l, preemptClass p n = true
    (cut →
      ∃ u, exec (.arbPreempt p present) s = .next u ∧ Chg [.arbs] s u ∧ (u.arb p).restart = min (2 ^ 32 - 1) ((s.arb p).restart + 1) ∧
        (∃ h, (u.arb p).grant = some h ∧ h.who ∈ l ∧ h.clk = s.beat.now) ∧ ∀ b, b ≠ p → u.arb b = s.arb b) ∧
    (¬ cut → exec (.arbPreempt p present) s = .next s)) ∧
  (∀ (s : State) (q : Quad), s.live = true → s.hub.mode = 2 ∨ s.hub.mode = 3 → s.ringEn = true → (∀ i, i < 4 → i ≠ q.val → s.qst i = 0) →
    (s.qst q.val = 0 →
      (s.retrainsOf q.val < s.retrainMax → ∃ u, exec (.bridgeRetrain q) s = .next u ∧ u.qst q.val = 1 ∧ u.hub.mode = 3 ∧
        u.hub.retrainCnt = min 0xFFFF (s.hub.retrainCnt + 1) ∧ Logged s u 0x2010) ∧
      (s.retrainMax ≤ s.retrainsOf q.val → ∃ u, exec (.bridgeRetrain q) s = .next u ∧ u.qst q.val = 2 ∧ u.hub.mode = 3) ∧
      (∃ u, exec (.quadSelfCheckFault q) s = .next u ∧ u.qst q.val = 2 ∧ u.hub.mode = 3 ∧ Logged s u 0x2011) ∧
      ∀ ok, exec (.bridgeTrainDone q ok) s = .next s) ∧
    (s.qst q.val = 1 →
      (s.hub.trained.contains q.val = true → exec (.bridgeTrainDone q true) s = .next s ∧ exec (.bridgeTrainDone q false) s = .next s ∧
        (s.beatEnable = true → s.board.applied = none → s.cfg.due = 0 → s.cfg.strobe = 0 → s.evt.wdog = false → s.hub.trained = [q.val] →
          ∃ u, exec .tick s = .next u ∧ u.qst q.val = 0 ∧ u.hub.mode = 2 ∧ u.hub.trained = [])) ∧
      (s.hub.trained.contains q.val = false →
      (∃ u, exec (.bridgeTrainDone q true) s = .next u ∧ Chg [.hub] s u ∧ u.qst q.val = 1 ∧ u.hub.trained = s.hub.trained ++ [q.val] ∧
        smGet 0 u.hub.fails q.val = 0) ∧
      (smGet 0 s.hub.fails q.val < 2 → ∃ u, exec (.bridgeTrainDone q false) s = .next u ∧ u.qst q.val = 1 ∧
        smGet 0 u.hub.fails q.val = smGet 0 s.hub.fails q.val + 1 ∧ Chg [.hub] s u) ∧
      (2 ≤ smGet 0 s.hub.fails q.val → ∃ u, exec (.bridgeTrainDone q false) s = .next u ∧ u.qst q.val = 2 ∧ Logged s u 0x2011)))) ∧
  (∀ (s : State) (q : Quad), s.live = true → s.hub.mode = 2 ∨ s.hub.mode = 3 → s.ringEn = false → (∀ i, i < 4 → s.qst i = 0) →
    bitOf s.evtCfg 0 = false →
    ∃ u, exec (.quadSelfCheckFault q) s = .next u ∧ u.qst q.val = 3 ∧ (∀ i, i < 4 → i ≠ q.val → u.qst i = 0) ∧ u.board.fail = true ∧
      (∀ n, n / 2 = q.val → (u.unit n).active = false ∧ (u.unit (8 + n)).active = false) ∧
      ∀ c, c < 16 → (∃ t ∈ s.ctxTiles c, t / 24 = q.val) → (s.ctx c).step.flight ≠ [] →
        ∃ x ∈ (u.ctx c).step.causes, x.code = 0x2012 ∧ x.retry = false)

/-- UNIT_WAKE and UNIT_AWAKE of one unit k that was granted enough beats ago (R438, R465): one that kept nothing starts fresh, in service and out of
quarantine with the reference's epoch; one with kept state and the reference's epoch resumes in service with it. A unit that was not granted, or not
long enough ago, does not change.

PENDING_ENABLE (R440, R441): a tile that drains and has nothing outstanding reaches IDLE: its scratchpad reads 0, its epoch is gone, and a latched
enable puts it in the wake queue; a tile that does not drain, or is not idle, does not change. A draining context with no frame left to release
closes; a function's latched enable clears once no L2 of it is waiting. -/
def Obligations.UnitRows : Prop :=
  (∀ (s : State) (i : UnitId) (k : Nat), s.live = true → unitKeys i = [k] →
    let x := s.unit k
    let waited : Bool := x.waking && decide (x.grantTick + wakeBeats k ≤ s.beat.tick)
    (waited = true → x.kept = false →
      ∃ u, exec (.unitAwake i) s = .next u ∧ (u.unit k).active = true ∧ (u.unit k).waking = false ∧ (u.unit k).quar = false ∧
        (u.unit k).epoch = s.epochRef k ∧ ∀ j, j ≠ k → u.unit j = s.unit j) ∧
    (waited = true → x.kept = true → x.epoch = s.epochRef k → x.wrap = false →
      ∃ u, exec (.unitWake i) s = .next u ∧ (u.unit k).active = true ∧ (u.unit k).waking = false ∧ (u.unit k).epoch = x.epoch ∧
        ∀ j, j ≠ k → u.unit j = s.unit j) ∧
    (waited = true → x.kept = true → x.epoch ≠ s.epochRef k ∨ x.wrap = true → 16 ≤ k → k < 112 →
      ∃ u, exec (.unitWake i) s = .next u ∧ (u.unit k).quar = true ∧ (u.unit k).waking = false ∧ Logged s u 0xA033) ∧
    (waited = false → exec (.unitWake i) s = .next s ∧ exec (.unitAwake i) s = .next s)) ∧
  (∀ (s : State) (t : TileId) (c : CtxId) (f : FnId), s.live = true →
    let k := 16 + t.val
    ((s.unit k).draining = true → s.unitIdle k = true →
      ∃ u, exec (.pendingEnable (.tile t)) s = .next u ∧ (u.unit k).draining = false ∧ (u.unit k).active = false ∧ (u.unit k).pendEn = false ∧
        (u.unit k).epoch = 0 ∧ (∀ o, o < 0x1400000 → memRead u.mem (localKey t.val 0 + o) = 0) ∧
        (∀ a, a < localKey t.val 0 ∨ localKey t.val 0 + 0x1400000 ≤ a → memRead u.mem a = memRead s.mem a) ∧
        ((s.unit k).pendEn = true → (s.unit k).waking = false → u.pwr.queue.contains k = true)) ∧
    ((s.unit k).draining = false ∨ s.unitIdle k = false → exec (.pendingEnable (.tile t)) s = .next s) ∧
    ((s.ctx c.val).releasing = [] → ∃ u, exec (.pendingEnable (.context c)) s = .next u ∧ Chg [.ctxs] s u ∧
      u.ctx c.val = if (s.ctx c.val).st = .draining then { s.ctx c.val with st := .closed } else { s.ctx c.val with pendEn := false }) ∧
    ((s.ctx c.val).releasing ≠ [] → exec (.pendingEnable (.context c)) s = .next s) ∧
    ∃ u, exec (.pendingEnable (.function f)) s = .next u ∧ Chg [.fns] s u ∧ u.fn f.val = { s.fn f.val with pendEn := (s.fn f.val).pendEn && (s.fn f.val).l2.isSome })

/-- POWER_ON of a part without power (R463): it is live, everything of a step is gone, SCRATCH, BANK and BULK read 0, and the anti-rollback counter is
that of the newer of its two records that verifies; at every boot but the first an L4 is counted and recorded. A part with power does not change.

TEST_ENTRY (R300, R458, R491): the part is in TEST with MODE 1 and holds no root, SCRATCH reads 0 while BANK, BULK and the cellar keep what they
hold, no quote is pending, and every context with a step in flight asks for an abort. In TEST it does nothing. -/
def Obligations.PowerOnBoots : Prop :=
  (∀ (s : State) (i : BootInputs), 
    (s.pwr.powered = true → exec (.powerOn i) s = .next s) ∧
    (s.pwr.powered = false →
      ∃ u, exec (.powerOn i) s = .next u ∧ u.live = true ∧ u.tiles = [] ∧ u.ctxs = [] ∧ u.xfers = [] ∧ u.upds = [] ∧ u.contribs = [] ∧ u.rsigs = [] ∧
        (∀ a, a < 3 * 2 ^ 46 → memRead u.mem a = 0) ∧
        (i.ctrOk = true ∨ i.ctrOldOk = false → u.boot.ctr = s.boot.ctr) ∧ (i.ctrOk = false → i.ctrOldOk = true → u.boot.ctr = s.boot.ctrOld) ∧
        u.variant = s.variant ∧
        (s.boot.boots ≠ 0 → u.evt.l4Cnt = min 0xFFFF (s.evt.l4Cnt + 1) ∧ u.evt.rstLevel = 4 ∧ u.evt.rstCode = s.evt.l4Code))) ∧
  (∀ s : State, s.live = true →
    (s.boot.test = true → exec .testEntry s = .next s) ∧
    (s.boot.test = false → ∃ u, exec .testEntry s = .next u ∧ u.boot.test = true ∧ u.boot.rootHeld = false ∧ u.hub.mode = 1 ∧
      (∀ a, a < 2 ^ 46 → memRead u.mem a = 0) ∧ (∀ a, 2 ^ 46 ≤ a → memRead u.mem a = memRead s.mem a) ∧
      (∀ f, (u.fn f).quote = []) ∧
      ∀ c, c < 16 → (s.ctx c).step.flight ≠ [] → ∃ q ∈ (u.ctx c).step.causes, q.code = 0x8009 ∧ q.retry = false))

/-- VIN_RANGE of a part with power (R460, R461): below 42.0 V or above 63.0 V every rail is removed; outside 44 to 60 V the flag sets, and is logged
when it sets; else it clears. RAIL_FAULT (R462): the core rails are removed with what they feed, FAIL is set, and L4 is requested.

THERMAL_EVAL (R469, R470): the stretch level rises by one, to 16 at the most, where TJ_MAX is at least 95.0 °C or the mean power above 1,400 W; it
falls by one where TJ_MAX is below 90.0 °C and the mean below 1,330 W; else it stays. PERIOD of BEAT_CTL's shadow becomes min(65,535, B + floor(B ×
k ÷ 16)) for the level k that governs; a follower whose port to the master is not DOWN tells it its new level in a CONTROL flit. STRETCH_REPORT
gives a beat master a follower's level.

POWER_PEAK (R471): above 1,700 W admission stops, and 0x9004 is logged when the stop begins; below 1,400 W the stop ends, with its beat where it
began in this one; between the two it stays as it is.

COOLANT_HIGH logs 0x9007 once (R472). CLK_LOSS logs, requests L4 and stops the part (R475). WATCHDOG logs 0xA030 once and sets FAIL (R435).
L4_REQUEST sets REQ_L4 and keeps the cause of the first request (R435). -/
def Obligations.PowerRows : Prop :=
  (∀ (s : State) (mv rail : Nat), s.pwr.powered = true →
    (mv < 42000 ∨ 63000 < mv →
      exec (.vinRange mv) s = .next { s with pwr := { s.pwr with vin := mv / 10, powered := false, coreRails := false, pwrOk := false, vinRange := true } }) ∧
    (42000 ≤ mv → mv < 44000 ∨ 60000 < mv → mv ≤ 63000 →
      ∃ u, exec (.vinRange mv) s = .next u ∧ u.pwr = { s.pwr with vin := mv / 10, vinRange := true } ∧
        if s.pwr.vinRange = true then u.evt = s.evt else Logged s u 0x9001) ∧
    (44000 ≤ mv → mv ≤ 60000 → exec (.vinRange mv) s = .next { s with pwr := { s.pwr with vin := mv / 10, vinRange := false } }) ∧
    (s.pwr.clkOk = true → s.pwr.coreRails = true →
      ∃ u, exec (.railFault rail) s = .next u ∧ u.pwr.coreRails = false ∧ u.board.fail = true ∧ u.evt.reqL4 = true ∧
        (∀ k, k < 120 → unitFitted s.variant k = true → u.unit k = {}) ∧
        ∀ c, c < 16 → (s.ctx c).step.flight ≠ [] → ∃ q ∈ (u.ctx c).step.causes, q.code = 0x9002 ∧ q.retry = false) ∧
    (s.pwr.coreRails = false → exec (.railFault rail) s = .next s)) ∧
  (∀ (s : State) (w tj : Nat) (byPower : Bool) (l : Lid) (k : Nat), s.live = true →
    (∃ u, exec (.thermalEval w tj byPower) s = .next u ∧
      u.pwr.k = (if 950 ≤ tj ∨ 1400 < w then min 16 (s.pwr.k + 1) else if tj < 900 ∧ w < 1330 then s.pwr.k - 1 else s.pwr.k) ∧
      u.pwr.pin = w % 2 ^ 16 ∧ u.pwr.tj = tj % 2 ^ 11 ∧
      bits (u.shadowNow 0x100) 0 16 = min 65535 (s.pwr.base + s.pwr.base * u.stretchLevel / 16) ∧
      (s.pwr.k ≠ u.pwr.k → 1 ≤ s.board.lid → s.board.lid ≤ 7 → s.linked (s.portOfLid 0) = true →
        Msg.flit (s.portOfLid 0) (mkFlit { ftype := .control, lseq := (s.port (s.portOfLid 0)).txSeq, srcLid := s.board.lid }
          (toBytes 4 u.pwr.k) .stretch) ∈ u.outbox)) ∧
    (s.board.lid = 0 → l.val ≠ 0 → k ≤ 16 →
      ∃ u, exec (.stretchReport l k) s = .next u ∧ u.board.ks = smSet 0 s.board.ks l.val k ∧
        bits (u.shadowNow 0x100) 0 16 = min 65535 (s.pwr.base + s.pwr.base * u.stretchLevel / 16)) ∧
    (s.board.lid ≠ 0 ∨ l.val = 0 ∨ 16 < k → exec (.stretchReport l k) s = .next s)) ∧
  (∀ (s : State) (w : Nat), s.live = true →
    (1700 < w → ∃ u, exec (.powerPeak w) s = .next u ∧ u.pwr.peak = true ∧ u.pwr.peakEnd = false ∧ u.admissionStopped = true ∧
      (s.pwr.peak = false → Logged s u 0x9004 ∧ u.pwr.peakTick = s.beat.tick) ∧ (s.pwr.peak = true → u.evt = s.evt)) ∧
    (w < 1400 → ∃ u, exec (.powerPeak w) s = .next u ∧ Chg [.pwr] s u ∧
      (s.pwr.peak = true → s.pwr.peakTick ≠ s.beat.tick → u.pwr.peak = false) ∧
      (s.pwr.peak = true → s.pwr.peakTick = s.beat.tick → u.pwr.peak = true ∧ u.pwr.peakEnd = true)) ∧
    (1400 ≤ w → w ≤ 1700 → ∃ u, exec (.powerPeak w) s = .next u ∧ Chg [.pwr] s u ∧ u.pwr.peak = s.pwr.peak ∧ u.pwr.peakEnd = s.pwr.peakEnd)) ∧
  (∀ (s : State) (code : BitVec 16), s.live = true →
    (∃ u, exec .coolantHigh s = .next u ∧ u.pwr.tcool = max s.pwr.tcool 451 ∧ u.pwr.coolLogged = true ∧
      if s.pwr.coolLogged = true then u.evt = s.evt else Logged s u 0x9007) ∧
    (∃ u, exec .clkLoss s = .next u ∧ u.pwr.clkOk = false ∧ u.live = false ∧ u.evt.reqL4 = true) ∧
    (∃ u, exec .watchdog s = .next u ∧ u.evt.wdog = true ∧
      if s.evt.wdog = true then u = s else u.evt.wdogTicks = 0 ∧ u.board.fail = true ∧ Logged s u 0xA030) ∧
    ∃ u, exec (.l4Request code) s = .next u ∧ u.evt.reqL4 = true ∧
      if s.evt.reqL4 = true then u = s else u.evt.l4Code = code ∧ Logged s u 0xA032)

/-- L3 of the device for a cause (R428, R433): LEVEL_L3, and MALTSTER_UE with 0xA035. Every tile, transfer, update and signal is gone and SCRATCH reads
0; RST_LEVEL, the cause and the count of L3s are kept; without MOD_KEEP every context is closed and BANK and BULK read 0 too; with it an open
context is FROZEN with its owner noted (R431).

Held resets (R472, R476-R478). MOD_RST for at least 10 µs, and THERM_TRIP, take L3 and hold the core, each until its own release; where both hold,
each release leaves the other. THERM_TRIP_RELEASE takes effect below 95.0 °C; THERM_TRIP_TIMEOUT requests L4 while the compute dies still wait to
cool. -/
def Obligations.DeviceResets : Prop :=
  (∀ (s : State) (cause : BitVec 16), s.live = true →
    ∀ p ∈ [(Instr.levelL3 cause, cause), (.maltsterUe, 0xA035)],
      ∃ u, exec p.1 s = .next u ∧ u.tiles = [] ∧ u.xfers = [] ∧ u.upds = [] ∧ u.rsigs = [] ∧ u.contribs = [] ∧ u.live = true ∧
        u.evt.rstLevel = 3 ∧ u.evt.rstCode = p.2 ∧ u.evt.l3Cnt = min 0xFFFF (s.evt.l3Cnt + 1) ∧
        (∀ a, a < 2 ^ 46 → memRead u.mem a = 0) ∧
        if s.modKeep = true then
          ∀ c, c < 16 → (s.ctx c).st = .isOpen →
            (u.ctx c).st = .isOpen ∧ (u.ctx c).frozen = true ∧ (u.ctx c).orig = (s.ctx c).owner ∧ (u.ctx c).prog = none
        else u.ctxs = [] ∧ ∀ a, a < 3 * 2 ^ 46 → memRead u.mem a = 0) ∧
  (∀ (s : State) (us tj : Nat), s.pwr.powered = true → s.pwr.clkOk = true →
    (us < 10 → exec (.modRst us) s = .next s) ∧
    (10 ≤ us → ∃ u, exec (.modRst us) s = .next u ∧
      (s.pwr.l3 = .none → u.pwr.l3 = .heldReset ∧ u.tiles = [] ∧ u.evt.rstLevel = 3) ∧
      (s.pwr.l3 = .heldTrip → u.pwr.l3 = .heldBoth) ∧ (s.pwr.l3 = .heldReset ∨ s.pwr.l3 = .heldBoth → u = s)) ∧
    (∃ u, exec .thermTrip s = .next u ∧
      (s.pwr.l3 = .none → u.pwr.l3 = .heldTrip ∧ u.tiles = [] ∧ u.evt.rstLevel = 3 ∧ u.evt.rstCode = 0x9006) ∧
      (s.pwr.l3 = .heldReset → u.pwr.l3 = .heldBoth) ∧ (s.pwr.l3 = .heldTrip ∨ s.pwr.l3 = .heldBoth → u.pwr.l3 = s.pwr.l3)) ∧
    (∃ u, exec .modRstRelease s = .next u ∧
      (s.pwr.l3 = .heldReset → u.pwr.l3 = .none ∧ u.live = true) ∧ (s.pwr.l3 = .heldBoth → u.pwr.l3 = .heldTrip) ∧
      (s.pwr.l3 = .none ∨ s.pwr.l3 = .heldTrip → u = s)) ∧
    (tj < 950 → ∃ u, exec (.thermTripRelease tj) s = .next u ∧ u.pwr.tj = tj % 2 ^ 11 ∧
      (s.pwr.l3 = .heldTrip → u.pwr.l3 = .none ∧ u.live = true) ∧ (s.pwr.l3 = .heldBoth → u.pwr.l3 = .heldReset)) ∧
    (950 ≤ tj → exec (.thermTripRelease tj) s = .next { s with pwr := { s.pwr with tj := tj % 2 ^ 11 } }) ∧
    ∃ u, exec .thermTripTimeout s = .next u ∧ (s.pwr.l3 = .heldTrip ∨ s.pwr.l3 = .heldBoth → u.evt.reqL4 = true) ∧
      (s.pwr.l3 = .none ∨ s.pwr.l3 = .heldReset → u = s))

/-- FLIT_RECEIVE on a port that is up (R318, R332, R335, R337): a flit whose CRC fails is NAKed with the sequence number expected; one out of order is
dropped; the next in order is taken: a DATA flit that begins a send no post names is answered NOT_POSTED and counted, one that a post names joins
the port's list, and so does a LEDGER flit that begins a contribution; the last flit of a send of the post's size makes the post whole; a CONTROL
flit of the board's map names it for its tick; a TAKEOVER flit lands only on the module that takes the logical ID over, and the last one of a
transfer counts in PROGRESS (R343, R349).

LINK_NAK (R318): every flit of the replay buffer from the number on goes out again, in order, and a retry is counted; past the limit of replays the
port retrains. NOT_POSTED (R335): the send of that tag whose peer is behind the port owes that peer its flits again. -/
def Obligations.FlitRows : Prop :=
  (∀ (s : State) (p : PortId) (f : Flit), s.live = true → 2 ≤ (s.port p.val).st →
    (f.crcOk = false → exec (.flitReceive p f) s = .next { s with outbox := s.outbox ++ [.nak p.val (s.port p.val).rxSeq] }) ∧
    (f.crcOk = true → f.lseq ≠ (s.port p.val).rxSeq → exec (.flitReceive p f) s = .next s) ∧
    (f.crcOk = true → f.lseq = (s.port p.val).rxSeq → ∃ u, exec (.flitReceive p f) s = .next u ∧
      (u.port p.val).rxSeq = ((s.port p.val).rxSeq + 1) % 4096 ∧ (∀ q, q ≠ p.val → u.port q = s.port q) ∧
      (f.ftype = some .data → s.postFor f = none → f.first = true →
        (u.port p.val).notPosted = min 0xFFFF ((s.port p.val).notPosted + 1) ∧ u.outbox = s.outbox ++ [.notPosted p.val f.tag] ∧
        (u.port p.val).rx = (s.port p.val).rx) ∧
      (f.ftype = some .data → (s.postFor f).isSome = true → f.first = true → f.last = false →
        (u.port p.val).rx = (s.port p.val).rx.filter (fun g => !sameXfer g f) ++ [f] ∧ u.xfers = s.xfers) ∧
      (∀ x, f.ftype = some .data → s.postFor f = some x → f.first = true → f.last = true →
        sendRows f.desc * sendRlen f.desc = postRows x.desc * postRlen x.desc →
        u.xfers = s.xfers.map (fun y => if y.id = x.id then { y with got := 1 } else y)) ∧
      (f.ftype = some .control → f.note = .remap → s.standalone = false →
        u.board.remapAt.map (·.1) = some (ofBytes (f.payload.take 8))) ∧
      (f.ftype = some .takeover → u.board.progress = (if f.last = true then (s.board.progress + 1) % 2 ^ 32 else s.board.progress) ∧
        (s.board.phase ≠ 3 ∨ s.board.lid ≠ s.board.flid → u.mem = s.mem ∧ u.poison = s.poison)) ∧
      (f.ftype = some .ledger → f.first = true → f.last = false →
        (u.port p.val).rx = (s.port p.val).rx.filter (fun g => !sameXfer g f) ++ [f] ∧ u.contribs = s.contribs))) ∧
  (∀ (s : State) (p : PortId) (n : Nat), s.live = true →
    (2 ≤ (s.port p.val).st →
      let again := (s.port p.val).replay.dropWhile (fun f => f.lseq != n)
      (again = [] → exec (.linkNak p n) s = .next s) ∧
      (again ≠ [] → ∃ u, exec (.linkNak p n) s = .next u ∧ Chg [.ports, .outbox] s u ∧ u.outbox = s.outbox ++ again.map (fun f => .flit p.val f) ∧
        (u.port p.val).crcRetry = min (2 ^ 32 - 1) ((s.port p.val).crcRetry + 1) ∧ (u.port p.val).replay = (s.port p.val).replay ∧
        (∀ q, q ≠ p.val → u.port q = s.port q) ∧
        (bits (s.lnkPcfg p.val) 16 16 < (s.port p.val).replays + 1 →
          (u.port p.val).st = 1 ∧ (u.port p.val).retrain = min 0xFFFF ((s.port p.val).retrain + 1)) ∧
        ((s.port p.val).replays + 1 ≤ bits (s.lnkPcfg p.val) 16 16 → (u.port p.val).st = (s.port p.val).st))) ∧
    (∀ x, s.xfers.find? (fun f => f.kind == .linkSend && !f.done && !sendLedger f.desc && dfield f.desc 88 8 == n &&
        (sendPeers f.desc).any (fun l => s.portOfLid l == p.val && bitOf f.got l)) = some x → (∀ y ∈ s.xfers, y.id = x.id → y = x) →
      ∃ u, exec (.notPosted p n) s = .next u ∧ Chg [.xfers] s u ∧ ∃ y ∈ u.xfers, y.id = x.id ∧ y.resends = x.resends + 1 ∧
        (∀ l ∈ sendPeers x.desc, s.portOfLid l = p.val → bitOf y.got l = false) ∧
        ∀ l, (s.portOfLid l ≠ p.val ∨ l ∉ sendPeers x.desc) → bitOf y.got l = bitOf x.got l))

/-- Ports (R318-R322): PORT_DOWN takes a port DOWN with what it carried gone, and the steps of the contexts in which both modules take part ask for an
abort; LANE_DEGRADED with four whole lanes and degraded operation allowed goes on at STATE 3; LINK_TRAINING_DONE at full width brings an enabled
port UP with its peer; a miscabled port stays DOWN and 0x5004 is logged.

PEER_FAILED and SPARE_LOST (R328, R342, R343, R345, R346). A logical ID that may be declared failed is marked FAILED: with AUTO and a spare in
service the takeover starts, its map named for 10 ticks on; without a spare it fails; without AUTO nothing is mapped. A spare that fails leaves
service, and a takeover under way fails. What may not be declared failed changes nothing. -/
def Obligations.PortRows : Prop :=
  (∀ (s : State) (p : PortId) (lanes : BitVec 8) (r : Training), s.live = true →
    (∃ u, exec (.portDown p) s = .next u ∧ (u.port p.val).st = 0 ∧ (∀ q, q ≠ p.val → u.port q = s.port q) ∧
      ((s.port p.val).st ≠ 0 → (u.port p.val).replay = [] ∧ (u.port p.val).rx = [] ∧ (u.port p.val).txSeq = 0 ∧ (u.port p.val).rxSeq = 0) ∧
      ∀ l c, (s.port p.val).st ≠ 0 → s.lidOfPort p.val = some l → s.standalone = false → s.board.lid < 8 → c ∈ s.ctxsOf l →
        s.board.lid ∈ s.participants c → (s.ctx c).step.flight ≠ [] → ∃ x ∈ (u.ctx c).step.causes, x.code = 0x5003 ∧ x.retry = false) ∧
    ((s.port p.val).st ≠ 0 → lanes ≠ 0xFF → bitOf (s.lnkPcfg p.val) 1 = true → bits lanes.toNat 0 4 = 15 ∨ bits lanes.toNat 4 4 = 15 →
      ∃ u, exec (.laneDegraded p lanes) s = .next u ∧ (u.port p.val).st = 3 ∧
        (u.port p.val).lanesOk = (if bits lanes.toNat 0 4 = 15 then 0x0F else 0xF0) ∧ Logged s u 0x5002) ∧
    ((s.unit (112 + p.val)).active = true → bitOf (s.lnkPcfg p.val) 0 = true →
      (r.reordered = false → s.miscabled p.val r = false → r.lanesOk = 0xFF →
        ∃ u, exec (.linkTrainingDone p r) s = .next u ∧ Chg [.ports] s u ∧ (u.port p.val).st = 2 ∧ (u.port p.val).lanesOk = 0xFF ∧
          (u.port p.val).peerSlot = r.peerSlot ∧ (u.port p.val).lat = r.lat % 65536 ∧ (u.port p.val).peerLid = (if r.peerLid ≤ 7 then r.peerLid else 0xF) ∧
          ∀ q, q ≠ p.val → u.port q = s.port q) ∧
      (r.reordered = true ∨ s.miscabled p.val r = true →
        ∃ u, exec (.linkTrainingDone p r) s = .next u ∧ (u.port p.val).st = 0 ∧ ∃ e, u.evt.log.head? = some e ∧ e.code = 0x5004)) ∧
    ((s.unit (112 + p.val)).active = false ∨ bitOf (s.lnkPcfg p.val) 0 = false → exec (.linkTrainingDone p r) s = .next s)) ∧
  (∀ (s : State) (l : Lid), s.live = true →
    (s.seemsFailed l.val = false → exec (.peerFailed l) s = .next s) ∧
    (s.seemsFailed l.val = true → ∃ u, exec (.peerFailed l) s = .next u ∧ bitOf u.board.failed.toNat l.val = true ∧
      (s.tkoRuns = false → s.board.auto = true → s.board.spareOk = true →
        u.board.phase = 1 ∧ u.board.flid = l.val ∧ u.board.remapAt.map (·.1) = some (s.beat.tick + 10)) ∧
      (s.tkoRuns = true ∨ s.board.auto = true ∧ s.board.spareOk = false ∧ s.isSpare = false → u.board.phase = 6 ∧ u.board.remapAt = none) ∧
      (s.tkoRuns = false → s.board.auto = false → u.board.phase = s.board.phase ∧ u.board.remapAt = s.board.remapAt) ∧
      ∀ c ∈ s.ctxsOf l.val, s.tkoRuns = false → s.board.auto = false → (s.ctx c).step.flight ≠ [] →
        ∃ x ∈ (u.ctx c).step.causes, x.code = 0x5007 ∧ x.retry = false) ∧
    (s.seemsFailed 8 = false → exec .spareLost s = .next s) ∧
    (s.seemsFailed 8 = true → ∃ u, exec .spareLost s = .next u ∧ u.board.spareOk = false ∧
      if s.tkoRuns = true then u.board.phase = 6 ∧ u.board.remapAt = none else Logged s u 0x500B))

/-- REMAP_APPLY at its tick and the takeover's rows (R323, R329, R342, R343). The map names this module's logical ID by its slot, LNK_BOARD.EPOCH rises
by one, the map is no longer to come, and a takeover goes to phase 3, with the spare no longer in service as such; before its tick nothing changes.
TAKEOVER_STREAM_DONE takes a module that is no new holder to phase 4; TAKEOVER_DONE ends phase 4, counts the takeover, clears the failed bit and
logs 0x5009. -/
def Obligations.TakeoverRows : Prop :=
  ∀ (s : State) (sel : Bool), s.live = true →
    (s.board.remapAt = none → exec .remapApply s = .next s) ∧
    (∀ tr slots spare, s.board.remapAt = some (tr, slots, spare) →
      (s.beat.tick < tr → exec .remapApply s = .next s) ∧
      (tr ≤ s.beat.tick → (∀ f, f < 17 → (s.fn f).busy = none) → ∃ u, exec .remapApply s = .next u ∧ u.board.remapAt = none ∧
        u.board.epoch = s.board.epoch + 1 ∧
        u.board.lid = (match (List.range 8).find? (fun l => slots.getD l 0xF == s.board.slot) with
          | some l => l
          | none => if spare = s.board.slot then 0xF else s.board.lid) ∧
        (s.board.phase = 1 ∨ s.board.phase = 2 → u.board.phase = 3 ∧ u.board.spareOk = false))) ∧
    (s.board.phase ≠ 3 ∨ s.board.sourcesMissing = true → exec (.takeoverStreamDone sel) s = .next s) ∧
    (s.board.phase = 3 → s.board.sourcesMissing = false →
      ∃ u, exec (.takeoverStreamDone sel) s = .next u ∧ u.board.tkoSel = sel ∧
        (s.board.lid ≠ s.board.flid → u.board.phase = 4 ∧ u.ctxs = s.ctxs) ∧
        (s.board.lid = s.board.flid → s.sourceFresh s.board.flid = none → u.board.phase = 4 ∧ ∀ c ∈ s.ctxsOf s.board.flid, (u.ctx c).sel = sel)) ∧
    (s.board.phase ≠ 4 → exec .takeoverDone s = .next s) ∧
    (s.board.phase = 4 → ∃ u, exec .takeoverDone s = .next u ∧ u.board.phase = 5 ∧ u.board.takeovers = min 0xFFFF (s.board.takeovers + 1) ∧
      Logged s u 0x5009 ∧ (s.board.flid < 9 → bitOf u.board.failed.toNat s.board.flid = false))

/-- WINDOW_WRITE by a function that owns an open context (R359-R361), of plain bytes within one 4 KiB slot of a granule that is settled in BANK or BULK,
that can be reached and holds a PLAIN slot: exactly those bytes change. An access outside the mapped memory, or to a FROZEN context, is dropped and
counted; a function without a context counts it; a write past the window does not arrive.

WINDOW_READ (R359, R361, Table 15-5): of memory of the function's context that is mapped and good it is answered with the bytes there; where a word
is poisoned the answer is poisoned; where its request needs a tag and none is free to it, it waits and is counted (R261); outside mapped memory it
is a Completer Abort; without a context, or FROZEN, an Unsupported Request.

FLAG_VISIBLE (R366-R368): the only held write, a flag write of function f in range n whose granules nothing blocks, lands: it is held no longer, it
is counted once, and each of its ranges that names a semaphore puts a signal of 1 in flight to its tile. With no held write nothing changes. -/
def Obligations.WindowRows : Prop :=
  (∀ (s : State) (f : FnId) (off rid : Nat) (data : List Byte) (ro : Bool), s.live = true → s.fnReach f.val = true → s.credits (f.val / 8) = true →
    data ≠ [] →
    (s.winSize f.val ≤ off → exec (.windowWrite f off data rid ⟨ro, false⟩ []) s = .next s) ∧
    (off < s.winSize f.val →
      (s.fnCtx f.val = none → ∃ u, exec (.windowWrite f off data rid ⟨ro, false⟩ []) s = .next u ∧ Chg [.fns] s u ∧
        (u.fn f.val).winErr = min (2 ^ 24 - 1) ((s.fn f.val).winErr + 1)) ∧
      ∀ c, s.fnCtx f.val = some c →
        let ca := s.winBase f.val + off
        ((s.ctx c).frozen = true ∨ s.winMapped c ca data.length = false →
          ∃ u, exec (.windowWrite f off data rid ⟨ro, false⟩ []) s = .next u ∧ u.mem = s.mem ∧ u.heldWrites = s.heldWrites ∧
            (u.fn f.val).winErr = min (2 ^ 24 - 1) ((s.fn f.val).winErr + 1)) ∧
        ∀ lgn k, (s.ctx c).frozen = false → s.winMapped c ca data.length = true → s.guarded c (ca / granule) = false →
          ca / 4096 = (ca + data.length - 1) / 4096 → s.translate c ca = .mem lgn k → (s.pent lgn).mstate = 0 → (s.pent lgn).tier ≠ 3 →
          (s.pent lgn).fresh = false → s.hdrAt k = 0 → s.caCut c ca = false → s.flagsAt f.val ca data.length = [] → s.heldWrites = [] →
          ∃ u, exec (.windowWrite f off data rid ⟨ro, false⟩ []) s = .next u ∧ u.mem = memWriteList s.mem k data ∧ u.heldWrites = [] ∧ u.fns = s.fns ∧
            u.evt = s.evt)) ∧
  (∀ (s : State) (f : FnId) (off len : Nat), s.live = true → s.fnReach f.val = true →
    (s.winSize f.val ≤ off → exec (.windowRead f off ⟨len, []⟩) s = .next s) ∧
    (off < s.winSize f.val →
      (s.fnCtx f.val = none → ∃ u, exec (.windowRead f off ⟨len, []⟩) s = .next u ∧ u.outbox = s.outbox ++ [.windowUR f.val] ∧ u.mem = s.mem) ∧
      ∀ c, s.fnCtx f.val = some c →
        let ca := s.winBase f.val + off
        ((s.ctx c).frozen = true → ∃ u, exec (.windowRead f off ⟨len, []⟩) s = .next u ∧ u.outbox = s.outbox ++ [.windowUR f.val] ∧ u.mem = s.mem) ∧
        ((s.ctx c).frozen = false → s.winMapped c ca len = false →
          ∃ u, exec (.windowRead f off ⟨len, []⟩) s = .next u ∧ u.outbox.getLast? = some (.windowCA f.val) ∧ u.mem = s.mem) ∧
        ((s.ctx c).frozen = false → s.winMapped c ca len = true → (∀ p ∈ granulePieces ca len, s.isHost c p.1 = false) →
          s.windowTags c ca len = true → s.hostTagRoom c = 0 →
          exec (.windowRead f off ⟨len, []⟩) s = .next { s with mig := { s.mig with waits := min (2 ^ 48 - 1) (s.mig.waits + 1) } }) ∧
        ((s.ctx c).frozen = false → s.winMapped c ca len = true → (∀ p ∈ granulePieces ca len, s.isHost c p.1 = false) →
          s.windowTags c ca len = false ∨ 0 < s.hostTagRoom c →
          ∃ u, exec (.windowRead f off ⟨len, []⟩) s = .next u ∧ u.mem = s.mem ∧
            u.outbox.getLast? = some (.windowData f.val ((List.range len).map (fun i => s.winByte c (ca + i))) (s.rdCaPoison c ca len))))) ∧
  (∀ (s : State) (f : FnId) (n : Fin 16) (w : HeldWrite), s.live = true →
    (s.heldWrites = [] → exec (.flagVisible f n) s = .next s) ∧
    (s.heldWrites = [w] → w.fn = f.val → w.flags.contains n.val = true → s.writeBlocks w.ctx w.ca w.data.length = [] →
      s.mappedOk w.ctx w.ca w.data.length = true → (∀ p ∈ granulePieces w.ca w.data.length, s.isHost w.ctx p.1 = false) →
      ∃ u, exec (.flagVisible f n) s = .next u ∧ u.heldWrites = [] ∧ (u.fn f.val).flags = min (2 ^ 24 - 1) ((s.fn f.val).flags + 1) ∧
        u.rsigs = s.rsigs ++ ((w.flags.filter (fun k => bitOf (s.winFlagB f.val k) 18)).map (fun k =>
          (⟨bits (s.winFlagB f.val k) 19 7, bits (s.winFlagB f.val k) 26 8, 1, w.ctx, none, none⟩ : RSig)))))

/-- MOVE_START (R251, R254, R255, R260): the first queued move, of a granule that is settled, unpinned, within reach and not in use by another move, to
a tier its region allows that has room, starts where it needs no request tag or finds one: the granule goes to PROMOTING or EVICTING with DTIER and
DLOC set. With no queued move nothing happens.

MOVE_COMPLETE (R255, R437) of a move to BANK or BULK of a granule that is not FRESH, with no update and no write waiting: in one clk the granule's
TIER and LOC become the move's, its EPOCH rises by one, its bytes read in the new frame as they read in the old one, and the hub's epoch advances.
With no move of the granule in progress nothing changes. -/
def Obligations.MoveRows : Prop :=
  (∀ (s : State) (m : Move) (rest : List Move) (r : Region) (f : Nat), s.live = true →
    let b := s.askRoom
    (s.mig.moves.all (·.started) = true → exec .moveStart s = .next b) ∧
    (b.moveQueue = m :: rest → b.regionOfLgn (s.pent m.lgn).ctx m.lgn = some r →
      let e := s.pent m.lgn
      let mask := b.moveMask r m.cls m.target
      e.tier ≠ 0 → e.tier ≠ m.target → e.mstate = 0 → e.pinned = false → m.cls ≠ 0 → m.target ≤ r.bottom → r.top ≤ m.target →
      b.frameCut e.tier e.loc = false → s.mig.moves.any (fun x => x.forLgn == some m.lgn) = false → s.mig.moves.countP (·.started) < 512 →
      s.mig.moves.countP (fun x => x.started && (s.pent x.lgn).ctx == e.ctx) < max 1 (bits s.migCfg 24 10) →
      b.tagless m = true ∨ 0 < b.moveTagRoom e.ctx → b.room e.ctx r m.target mask = true → b.pickFrame m.target mask = some f →
      ∃ u, exec .moveStart s = .next u ∧
        u.pent m.lgn = { e with mstate := if m.target < e.tier then 1 else 2, dtier := m.target, dloc := f } ∧
        (∀ l, l ≠ m.lgn → u.pent l = s.pent l) ∧
        (∃ x ∈ u.mig.moves, x.lgn = m.lgn ∧ x.target = m.target ∧ x.started = true ∧
          x.tags = if b.tagless m = true then 0 else min (max 1 (bits s.migCfg 34 5)) (b.moveTagRoom e.ctx)) ∧ u.mem = s.mem)) ∧
  (∀ (s : State) (lgn : Nat) (m : Move), s.live = true → s.Sound →
    (s.moveOf lgn = none → exec (.moveComplete lgn) s = .next s) ∧
    (s.moveOf lgn = some m → s.upds = [] → s.heldWrites = [] → m.forLgn = none →
      let e := s.pent lgn
      e.dtier ≠ 3 → e.fresh = false →
      ∃ u, exec (.moveComplete lgn) s = .next u ∧
        u.pent lgn = { e with tier := e.dtier, loc := e.dloc, epoch := (e.epoch + 1) % 2 ^ 24, mstate := 0, dtier := 0, dloc := 0,
                              hpin := e.hpin || m.forPin } ∧
        (∀ b, b < granule → memRead u.mem (daKey e.dtier e.dloc b) = memRead s.mem (daKey e.tier e.loc b)) ∧
        (∀ a, (∀ b, b < granule → a ≠ daKey e.dtier e.dloc b ∧ a ≠ daKey e.tier e.loc b) → memRead u.mem a = memRead s.mem a) ∧
        u.evt.hubEpoch = (if s.evt.hubEpoch.toNat = 2 ^ 32 - 1 then 1 else s.evt.hubEpoch + 1) ∧ u.moveOf lgn = none))

/-- FRESH_FILL_DONE, HEAT_DECAY and REGION_RELEASE (R245, R247, R252). With no write held, the fill of a FRESH granule leaves its frame at 0 and FRESH
clear. HEAT_DECAY halves every HEAT once DECAY beats have passed. REGION_RELEASE of an unmapped region with no pin and no move frees every granule
of it; one that is held stays.

PATROL_SCRUB and PHY_FAULT (R263, R264, R266, R267). A patrol comes once in its tier's period. A word of SCRATCH with one bad symbol is corrected
and counted, with two or more it is poisoned, counted and logged; memory does not change; a patrol of BANK or BULK that finds nothing clears POISON
of the granules there that hold no poisoned word. A fault of a whole pseudo-channel retires it with its frames, one of a bank retires that; each is
retired once. -/
def Obligations.PlacementRows : Prop :=
  (∀ (s : State) (lgn ca : Nat) (c : CtxId) (r : Region), s.live = true →
    (s.heldWrites = [] → (s.pent lgn).fresh = true → (s.pent lgn).filling = true →
      ∃ u, exec (.freshFillDone lgn) s = .next u ∧ u.pent lgn = { s.pent lgn with fresh := false, filling := false } ∧
        ∀ b, b < granule → memRead u.mem (daKey (s.pent lgn).tier (s.pent lgn).loc b) = 0) ∧
    (s.heldWrites = [] → (s.pent lgn).fresh = false ∨ (s.pent lgn).filling = false → exec (.freshFillDone lgn) s = .next s) ∧
    (s.mig.decay < max 1 (bits s.migCfg 8 16) → exec .heatDecay s = .next s) ∧
    (max 1 (bits s.migCfg 8 16) ≤ s.mig.decay → ∃ u, exec .heatDecay s = .next u ∧ Chg [.place, .mig] s u ∧ u.mig.decay = 0 ∧
      ∀ l, u.pent l = { s.pent l with heat := (s.pent l).heat / 2 }) ∧
    ((s.ctx c.val).releasing.find? (fun q => q.gbase == ca / granule) = none → exec (.regionRelease c ca) s = .next s) ∧
    ((s.ctx c.val).releasing.find? (fun q => q.gbase == ca / granule) = some r →
      ((∃ l ∈ r.lgns, 0 < (s.pent l).pcnt ∨ (s.pent l).mstate ≠ 0) → exec (.regionRelease c ca) s = .next s) ∧
      ((∀ l ∈ r.lgns, (s.pent l).pcnt = 0 ∧ (s.pent l).mstate = 0) →
        ∃ u, exec (.regionRelease c ca) s = .next u ∧ (∀ l ∈ r.lgns, u.pent l = {}) ∧ (∀ l, l ∉ r.lgns → u.pent l = s.pent l) ∧
          (u.ctx c.val).releasing = (s.ctx c.val).releasing.filter (fun q => q.gbase != r.gbase || q.lgn0 != r.lgn0)))) ∧
  (∀ (s : State) (tier : Fin 3) (o n : Nat) (st : Fin 8) (pc : Fin 64) (ch : Fin 18) (b : Fin 16), s.live = true →
    let due (k : Nat) : Prop := smGet 0 s.ras.patrolClk k + s.patrolPeriod k ≤ s.beat.now
    (¬ due tier.val → ∀ l, exec (.patrolScrub tier l) s = .next s) ∧
    (due 0 → ∃ u, exec (.patrolScrub 0 [⟨.scratch o, 1⟩]) s = .next u ∧ u.ras.scrCe = min (2 ^ 24 - 1) (s.ras.scrCe + 1) ∧ u.mem = s.mem ∧ u.poison = s.poison) ∧
    (due 0 → 2 ≤ n → ∃ u, exec (.patrolScrub 0 [⟨.scratch o, n⟩]) s = .next u ∧ u.ras.scrUe = min (2 ^ 16 - 1) (s.ras.scrUe + 1) ∧ u.mem = s.mem ∧
      u.poison = setAdd s.poison (o / 16) ∧ ∃ e ∈ u.evt.log, e.code = 0x2002 ∧ e.seq = s.evt.next) ∧
    (due tier.val → ∃ u, exec (.patrolScrub tier []) s = .next u ∧ u.mem = s.mem ∧ u.poison = s.poison ∧
      ∀ l, (u.pent l).poison = ((s.pent l).poison &&
        !((s.pent l).tier == tier.val && !s.poisoned (daKey (s.pent l).tier (s.pent l).loc 0) granule))) ∧
    (stackFitted s.variant st.val = true → bitOf (smGet {} s.ras.stk st.val).ret pc.val = false →
      ∃ u, exec (.phyFault (.pseudoChannel st pc)) s = .next u ∧ bitOf (smGet {} u.ras.stk st.val).ret pc.val = true ∧ Logged s u 0x2003 ∧
        (∀ f ∈ s.ras.retBank, f ∈ u.ras.retBank) ∧
        ∀ i, i < 384 → (stacksOf s.variant).findIdx (· == st.val) + (stacksOf s.variant).length * (pc.val + 64 * i) ∈ u.ras.retBank) ∧
    (stackFitted s.variant st.val = false ∨ bitOf (smGet {} s.ras.stk st.val).ret pc.val = true →
      exec (.phyFault (.pseudoChannel st pc)) s = .next s) ∧
    (bitOf (smGet {} s.ras.ch ch.val).ret b.val = false →
      ∃ u, exec (.phyFault (.bank ch b)) s = .next u ∧ bitOf (smGet {} u.ras.ch ch.val).ret b.val = true ∧ Logged s u 0x2003) ∧
    (bitOf (smGet {} s.ras.ch ch.val).ret b.val = true → exec (.phyFault (.bank ch b)) s = .next s))

/-- TRANSFER_COMPLETE (R46, R65, R226, R229, R265), where no other transfer has the number. A COPY whose rows lie in scratch and are not poisoned, that
asks for no compression, no histogram, no format conversion and no ledger, and that the DMA engine has let through, writes at each destination row
the bytes that its source row held before this clk's writes (R51), in order; it is done with STATUS 0, and its request tags are free. A transfer
that is not there or still waits for the DMA engine does nothing; nor does a post for which nothing has come, nor a kiln update, which its own rows
end; a LINK.SEND is done once every peer has taken it.

HOST_COMPLETION_TIMEOUT (R364): a DMA read of host memory into scratch that no completion answers, and that the DMA engine has let through, is done
with STATUS 0x2002: every word of its destination is poisoned, and every byte of it reads 0 (one that read 0 before this clk's writes reads as they
left it: the model's choice, log entry 90). A transfer that reads no host region is not touched. -/
def Obligations.TransferCompletes : Prop :=
  (∀ (s : State) (id : Nat) (ok : Bool) (data : List Byte) (f : Xfer), s.live = true → s.Sound →
    let found := s.xfers.find? (fun f => f.id == id && !f.done && (f.tag || f.kind == .dmaFill || f.released))
    (found = none → exec (.transferComplete id ⟨ok, data⟩ []) s = .next s) ∧
    (found = some f →
      (f.kind = .kiln ∨ f.kind = .recvPost ∧ f.got = 0 → exec (.transferComplete id ⟨ok, data⟩ []) s = .next s) ∧
      (f.kind.isDma = true → 0 < f.left → s.dmaRivals f.tile (streamOf f.stream) ≠ [] → exec (.transferComplete id ⟨ok, data⟩ []) s = .next s) ∧
      (f.released = false → s.reachesHub f = true → (∀ g ∈ s.xfers, g.id = id → g = f) →
        (f.kind = .linkSend → (∀ l ∈ sendPeers f.desc, bitOf f.got l = true) →
          ∃ u, exec (.transferComplete id ⟨ok, data⟩ []) s = .next u ∧ Chg [.xfers, .ports, .mig, .mem, .old] s u ∧ SameMem s u ∧
            u.xfers = s.xfers.map (fun x => if x.id = id then { x with done := true, req := 0 } else x)) ∧
        (f.kind = .dmaCopy → f.left = 0 ∨ s.dmaRivals f.tile (streamOf f.stream) = [] → dmaCmp f.desc = false → dmaHist f.desc = false →
          dmaLedg f.desc = false →
          (∀ r, r < dmaRows f.desc →
            scratchBase ≤ dmaSrcRow f.desc r ∧ dmaSrcRow f.desc r + dmaRlen f.desc ≤ scratchTop ∧
            scratchBase ≤ dmaDstRow f.desc r ∧ dmaDstRow f.desc r + dmaRlen f.desc ≤ scratchTop ∧
            s.poisoned (dmaSrcRow f.desc r - scratchBase) (dmaRlen f.desc) = false) →
          ∃ u, exec (.transferComplete id ⟨ok, data⟩ []) s = .next u ∧
            Landed s u ((List.range (dmaRows f.desc)).foldl (fun m r =>
              memWriteList m (dmaDstRow f.desc r - scratchBase) (s.asBefore.rd (dmaSrcRow f.desc r - scratchBase) (dmaRlen f.desc))) s.memBefore) ∧
            ∃ x ∈ u.xfers, x.id = id ∧ x.done = true ∧ x.status = 0 ∧ x.xinfo = 0 ∧ x.req = 0)))) ∧
  (∀ (s : State) (id : Nat) (f : Xfer), s.live = true → s.Sound → s.xfers.find? (fun f => f.id == id && !f.done) = some f →
    ((∀ a ∈ xferReads f, s.isHost f.ctx a = false) → exec (.hostCompletionTimeout id) s = .next s) ∧
    (f.kind = .dmaRead → f.tag = true → f.released = false → s.reachesHub f = true → (∀ g ∈ s.xfers, g.id = id → g = f) →
      f.left = 0 ∨ s.dmaRivals f.tile (streamOf f.stream) = [] →
      dmaCmp f.desc = false → dmaHist f.desc = false → dmaLedg f.desc = false → dmaRows f.desc ≠ 0 → dmaRlen f.desc ≠ 0 →
      (∀ r, r < dmaRows f.desc →
        (∀ j, j < dmaRlen f.desc → s.isHost f.ctx (dmaSrcRow f.desc r + j) = true) ∧
        scratchBase ≤ dmaDstRow f.desc r ∧ dmaDstRow f.desc r + dmaRlen f.desc ≤ scratchTop) →
      ∃ u, exec (.hostCompletionTimeout id) s = .next u ∧
        (∃ x ∈ u.xfers, x.id = id ∧ x.done = true ∧ x.status = 0x2002) ∧
        ∀ r, r < dmaRows f.desc → ∀ j, j < dmaRlen f.desc →
          let k := dmaDstRow f.desc r - scratchBase + j
          u.poison.contains (k / 16) = true ∧
            memRead u.mem k = if memRead s.memBefore k = 0 then memRead s.mem k else 0))

/-- LEDGER_CONTRIBUTION (R181-R185, R245, R265, R338). A contribution of a step whose slice still belongs to another waits. A poisoned one is dropped
and its step aborts for retry with 0x2002; one that EXPECT does not name, with another element count, or of no slice is dropped and its step aborts
with 0x2008, without retry. One for an open slice at rest that is next in the order of logical IDs is added element by element to the sum, or stored
as it is where it is the first; its ARRIVED bit sets, and with the last one the slice becomes COMPLETE, or DEFERRED for a parked update. One that is
not next is staged where an entry is free, and else held, with 0x500D once a step. -/
def Obligations.LedgerRows : Prop :=
  ∀ (s : State) (c : CtxId) (k lid : Nat) (x : Contrib), s.live = true →
    s.contribs.find? (fun x => x.ctx == c.val && x.slice == k && x.lid == lid && !x.staged) = some x →
    let e := s.led c.val false k
    let row := Instr.ledgerContribution c k lid
    let elsewhere : Bool := ledState e != 0 && ledStep e != x.step % 2 ^ 32
    (elsewhere = true → exec row s = .next s) ∧
    (elsewhere = false → x.poison = true →
      ∃ u, exec row s = .next u ∧ u.contribs = s.contribs.erase x ∧ Logged s u 0x2002 ∧ u.mem = s.mem ∧
        ((s.ctx c.val).step.flight.contains x.step = true → ∃ q ∈ (u.ctx c.val).step.causes, q.code = 0x2002 ∧ q.step = some x.step ∧ q.retry = true)) ∧
    (elsewhere = false → x.poison = false →
      bitOf (ledExpect e) lid = false ∨ x.vals.length ≠ ledNelem e ∨ x.whole = false ∨ (s.ctx c.val).slices ≤ k →
      ∃ u, exec row s = .next u ∧ u.contribs = s.contribs.erase x ∧ Logged s u 0x2008 ∧ u.mem = s.mem ∧
        ((s.ctx c.val).step.flight.contains x.step = true → ∃ q ∈ (u.ctx c.val).step.causes, q.code = 0x2008 ∧ q.step = some x.step ∧ q.retry = false)) ∧
    (elsewhere = false → ledState e ≠ 0 → x.poison = false → bitOf (ledExpect e) lid = true → x.vals.length = ledNelem e → x.whole = true →
      k < (s.ctx c.val).slices → bitOf (ledArrived e) lid = false → s.ledBlocks c.val k = [] →
      (∀ y ∈ s.contribs, y.ctx = c.val → y.slice = k → y.staged = false) →
      let a := s.ledData c.val false k
      let sum := if ledArrived e = 0 then x.vals
        else ((s.rdWords c.val a (ledNelem e)).zip x.vals).map (fun p => BitVec.ofNat 32 (fadd p.1 p.2.toNat))
      (ledNext e = some lid → ledArrived e = 0 ∨ s.rdCaPoison c.val a (4 * ledNelem e) = false →
        ∃ u b, Heated [] s b ∧ exec row s = .next u ∧ u.contribs = s.contribs.erase x ∧
          let s1 := (b.wrEngine c.val a (wordBytes sum)).setLed c.val false k (setBits e 8 8 (ledArrived e + 2 ^ lid))
          (ledArrived e + 2 ^ lid ≠ ledExpect e → u.mem = s1.mem) ∧
          (ledArrived e + 2 ^ lid = ledExpect e →
            ∃ b2, Chg [.contribs, .xfers] s1 b2 ∧
              u.mem = (b2.setLedState c.val false k (if s.parked c.val false k x.step = true then 4 else 2)).mem)) ∧
      (ledNext e ≠ some lid → s.cmbUsed c.val < (s.ctx c.val).cmbSlots →
        ∃ u, exec row s = .next u ∧ u.contribs = s.contribs.map (fun y => if y = x then { y with staged := true } else y) ∧ u.mem = s.mem) ∧
      (ledNext e ≠ some lid → (s.ctx c.val).cmbSlots ≤ s.cmbUsed c.val →
        ∃ u, exec row s = .next u ∧ u.contribs = s.contribs ∧ u.mem = s.mem ∧ (u.ctx c.val).cmbFull = true ∧
          ((s.ctx c.val).step.loggedStall.contains x.step = true → u.evt = s.evt) ∧
          ((s.ctx c.val).step.loggedStall.contains x.step = false →
            Logged s u 0x500D ∧ (u.ctx c.val).step.loggedStall.contains x.step = true)))

/-- KILN_START (R188, R190, R191, R206, R208). An update that is not ready does not start; one whose moment granule is not at rest waits for it. A
coefficient that is NaN, infinite or negative aborts its step with 0x1010. With FP32 moments, CLIP 0 and the SGDM recipe without NESTEROV or SKIPNF,
and nothing poisoned, the slice becomes IN_UPDATE and the other slot of the moment record takes m' = β1 × m + g, rounded once, for every element;
the directions are m'. (b differs from s, and b2 from the state with the slice's entry written, only in HEAT, the queue of moves and what was sent.)

CONDITIONING (R194, R196) of an update whose kiln work is done, with its granules at rest and slot SEL of its master not poisoned: the other slot of
the master takes w' = w × (1 − lr × wd) − lr × direction, two roundings in order, and the working weight is packed from it (a mirrored update packs
none); a skipped one copies its master. A BUILD that is issued, with the step before it committed, packs its weight too. The slice is APPLIED, the
pins are released, and the update is done. One whose granules are not at rest waits for them; any other update does not change. -/
def Obligations.KilnRows : Prop :=
  (∀ (s : State) (id : Nat) (v : Upd), s.live = true →
    (s.upds.find? (fun u => u.id == id && u.stage == .issued) = none → exec (.kilnStart id) s = .next s) ∧
    (s.upds.find? (fun u => u.id == id && u.stage == .issued) = some v →
      let d := v.desc
      let n := updN d
      let e := s.led v.ctx v.shadow (updSlice d)
      let ready : Bool := !updBuild d && s.prevCommitted v.ctx v.step && s.pinsStill v && ledState e == 2 && ledStep e == v.step % 2 ^ 32
      let hyp := dfield d 256 48 + 64 * (v.step % 2)
      let data := s.ledData v.ctx v.shadow (updSlice d)
      let src := s.momAddr v + (s.slotsRW v.ctx).1 * momSlot d
      (ready = false → exec (.kilnStart id) s = .next s) ∧
      (ready = true → s.kilnBlocks v ≠ [] → ∃ t, exec (.kilnStart id) s = .next t ∧ Chg [.place, .mig] s t) ∧
      (ready = true → s.kilnBlocks v = [] → (s.coefficient v).2 = false → coefBad (s.coefficient v).1 = true →
        ∃ t, exec (.kilnStart id) s = .next t ∧ Logged s t 0x1010 ∧ t.mem = s.mem ∧
          ((s.ctx v.ctx).step.flight.contains v.step = true → ∃ q ∈ (t.ctx v.ctx).step.causes, q.code = 0x1010 ∧ q.step = some v.step ∧ q.retry = false)) ∧
      (ready = true → s.kilnBlocks v = [] → updRecipe d = 0 → dfield d 52 2 = 0 → bitOf d 51 = false → bitOf d 54 = false → bitOf d 55 = false →
        s.rdCaPoison v.ctx hyp 36 = false → s.rdCaPoison v.ctx data (4 * n) = false → s.rdCaPoison v.ctx src (momSlot d) = false →
        ∃ t b b2, Heated [] s b ∧ exec (.kilnStart id) s = .next t ∧
          let s1 := b.setLedState v.ctx v.shadow (updSlice d) 3
          let g := (b.rdWords v.ctx data n).map (fun x => fmul x 0x3F800000)
          let m := ((s1.rdWords v.ctx src n).zip g).map (fun p => fma32 ((b.rdWords v.ctx hyp 9).getD 1 0) p.1 p.2)
          Heated [.ports, .outbox] s1 b2 ∧ t.mem = (b2.wrEngine v.ctx (s.momDst v) (m.flatMap (toBytes 4))).mem ∧
          ∃ w ∈ t.upds, w.id = id ∧ w.stage = .kiln ∧ w.wrote = true ∧ w.dirs.map (·.code) = m ∧
            w.lr = BitVec.ofNat 32 ((b.rdWords v.ctx hyp 9).getD 0 0) ∧ w.wd = BitVec.ofNat 32 ((b.rdWords v.ctx hyp 9).getD 4 0)))) ∧
  (∀ (s : State) (id : Nat) (v : Upd), s.live = true →
    (s.upds.find? (fun u => u.id == id) = none → exec (.conditioning id) s = .next s) ∧
    (s.upds.find? (fun u => u.id == id) = some v →
      let d := v.desc
      let n := updN d
      let src := (s.mstSlots v).1
      let dst := (s.mstSlots v).2
      let goes : Prop := v.stage = .kiln ∨ v.stage = .issued ∧ updBuild d = true ∧ s.prevCommitted v.ctx v.step = true
      (¬ goes → exec (.conditioning id) s = .next s) ∧
      (goes → s.pinsStill v = false → exec (.conditioning id) s = .next s) ∧
      (goes → s.pinsStill v = true → s.condBlocks v ≠ [] → ∃ t, exec (.conditioning id) s = .next t ∧ Chg [.place, .mig] s t) ∧
      (goes → s.pinsStill v = true → s.condBlocks v = [] → s.rdCaPoison v.ctx src (4 * n) = false →
        ∃ t b, Heated [] s b ∧ exec (.conditioning id) s = .next t ∧
          (∃ x ∈ t.upds, x.id = id ∧ x.stage = .done ∧ x.pins = [] ∧ x.recNo = none) ∧ (∀ f ∈ t.xfers, f.id = id → f.done = true) ∧
          let w := b.rdWords v.ctx src n
          (updBuild d = false → v.skip = true → src ≠ dst →
            ∃ b2, Chg [.rsigs] (b.wrEngine v.ctx dst (wordBytes (w.map (BitVec.ofNat 32)))) b2 ∧
              t.mem = (b2.setLedState v.ctx v.shadow (updSlice d) 5).mem) ∧
          (updBuild d = false → v.skip = false →
            let k := fsub 0x3F800000 (fmul v.lr.toNat v.wd.toNat)
            let w' := (w.zip v.dirs).map (fun p => fma32 p.1 k (fmul v.lr.toNat p.2.code ^^^ 2 ^ 31))
            let s1 := b.wrEngine v.ctx dst (wordBytes (w'.map (BitVec.ofNat 32)))
            ∃ b2, Chg [.rsigs, .ctxs, .upds] (if v.shadow = true then s1 else (s1.condPack v.ctx d v.step false w').1) b2 ∧
              t.mem = (b2.setLedState v.ctx v.shadow (updSlice d) 5).mem))))

/-- Deferral (R204, R205, R250). DEFER_RECORD_TAKE: the context's oldest held update goes on once everything it needs is in place: it pins it, and its
instruction waits no longer; it stays held where something is missing and no record is free. DEFERRED_RUN: a parked update runs once both its
granules are pinned and at rest, the step before it has committed and its slice is DEFERRED, the one whose granules arrived first before the others;
one that is not ready, or not first, waits; a BUILD that is ready is done.

Lost and late updates (R199, R203). UPDATE_RERUN: an update lost for the first time goes back to be run from its COMPLETE slice and is counted; lost
again it aborts its step without retry, with no event code (the model's choice, log entry 21). LEDGER_TIMEOUT: once more than TIMEOUT beats have
passed with an update of the earliest step not done, 0x200A is logged, once, and the step aborts; TIMEOUT 0 never. -/
def Obligations.DeferralRows : Prop :=
  (∀ (s : State) (c : CtxId) (v : Upd) (f : Xfer) (id : Nat), s.live = true →
    (s.upds.find? (fun u => u.ctx == c.val && u.stage == .hold) = none → exec (.deferRecordTake c) s = .next s) ∧
    (s.upds.find? (fun u => u.ctx == c.val && u.stage == .hold) = some v →
      ((∃ n ∈ s.updNeeds v, s.inPlace n = false) → s.deferFree v.ctx = none → exec (.deferRecordTake c) s = .next s) ∧
      ((∀ n ∈ s.updNeeds v, s.inPlace n = true ∧ (s.pent n.1).pcnt < 4095) → ((s.updNeeds v).map (·.1)).Nodup →
        s.xfers.find? (fun f => f.id == v.id) = some f →
        ∃ t, exec (.deferRecordTake c) s = .next t ∧
          (∃ w ∈ t.upds, w.id = v.id ∧ w.stage = .issued ∧ w.pins = v.pins ++ (s.updNeeds v).map (·.1)) ∧
          (∀ n ∈ s.updNeeds v, (t.pent n.1).pcnt = (s.pent n.1).pcnt + 1) ∧
          ∀ y ∈ (t.seq f.tile (streamOf f.stream)).inflight, y.seq = f.seq → y.wait ≠ .deferRec v.id)) ∧
    (s.upds.find? (fun u => u.id == id) = none → exec (.deferredRun id) s = .next s) ∧
    (s.upds.find? (fun u => u.id == id) = some v →
      let e := s.led v.ctx v.shadow (updSlice v.desc)
      let ready (u : Upd) : Bool := u.stage == .deferred && (s.updNeeds u).all (fun n => u.pins.contains n.1) && s.pinsStill u &&
        s.prevCommitted u.ctx u.step && (updBuild u.desc ||
          (ledState (s.led u.ctx u.shadow (updSlice u.desc)) == 4 && ledStep (s.led u.ctx u.shadow (updSlice u.desc)) == u.step % 2 ^ 32))
      let first : Prop := ∀ u ∈ s.upds, ready u = true → v.arrived.getD 0 ≤ u.arrived.getD 0
      (ready v = false ∨ ¬ first → exec (.deferredRun id) s = .next s) ∧
      (ready v = true → first → updBuild v.desc = true → s.condBlocks v = [] →
        s.rdCaPoison v.ctx (s.mstAddr v + (s.slotsRW v.ctx).1 * (256 * ledWslot e)) (4 * updN v.desc) = false →
        ∃ t, exec (.deferredRun id) s = .next t ∧ (∃ x ∈ t.upds, x.id = id ∧ x.stage = .done ∧ x.pins = [] ∧ x.recNo = none) ∧
          ∀ f ∈ t.xfers, f.id = id → f.done = true) ∧
      (ready v = true → first → updBuild v.desc = false → s.kilnBlocks v ++ s.condBlocks v = [] →
        ∀ w, (s.kilnRun v).upds.find? (fun y => y.id == id && y.stage == .kiln) = some w →
          exec (.deferredRun id) s = .next ((s.kilnRun v).condRun w)))) ∧
  (∀ (s : State) (id : Nat) (c : CtxId) (v : Upd) (n : Nat) (r : List Nat), s.live = true →
    (s.upds.find? (fun u => u.id == id && (u.stage == .kiln || u.stage == .issued)) = none → exec (.updateRerun id) s = .next s) ∧
    (s.upds.find? (fun u => u.id == id && (u.stage == .kiln || u.stage == .issued)) = some v →
      (v.reruns = 0 → ∃ t, exec (.updateRerun id) s = .next t ∧
        (∃ w ∈ t.upds, w.id = id ∧ w.stage = .issued ∧ w.reruns = 1 ∧ w.dirs = [] ∧ w.skip = false) ∧
        (t.ctx v.ctx).rerunCnt = min 0xFFFF ((s.ctx v.ctx).rerunCnt + 1) ∧
        (v.stage = .issued → t.mem = s.mem)) ∧
      (v.reruns ≠ 0 → ∃ t, exec (.updateRerun id) s = .next t ∧ t.upds = s.upds ∧ t.mem = s.mem ∧
        ((s.ctx v.ctx).step.flight.contains v.step = true → ∃ q ∈ (t.ctx v.ctx).step.causes, q.step = some v.step ∧ q.code = 0 ∧ q.retry = false))) ∧
    ((s.ctx c.val).step.flight = [] → exec (.ledgerTimeout c) s = .next s) ∧
    ((s.ctx c.val).step.flight = n :: r →
      let late : Prop := ∃ u ∈ s.upds, u.ctx = c.val ∧ u.step = n ∧ u.stage ≠ .done
      let due : Prop := (s.ctx c.val).timeout ≠ 0 ∧ (s.ctx c.val).timeout < (s.ctx c.val).step.passTicks ∧
        ∀ q ∈ (s.ctx c.val).step.causes, q.code ≠ 0x200A
      (¬ (late ∧ due) → exec (.ledgerTimeout c) s = .next s) ∧
      (late → due → ∃ t, exec (.ledgerTimeout c) s = .next t ∧ Logged s t 0x200A ∧
        ∃ q ∈ (t.ctx c.val).step.causes, q.code = 0x200A ∧ q.step = some n ∧ q.retry = false)))

/-- The buddy's side (R209, R336, R340), where the context is open and mirrored: SHADOW_UPDATE takes the forwarded update in, and issues it where all it
needs is in place; MIRROR_SUM writes the sum whole into the shadow slice and marks every contributor arrived; a poisoned sum is not written and
aborts its step for retry. In a context that is closed or not mirrored both do nothing. WEIGHT_REBUILD (R198) packs an aborted step's weight again
from slot SEL of its master, as the step before wrote it, once the granules it writes are at rest. -/
def Obligations.MirrorRows : Prop :=
  ∀ (s : State) (c : CtxId) (step d k : Nat) (sum : List F32) (n : Nat), s.live = true →
    ((s.ctx c.val).st ≠ .isOpen ∨ (s.ctx c.val).mirror = false → exec (.shadowUpdate c step d) s = .next s ∧
      ∀ p, exec (.mirrorSum c k step sum p) s = .next s) ∧
    ((s.ctx c.val).st = .isOpen → (s.ctx c.val).mirror = true →
      (∀ v : Upd, v = { id := s.mig.nextId, ctx := c.val, step := step, desc := d, stage := .hold, shadow := true } →
        (∀ p ∈ s.updNeeds v, s.inPlace p = true ∧ (s.pent p.1).pcnt < 4095) → ((s.updNeeds v).map (·.1)).Nodup →
        ∃ t, exec (.shadowUpdate c step d) s = .next t ∧ t.mem = s.mem ∧ t.mig.nextId = s.mig.nextId + 1 ∧
          ∃ w ∈ t.upds, w.id = s.mig.nextId ∧ w.ctx = c.val ∧ w.step = step ∧ w.desc = d ∧ w.shadow = true ∧ w.stage = .issued ∧
            w.pins = (s.updNeeds v).map (·.1)) ∧
      (∃ t, exec (.mirrorSum c k step sum true) s = .next t ∧ t.mem = s.mem ∧ Logged s t 0x2002 ∧
        ((s.ctx c.val).step.flight.contains step = true → ∃ q ∈ (t.ctx c.val).step.causes, q.code = 0x2002 ∧ q.step = some step ∧ q.retry = true)) ∧
      (let s1 := s.wrEngine c.val (s.ledData c.val true k) (wordBytes sum)
        let e := s1.led c.val true k
        exec (.mirrorSum c k step sum false) s = .next (s1.setLed c.val true k
          (setBits (setBits (setBits e 8 8 (ledExpect e)) 16 3 (if s.parked c.val true k step = true then 4 else 2)) 64 32 step)))) ∧
    ((s.ctx c.val).step.rebuild = [] → ∃ t, exec (.weightRebuild c) s = .next t ∧ t.mem = s.mem ∧ t.ctx c.val = s.ctx c.val) ∧
    ((s.ctx c.val).step.rebuild = [(n, d)] →
      let src := updMst d + (s.slotsRW c.val).1 * mstSlot d
      s.rdCaPoison c.val src (4 * updN d) = false → s.rebuildBlocks c.val = [] →
      ∃ t, exec (.weightRebuild c) s = .next t ∧ (t.ctx c.val).step.rebuild = [] ∧
        t.mem = (s.condPack c.val d (n - 1) true (s.rdWords c.val src (updN d))).1.mem)

/-- CELLAR_READ (R278, R280, R281, R283). Nothing happens without a cellar, where a read in place finds its frame's directory not yet read, or where the
unit cannot have the outcome: it is not held, not written or lost, it lies on a failed die and is not read through step 9, or a rebuild lacks a unit
of the row. Otherwise a unit at step 0 changes no count; at steps 1 to 8 it counts a retry, and from the steps that CEL_CFG names on its frame is
scheduled for refresh and 0x7001 logged; rebuilt at step 9 it counts a rebuild, schedules the refresh and logs 0x7002; a lost unit stays lost, its
slots are poisoned, counted and logged with 0x7003. A read in place puts the frame first in the cache of directories. No byte of memory changes.

CELLAR_WRITE_DONE and CELLAR_REFRESH (R275-R277, R286, R289, R294). The oldest unwritten stream counts as written, and stands in the journal; its
units and the parity that they complete are counted as programmed; with no other write queued every partly filled row is filled. The refresh
scheduled first rewrites its stream at the data positions placed for it, unless the frame was written again since. No byte of memory changes. -/
def Obligations.CellarStreams : Prop :=
  (∀ (s : State) (frame unit : Nat) (out : ReadOutcome), s.live = true →
    let row (o : ReadOutcome) := exec (.cellarRead frame unit o) s
    let st := s.cel.stream frame
    let dirs := if s.celInPlace frame = true ∧ st.walk = false then (frame :: s.cel.dirs.filter (· ≠ frame)).take 16384 else s.cel.dirs
    (cellarFitted s.variant = false → row out = .next s) ∧
    (s.celInPlace frame = true → unit ≠ 0 → s.cel.dirs.contains frame = false → st.walk = false → row out = .next s) ∧
    (st.written = false ∨ st.lost.contains unit = true ∨ s.cel.unitPlace frame unit = none → row out = .next s) ∧
    ∀ (p : UnitPlace), s.cel.unitPlace frame unit = some p →
      (∀ n, s.cel.memberDead p.sb p.ch = true → row (.delivered n) = .next s) ∧
      (∀ l, (s.cel.channels p.sb).any (fun c => c != p.ch && s.cel.memberDead p.sb c) = true → row (.rebuilt l) = .next s) ∧
      (cellarFitted s.variant = true → st.written = true → st.lost.contains unit = false →
        (s.celInPlace frame = false ∨ unit = 0 ∨ s.cel.dirs.contains frame = true ∨ st.walk = true) →
        (s.cel.memberDead p.sb p.ch = false → 0 < bits s.celCfg 8 4 → row (.delivered 0) = .next { s with cel := { s.cel with dirs := dirs } }) ∧
        (∀ n : Fin 9, s.cel.memberDead p.sb p.ch = false → 1 ≤ n.val →
          ∃ u, row (.delivered n) = .next u ∧ u.mem = s.mem ∧ u.poison = s.poison ∧ u.cel.frames = s.cel.frames ∧ u.cel.dirs = dirs ∧
            u.cel.retries = min (2 ^ 32 - 1) (s.cel.retries + 1) ∧ u.cel.rebuilds = s.cel.rebuilds ∧
            (bits s.celCfg 8 4 ≤ n.val → ∃ w, (frame, w) ∈ u.cel.refresh) ∧ (n.val < bits s.celCfg 8 4 → u.cel.refresh = s.cel.refresh) ∧
            (bits s.celCfg 12 4 ≤ n.val → s.cel.logged.contains (frame, unit) = false → Logged s u 0x7001)) ∧
        (∀ l : List (Fin 9), l.length = ((s.cel.channels p.sb).filter (· != p.ch)).length →
          (s.cel.channels p.sb).any (fun c => c != p.ch && s.cel.memberDead p.sb c) = false →
          ∃ u, row (.rebuilt l) = .next u ∧ u.mem = s.mem ∧ u.cel.rebuilds = min (2 ^ 32 - 1) (s.cel.rebuilds + 1) ∧ (∃ w, (frame, w) ∈ u.cel.refresh) ∧
            (s.cel.step9.countP (fun q => q.1 == p.ch && q.2.1 == p.die) < 15 → u.poison = s.poison ∧ u.cel.dead = s.cel.dead ∧
              ∃ e, u.evt.log.head? = some e ∧ e.code = 0x7002)) ∧
        (∀ cw : BitVec 32, cw ≠ 0 →
          ∃ u, row (.lost cw) = .next u ∧ u.mem = s.mem ∧ unit ∈ (u.cel.stream frame).lost ∧
            (∀ j ∈ s.lostSlots frame unit cw.toNat, ∀ i, i < 256 → daKey 3 frame (4096 * j) / 16 + i ∈ u.poison) ∧
            (s.cel.step9.countP (fun q => q.1 == p.ch && q.2.1 == p.die) < 15 → u.cel.lost = min (2 ^ 32 - 1) (s.cel.lost + 1) ∧
              (s.lostSlots frame unit cw.toNat ≠ [] → ∃ e, u.evt.log.head? = some e ∧ e.code = 0x7003))))) ∧
  (∀ (s : State) (frame : Nat), s.live = true →
    let st := s.cel.stream frame
    let n := streamUnits st.len
    (st.ext = [] ∨ st.written = true ∨ (∃ p ∈ s.cel.frames, p.2.written = false ∧ p.2.wseq < st.wseq) →
      exec (.cellarWriteDone frame) s = .next s) ∧
    (st.ext ≠ [] → st.written = false → (∀ p ∈ s.cel.frames, p.2.written = false → st.wseq ≤ p.2.wseq) →
      ∃ u, exec (.cellarWriteDone frame) s = .next u ∧ u.mem = s.mem ∧ u.cel.stream frame = { st with written := true } ∧
        smGet {} u.cel.journal frame = { st with written := true } ∧ s.cel.nandKib + 64 * (n + st.par) ≤ u.cel.nandKib ∧
        ((∃ p ∈ s.cel.frames, p.1 ≠ frame ∧ p.2.written = false) → u.cel.nandKib = s.cel.nandKib + 64 * (n + st.par)) ∧
        ((∀ p ∈ smSet {} s.cel.frames frame { st with written := true }, p.2.written = true) →
          ∀ k, (s.cel.sb k).st = 1 → 0 < (s.cel.sb k).rowData → (u.cel.sb k).used % (s.cel.sb k).rowData = 0 ∧ (s.cel.sb k).used ≤ (u.cel.sb k).used)) ∧
    (s.cel.refresh = [] → exec (.cellarRefresh frame) s = .next s) ∧
    ∀ (f w : Nat) (r : List (Nat × Nat)), s.cel.refresh = (f, w) :: r →
      let x := { s.cel with refresh := r }
      (f ≠ frame → exec (.cellarRefresh frame) s = .next s) ∧
      (f = frame → st.written = false ∨ st.wseq ≠ w ∨ x.placeUnits n = none → exec (.cellarRefresh frame) s = .next { s with cel := x }) ∧
      (f = frame → st.written = true → st.wseq = w → ∀ p, x.placeUnits n = some p →
        ∃ u, exec (.cellarRefresh frame) s = .next u ∧ u.mem = s.mem ∧ (∀ y ∈ u.cel.refresh, y.1 ≠ frame) ∧ frame ∉ u.cel.dirs ∧
          u.cel.stream frame = { st with ext := p.ext, par := p.par, day := s.beat.now, lost := [], walk := false } ∧
          smGet {} u.cel.journal frame = u.cel.stream frame ∧ u.cel.nandKib = s.cel.nandKib + 64 * (n + p.par)))

/-- Patrol and failed dies (R281, R283, R284, R286). CELLAR_PATROL, once a period of PATROL days has passed, starts the period's counts anew, and
schedules for refresh every written stream older than REFRESH_AGE. CEL_DIE takes the die out of service, once, logs 0x7005 and queues its rebuild;
every unit of a row that then has members on two failed dies is lost and its slots are poisoned. CELLAR_REBUILD_DONE re-forms the superblocks of the
die that failed first: emptied, each is erased once and is one member narrower; with the last of them the rebuild ends.

Upkeep (R285, R287, R288). COMPACTION while fewer superblocks are free than GC_LOW erases the filled one with the fewest live units, once its
streams are rewritten, and dissolves one that is to be, once they have left it; it does nothing else. WEAR_LEVEL, where the erase counts lie further
apart than WL_GAP, moves the live streams of the least worn superblock into the most worn free one and erases it. A PROGRAM_FAIL in an open or
filled superblock, and an ERASE_FAIL in an empty one, retires the multi-plane block and logs 0x7004: a spare of the channel takes its place, and
else the superblock is dissolved, or will be once its streams have left it. The data of a word line that failed are written again at the stream's
next data positions. -/
def Obligations.CellarUpkeep : Prop :=
  (∀ (s : State) (ch : Fin 32) (die : Fin 5) (reads : List (Nat × Nat × ReadOutcome)), s.live = true →
    let x : Cellar := { s.cel with dead := s.cel.dead ++ [(ch.val, die.val)], rebuilding := s.cel.rebuilding ++ [(ch.val, die.val)],
                                   spares := s.cel.spares.filter (fun b => b.ch != ch.val || b.die != die.val) }
    (cellarFitted s.variant = false → exec (.cellarPatrol reads) s = .next s ∧ exec (.celDie ch die) s = .next s) ∧
    (s.beat.now < s.cel.patrolClk + max 1 (bits s.celCfg 0 8) * 51840000000000 → exec (.cellarPatrol reads) s = .next s) ∧
    (cellarFitted s.variant = true → s.cel.patrolClk + max 1 (bits s.celCfg 0 8) * 51840000000000 ≤ s.beat.now →
      (∃ u, exec (.cellarPatrol reads) s = .next u ∧ u.mem = s.mem ∧ u.cel.logged = [] ∧ u.cel.step9 = [] ∧ u.cel.patrolClk = s.beat.now) ∧
      (∃ u, exec (.cellarPatrol []) s = .next u ∧ Chg [.cel] s u ∧ u.cel.frames = s.cel.frames ∧
        ∀ p ∈ s.cel.frames, p.2.written = true → bits s.celCfg 16 12 ≠ 0 → bits s.celCfg 16 12 * 51840000000000 < s.beat.now - p.2.day →
          ∃ w, (p.1, w) ∈ u.cel.refresh)) ∧
    (s.cel.dead.contains (ch.val, die.val) = true → exec (.celDie ch die) s = .next s) ∧
    (cellarFitted s.variant = true → s.cel.dead.contains (ch.val, die.val) = false →
      (s.cel.dead = [] → ∃ u, exec (.celDie ch die) s = .next u ∧ u.cel = x ∧ Logged s u 0x7005 ∧ u.mem = s.mem ∧ u.poison = s.poison) ∧
      (∃ u, exec (.celDie ch die) s = .next u ∧ u.cel.dead = x.dead ∧ u.cel.rebuilding = x.rebuilding ∧ u.mem = s.mem ∧
        ∀ f i p, (x.stream f).written = true → i < streamUnits (x.stream f).len → i ∉ (x.stream f).lost → x.unitPlace f i = some p →
          x.memberDead p.sb p.ch = true → 2 ≤ (x.channels p.sb).countP (x.memberDead p.sb) →
          i ∈ (u.cel.stream f).lost ∧ ∀ j ∈ s.lostSlots f i (2 ^ 32 - 1), ∀ h, h < 256 → daKey 3 f (4096 * j) / 16 + h ∈ u.poison)) ∧
    (s.cel.rebuilding = [] → exec .cellarRebuildDone s = .next s) ∧
    ∀ (c d : Nat) (r : List (Nat × Nat)), s.cel.rebuilding = (c, d) :: r →
      ∃ u, exec .cellarRebuildDone s = .next u ∧ u.mem = s.mem ∧ u.poison = s.poison ∧
        u.cel.rebuilding = (if (u.cel.onDie c d).isEmpty then r else s.cel.rebuilding) ∧
        (∀ k ∈ s.cel.onDie c d, k ∉ u.cel.onDie c d →
          (u.cel.sb k).width = (s.cel.sb k).width - 1 ∧ c ∈ (u.cel.sb k).gone ∧ (u.cel.sb k).erase = (s.cel.sb k).erase + 1) ∧
        (s.cel.frames = [] → u.cel.onDie c d = [])) ∧
  (∀ (s : State) (k j wl : Nat) (ch : Fin 32), s.live = true →
    (s.compacting = false ∨ s.cel.compactVictim = none → exec .compaction s = .next s) ∧
    (s.compacting = true → s.cel.compactVictim = some k → 8 ≤ k →
      ((s.cel.sb k).st ≠ 5 → (s.celEmpty k).cel.framesIn k = [] →
        ∃ u, exec .compaction s = .next u ∧ u.mem = s.mem ∧ ((u.cel.sb k).st = 0 ∨ (u.cel.sb k).st = 1) ∧ (u.cel.sb k).used = 0 ∧ (u.cel.sb k).live = 0 ∧
          (u.cel.sb k).erase = (s.cel.sb k).erase + 1) ∧
      ((s.cel.sb k).st ≠ 5 → (s.celEmpty k).cel.framesIn k ≠ [] → exec .compaction s = .next (s.celEmpty k)) ∧
      ((s.cel.sb k).st = 5 → s.cel.framesIn k = [] →
        ∃ u, exec .compaction s = .next u ∧ u.mem = s.mem ∧ (u.cel.sb k).st = 4 ∧
          u.cel.spares = s.cel.spares ++ ((s.cel.channels k).filter (fun c => !s.cel.memberDead k c)).map (fun c =>
            SpareBlock.mk c (s.cel.memberAt k c).1 (s.cel.memberAt k c).2 (s.cel.sb k).erase))) ∧
    (cellarFitted s.variant = false ∨ s.cel.wearMax - s.cel.wearMin ≤ bits s.celCfg 36 12 → exec .wearLevel s = .next s) ∧
    (cellarFitted s.variant = true → bits s.celCfg 36 12 < s.cel.wearMax - s.cel.wearMin → s.cel.leastWorn = some k → s.cel.mostWornFree = some j →
      (s.cel.sb k).st = 2 →
      ((s.cel.sb j).cap < (s.cel.sb k).live → exec .wearLevel s = .next s) ∧
      ((s.cel.sb k).live ≤ (s.cel.sb j).cap →
        ∃ u, exec .wearLevel s = .next u ∧ u.mem = s.mem ∧ ((u.cel.sb k).st = 0 ∨ (u.cel.sb k).st = 1) ∧ (u.cel.sb k).erase = (s.cel.sb k).erase + 1 ∧
          (u.cel.sb j).st = 2 ∧ u.cel.nandKib = s.cel.nandKib + 64 * ((s.cel.sb k).live + ceilDiv (s.cel.sb k).live (s.cel.sb j).rowData) ∧
          ∀ f, ∀ e ∈ (u.cel.stream f).ext, e.1 ≠ k)) ∧
    (∀ p ∈ [(Instr.programFail k ⟨ch, wl⟩, cellarFitted s.variant && (s.cel.channels k).contains ch.val && ((s.cel.sb k).st == 1 || (s.cel.sb k).st == 2)),
            (.eraseFail k ch, cellarFitted s.variant && (s.cel.channels k).contains ch.val && decide (k < sbCount) && (s.cel.sb k).live == 0 &&
              (s.cel.sb k).st != 4)],
      (p.2 = false → exec p.1 s = .next s) ∧
      (p.2 = true → ∃ u, exec p.1 s = .next u ∧ u.mem = s.mem ∧ u.cel.blkRet = min (2 ^ 16 - 1) (s.cel.blkRet + 1) ∧
        (∀ b, s.cel.pickSpare ch.val = some b → u.cel.memberAt k ch.val = (b.die, b.block) ∧ b ∉ u.cel.spares ∧ Logged s u 0x7004) ∧
        (s.cel.pickSpare ch.val = none → ch.val ∈ (u.cel.sb k).gone ∧
          ((u.cel.sb k).st = 4 ∨ (u.cel.sb k).st = 5 ∧ u.cel.framesIn k ≠ [])))) ∧
    ∀ f i b q, cellarFitted s.variant = true → (s.cel.channels k).contains ch.val = true → ((s.cel.sb k).st = 1 ∨ (s.cel.sb k).st = 2) →
      s.cel.lineUnits k ch.val wl = [(f, i)] → i < 2 ^ 32 → s.cel.pickSpare ch.val = some b →
      s.cel.placeUnits (streamUnits (s.cel.stream f).len - i) = some q → (takeExt i (s.cel.stream f).ext ++ q.ext).length ≤ 2 →
      ∃ u, exec (.programFail k ⟨ch, wl⟩) s = .next u ∧ u.mem = s.mem ∧ (u.cel.stream f).ext = takeExt i (s.cel.stream f).ext ++ q.ext)

/-- Host ports (R353, R370, R476-R478). HOST_PORT_TRAINED while PERST# is not asserted brings the port up at the rate and width given, the rate capped
by MAXRATE; below 64 GT/s or x16 it logs 0x6007. PORT_LOST of a port that is up takes its link down, counts it, resets its functions with their
windows, and freezes every open context that one of them owns. PERST does the same and holds the port; with both ports held it takes L3.
PERST_RELEASE lets the port go.

Functions (R354, R429, R440). VF_ENABLE at a port that is up sets VF Enable and NumVFs, and resets each VF that they no longer name.
FUNCTION_LEVEL_RESET of a VF that can be reached and owns no context takes L2: it is logged, the function's mailbox and configuration space are
reset, and the hub's epoch advances; with a context that has no step in flight the semaphores of its tiles are 0 and its program is unloaded; with a
step in flight the abort comes first. A function that cannot be reached is not reset. -/
def Obligations.HostRows : Prop :=
  (∀ (s : State) (x : HostPort) (rate width : Nat) (flit : Bool), s.pwr.powered = true → s.pwr.clkOk = true →
    let p := s.hport x.val
    let lost (u : State) : Prop :=
      (u.hport x.val).up = false ∧ (u.hport x.val).vfEnable = false ∧ (u.hport x.val).downCnt = min 0xFFFF (p.downCnt + 1) ∧
      (∀ v, v < 8 → (u.fn (8 * x.val + v)).needHello = true ∧ (u.fn (8 * x.val + v)).reset = true ∧ (u.fn (8 * x.val + v)).bme = false) ∧
      (∀ c, c < 16 → (s.ctx c).st = .isOpen → ∀ o, (s.ctx c).owner = some o → o.val / 8 = x.val → (u.ctx c).frozen = true ∧ (u.ctx c).owner = some o)
    (p.perst = false → rate = 2 ∨ rate = 3 ∨ rate = 4 → width = 4 ∨ width = 8 ∨ width = 16 →
      let r := min rate (s.rateCap x.val)
      ∃ u, exec (.hostPortTrained x rate width flit) s = .next u ∧
        u.hport x.val = { p with rate := r, width := width, flit := flit || r == 4, up := true } ∧
        if r < 4 ∨ width < 16 then Logged s u 0x6007 else u.evt = s.evt) ∧
    (p.perst = true ∨ ¬ (rate = 2 ∨ rate = 3 ∨ rate = 4) ∨ ¬ (width = 4 ∨ width = 8 ∨ width = 16) →
      exec (.hostPortTrained x rate width flit) s = .next s) ∧
    (p.up = false → exec (.portLost x) s = .next s) ∧
    (p.up = true → ∃ u, exec (.portLost x) s = .next u ∧ lost u ∧ u.mem = s.mem) ∧
    (p.perst = true → exec (.perst x) s = .next s) ∧
    (p.perst = false → p.up = true → (s.hport (1 - x.val)).perst = false →
      ∃ u, exec (.perst x) s = .next u ∧ lost u ∧ (u.hport x.val).perst = true ∧ u.mem = s.mem) ∧
    (p.perst = false → (s.hport (1 - x.val)).perst = true → s.live = true →
      ∃ u, exec (.perst x) s = .next u ∧ u.evt.rstLevel = 3 ∧ u.tiles = [] ∧ u.evt.l3Cnt = min 0xFFFF (s.evt.l3Cnt + 1)) ∧
    ∃ u, exec (.perstRelease x) s = .next u ∧ Chg [.hports] s u ∧ u.hport x.val = { p with perst := false }) ∧
  (∀ (s : State) (x : HostPort) (enable : Bool) (n : Nat) (f : FnId) (c : Nat), s.live = true →
    ((s.hport x.val).up = false → exec (.vfEnable x enable n) s = .next s) ∧
    ((s.hport x.val).up = true → n ≤ 7 → ∃ u, exec (.vfEnable x enable n) s = .next u ∧
      (u.hport x.val).vfEnable = enable ∧ (u.hport x.val).numVfs = n ∧ u.mem = s.mem ∧ u.ctxs = s.ctxs ∧
      ∀ v, 1 ≤ v → v < 8 → s.fnExists (8 * x.val + v) = true → u.fnExists (8 * x.val + v) = false →
        (u.fn (8 * x.val + v)).needHello = true ∧ (u.fn (8 * x.val + v)).bme = false ∧ (u.fn (8 * x.val + v)).pendEn = false) ∧
    (s.fnReach f.val = false → exec (.functionLevelReset f) s = .next s) ∧
    (s.fnReach f.val = true → f.val % 8 ≠ 0 → (s.fn f.val).l2 = none →
      let logged (u : State) : Prop := ∃ e ∈ u.evt.log, e.seq = s.evt.next ∧ e.code = 0xA031 ∧ e.level = 2 ∧ e.fn = f.val
      ∃ u, exec (.functionLevelReset f) s = .next u ∧
        u.evt.hubEpoch = (if s.evt.hubEpoch.toNat = 2 ^ 32 - 1 then 1 else s.evt.hubEpoch + 1) ∧
        (s.fnCtx f.val = none → logged u ∧
          (u.fn f.val).needHello = true ∧ (u.fn f.val).reset = true ∧ (u.fn f.val).bme = false ∧ (u.fn f.val).winLog2 = 0) ∧
        (s.fnCtx f.val = some c → s.idle c = true → s.detachedOf c = [] → logged u ∧
          (u.fn f.val).needHello = true ∧ (u.ctx c).prog = none ∧ (u.ctx c).l2Cnt = min 0xFFFF ((s.ctx c).l2Cnt + 1) ∧ (u.ctx c).lastLevel = 2 ∧
          (∀ t ∈ s.ctxTiles c, (u.tile t).sems = []) ∧ (∀ y ∈ u.xfers, y.ctx ≠ c) ∧ (∀ y ∈ u.upds, y.ctx ≠ c)) ∧
        (s.fnCtx f.val = some c → s.idle c = false → logged u ∧
          (u.ctx c).step.hostAbort = true ∧ (u.fn f.val).l2 = some 0 ∧ ∃ q ∈ (u.ctx c).step.causes, q.code = 0 ∧ q.retry = false)))

/-- Posts and the first checks, for every mailbox row (R378, R379, R384). A function that cannot be reached posts nothing. A post to a busy mailbox, or
beside a request of another command, is ignored and counted. While the maltster does not serve, serves another mailbox or has an earlier post to
serve, a post is accepted and waits; its row comes again. A served post is checked in this order: its length (BAD_LENGTH), then who may issue it,
then its header; the first check that fails gives the STATUS, and nothing but the mailbox and its message changes. -/
def Obligations.MailboxOrder : Prop :=
  ∀ (s : State) (c : Instr) (f : FnId) (h : ReqHdr) (i : CmdInfo), mailboxRow c = some (h, i) → h.issuer = .fn f → s.live = true →
    (s.fnReach f.val = false → exec c s = .next s) ∧
    (s.fnReach f.val = true → (s.fn f.val).busy ≠ none ∨ (s.fn f.val).busy = none ∧ (∃ l, (s.fn f.val).posted = some l ∧ postIs l h i.code = false) →
      ∃ u, exec c s = .next u ∧ Chg [.fns] s u ∧ u.fn f.val = { s.fn f.val with lost := min 0xFFFF ((s.fn f.val).lost + 1) }) ∧
    (s.fnReach f.val = true → (s.fn f.val).busy = none → (s.fn f.val).posted = none → s.serving = false ∨ s.postTurn f.val s.beat.now = false →
      ∃ u l, exec c s = .next u ∧ Chg [.fns] s u ∧
        u.fn f.val = { s.fn f.val with seq := h.seq, done := false, reset := false, reply := none, postClk := s.beat.now, posted := some l }) ∧
    (s.fnReach f.val = true → (s.fn f.val).busy = none → s.serving = false ∨ s.postTurn f.val (s.fn f.val).postClk = false →
      ∀ l, (s.fn f.val).posted = some l → postIs l h i.code = true → exec c s = .next s) ∧
    (Posts s c f h i →
      (h.len ≠ i.len → ∃ u, exec c s = .next u ∧ Chg [.fns, .outbox] s u ∧ Replied s u f h i.code 0x0003 []) ∧
      (h.len = i.len → ∀ n, s.issuerBad f.val h.ctx i.may i.code = some n →
        ∃ u, exec c s = .next u ∧ Chg [.fns, .outbox] s u ∧ Replied s u f h i.code n []) ∧
      (h.len = i.len → s.issuerBad f.val h.ctx i.may i.code = none → ∀ n, hdrBad h i = some n →
        ∃ u, exec c s = .next u ∧ Chg [.fns, .outbox] s u ∧ Replied s u f h i.code n [])) ∧
    (s.fnReach f.val = true → (s.fn f.val).busy = none → s.serving = true → s.postTurn f.val (s.fn f.val).postClk = true → h.len ≠ i.len →
      ∀ l, (s.fn f.val).posted = some l → postIs l h i.code = true →
        ∃ u, exec c s = .next u ∧ Chg [.fns, .outbox] s u ∧ RepliedWith u f h i.code 0x0003 [])

/-- Commands of contexts (R248, R249, R371, R380, R386, R387). HELLO replies with the versions, and the function may then post other commands. CTX_OPEN
of a closed number with tile sets that nobody holds opens it for its function, with the counters of its tiles at 0. CTX_CLOSE of an idle context
closes it; with FORCE and a step in flight it aborts first and replies later. CTX_QUOTA_SET within what is used, free and allowed sets every quota;
one that lowers a quota of an idle context below its use runs on, detached. CTX_ADOPT gives a frozen context to a function that may adopt it,
without its host regions. -/
def Obligations.ContextCommands : Prop :=
  ∀ (s : State) (f : FnId) (h : ReqHdr) (i : CmdInfo) (r : OpenReq) (q : QuotaReq),
    (Accepts s (.hello h) f h i →
      ∃ u, exec (.hello h) s = .next u ∧ Chg [.fns, .outbox] s u ∧ Replied s u f h 0x0001 0 (s.helloBody f.val) ∧ (u.fn f.val).needHello = false) ∧
    (Accepts s (.ctxOpen h r) f h i → r.tsets ≠ 0 → r.coefA % 64 = 0 → r.coefA < scratchBase → s.hub.mode ≠ 0 → (s.ctx h.ctx).st ≠ .isOpen →
      (∀ t ∈ tilesOf r.tsets.toNat, s.tileCtx t = none ∧ (s.unit (16 + t)).quar = false) → s.overTiles f.val r.tsets.toNat = false →
      ∃ u, exec (.ctxOpen h r) s = .next u ∧ Replied s u f h 0x0010 0 [] ∧
        u.ctx h.ctx = (s.ctx h.ctx).opened f r s.boot.active.timeout.toNat ∧ (∀ c, c ≠ h.ctx → u.ctx c = s.ctx c) ∧ u.mem = s.mem ∧
        ∀ t ∈ tilesOf r.tsets.toNat, u.tileCtx t = some h.ctx ∧ (u.tile t).invCnt = 0 ∧ (u.tile t).satCnt = 0 ∧ (u.tile t).flushCnt = 0 ∧
          (u.tile t).ovfCnt = 0 ∧ (u.tile t).cmpCnt = 0) ∧
    (Accepts s (.ctxClose h) f h i →
      (s.idle h.ctx = true → ∃ u, exec (.ctxClose h) s = .next u ∧ Replied s u f h 0x0011 0 [] ∧ (u.ctx h.ctx).st ≠ .isOpen ∧
        (u.ctx h.ctx).owner = none ∧ (u.ctx h.ctx).regions = [] ∧ (u.ctx h.ctx).prog = none ∧ (∀ x ∈ u.xfers, x.ctx ≠ h.ctx) ∧
        ∀ x ∈ u.upds, x.ctx ≠ h.ctx) ∧
      (s.idle h.ctx = false → ∃ u, exec (.ctxClose h) s = .next u ∧ WaitsFor u f h 0x0011 .close ∧ (u.ctx h.ctx).step.hostAbort = true ∧
        ∃ x ∈ (u.ctx h.ctx).step.causes, x.code = 0 ∧ x.retry = false)) ∧
    (Accepts s (.ctxQuotaSet h q) f h i → cellarFitted s.variant = true ∨ q.cellar = 0 → q.bankCask + q.ledger ≤ q.bank → q.bulkCask ≤ q.bulk →
      (∀ t, 1 ≤ t → t ≤ 3 → s.overCap h.ctx ((s.ctx h.ctx).withQuota q) t = false) → s.tierUse h.ctx 3 ≤ q.cellar →
      (∀ p ∈ quotaClasses, s.pinnedBy h.ctx p.1 p.2 ≤ ((s.ctx h.ctx).withQuota q).quota p.1 p.2) → s.overBundle f.val q = false →
      s.poolTaken h.ctx q = false →
      (s.overQuota h.ctx ((s.ctx h.ctx).withQuota q) = false →
        ∃ u, exec (.ctxQuotaSet h q) s = .next u ∧ Replied s u f h 0x0012 0 [] ∧ (u.ctx h.ctx).quotas = q) ∧
      (s.overQuota h.ctx ((s.ctx h.ctx).withQuota q) = true → s.idle h.ctx = true →
        ∃ u b, exec (.ctxQuotaSet h q) s = .next u ∧ DetachedAs s u f h 0x0012 (.quota (s.ctx h.ctx).quotas b) ∧ (u.ctx h.ctx).quotas = q)) ∧
    (Accepts s (.ctxAdopt h) f h i → (s.ctx h.ctx).st = .isOpen → (s.ctx h.ctx).frozen = true → s.mayAdopt f.val h.ctx = true →
      ∃ u, exec (.ctxAdopt h) s = .next u ∧ Replied s u f h 0x0013 0 [] ∧ (u.ctx h.ctx).owner = some f ∧ (u.ctx h.ctx).frozen = false ∧
        (∀ x ∈ (u.ctx h.ctx).regions, x.host = false) ∧ Logged s u 0x6004)

/-- Commands of memory (R243, R244, R247, R250, R251, R388). MEM_MAP of a request with no bad field replies with the region's number and its first
logical granule, and enters the region; its granules are FRESH in its HOME tier. MEM_UNMAP takes the region out of translation. MEM_PIN pins what
rests in the tier, and is detached while something must move there; MEM_UNPIN lets the granules go. MEM_HINT queues a move of each granule that
rests elsewhere. No granule's bytes change by a pin or a hint. -/
def Obligations.MemoryCommands : Prop :=
  ∀ (s s1 : State) (f : FnId) (h : ReqHdr) (i : CmdInfo) (r : MapReq) (q : Region) (ca n tier : Nat) (l : List Nat),
    (Accepts s (.memMap h r) f h i → MapReq.bad s.variant r = false → MapReq.noUnit s.variant r = false → s.mapped h.ctx r = some (s1, q) →
      ∃ u, exec (.memMap h r) s = .next u ∧ Replied s u f h 0x0020 0 (leB 2 q.no ++ leB 2 0 ++ leB 4 q.lgn0) ∧
        (u.ctx h.ctx).regions = (s.ctx h.ctx).regions ++ [q] ∧ q.gbase = r.ca / granule ∧ q.gcnt = r.gcnt ∧ u.mem = s.mem ∧
        (r.host = false → ∀ g ∈ q.lgns, (u.pent g).fresh = true ∧ (u.pent g).tier = r.home ∧ (u.pent g).ctx = h.ctx)) ∧
    (Accepts s (.memUnmap h ca) f h i → s.regionAt h.ctx ca = some q → (∀ g ∈ q.lgns, (s.pent g).mpin = false) →
      ∃ u, exec (.memUnmap h ca) s = .next u ∧ Replied s u f h 0x0021 0 [] ∧
        (u.ctx h.ctx).regions = (s.ctx h.ctx).regions.filter (fun x => x != q) ∧
        (u.ctx h.ctx).releasing = (if q.host = true then (s.ctx h.ctx).releasing else (s.ctx h.ctx).releasing ++ [q]) ∧
        ∀ g ∈ q.lgns, (u.pent g).hpin = false ∧ (u.pent g).mstate = 0) ∧
    (Accepts s (.memPin h ca n tier) f h i → s.rangeBad h.ctx ca n = false → s.named h.ctx ca n = some l → 1 ≤ tier → tier ≤ 3 →
      tier ≠ 3 ∨ cellarFitted s.variant = true → (∀ g ∈ l, (s.pent g).mpin = true → (s.pent g).tier = tier) →
      ((∀ g ∈ l, s.restsIn g tier = true) →
        ∃ u, exec (.memPin h ca n tier) s = .next u ∧ Replied s u f h 0x0022 0 [] ∧ u.mem = s.mem ∧ (∀ g ∈ l, (u.pent g).hpin = true) ∧
          ∀ g, g ∉ l → u.pent g = s.pent g) ∧
      ((∃ g ∈ l, s.restsIn g tier = false) →
        ∃ u, exec (.memPin h ca n tier) s = .next u ∧ u.mem = s.mem ∧
          DetachedAs s u f h 0x0022 (.pin l tier (l.filter (fun g => s.restsIn g tier && (s.pent g).hpin))) ∧
          ∀ g ∈ l, (u.pent g).hpin = s.restsIn g tier)) ∧
    (Accepts s (.memUnpin h ca n tier) f h i → s.rangeBad h.ctx ca n = false → s.named h.ctx ca n = some l →
      ∃ u, exec (.memUnpin h ca n tier) s = .next u ∧ Replied s u f h 0x0022 0 [] ∧ u.mem = s.mem ∧ (∀ g ∈ l, (u.pent g).hpin = false) ∧
        ∀ g, g ∉ l → u.pent g = s.pent g) ∧
    (Accepts s (.memHint h ca n tier) f h i → s.rangeBad h.ctx ca n = false → s.named h.ctx ca n = some l → 1 ≤ tier → tier ≤ 3 →
      tier ≠ 3 ∨ cellarFitted s.variant = true →
      ∃ u, exec (.memHint h ca n tier) s = .next u ∧ Replied s u f h 0x0023 0 [] ∧ u.mem = s.mem ∧ u.place = s.place ∧
        ∀ g ∈ l, (s.pent g).tier ≠ 0 → (s.pent g).tier ≠ tier → (s.pent g).mstate = 0 →
          ∃ m ∈ u.mig.moves, m.lgn = g ∧ m.target = tier ∧ m.started = false)

/-- Commands of programs and steps (R80, R389, R390, R428). PROG_LOAD of an image that the checks pass replies with its digest, and each tile of the
image has its streams' program and record ring and its arena; PROG_UNLOAD takes the program away. STEP_ARM sets the next step's number and how many
run. STEP_RUN starts an armed run, and a halted one again, which is L1 and logged. STEP_ABORT with no step in flight ends the run and replies all
ones, and else replies after the abort. STEP_STATUS changes nothing but its reply.

Grist tables (R221-R225): TABLE_BUILD counts the symbols of the elements named, above what the table has counted or, with CLR, from 0, and builds
the code anew; it replies with the image. TABLE_LOAD loads the code of an image that holds one and keeps the counts. No other table of the context
changes. -/
def Obligations.ProgramCommands : Prop :=
  (∀ (s : State) (f : FnId) (h : ReqHdr) (i : CmdInfo) (ca len : Nat) (p : Prog) (n count : Word),
    (Accepts s (.progLoad h ca len) f h i → 1024 ≤ len → s.oneRegion h.ctx ca len = true → s.imageBad h.ctx len (s.readCtx h.ctx ca len) = false →
      (s.ctx h.ctx).prog = none →
      let img := s.readCtx h.ctx ca len
      ∃ u, exec (.progLoad h ca len) s = .next u ∧ Replied s u f h 0x0030 0 (leB 64 (s.progDigest h.ctx img).toNat) ∧
        (∃ p, (u.ctx h.ctx).prog = some p ∧ p.imageCa = ca ∧ p.len = len ∧ p.tiles = (imageEntries img).map (·.tile)) ∧
        ∀ e ∈ imageEntries img, (u.tile e.tile).cask.aunits = e.aunits ∧ (u.tile e.tile).cask.abase = e.abase ∧
          (e.aunits ≠ 0 → ∀ a, localKey e.tile e.abase ≤ a → a < localKey e.tile e.abase + 65536 → memRead u.mem a = 0) ∧
          ∀ st : Stream, let k := match st with
            | .F => e.f
            | .B => e.b
            | .U => e.u
          let x := u.seq e.tile st
          x.pbase = k.pbase / 256 ∧ x.plen = k.plen ∧ x.crbase = k.crbase ∧ x.crlog2 = k.crlog2 ∧ x.pc = 0 ∧ x.run = false ∧ x.icache = []) ∧
    (Accepts s (.progUnload h) f h i → (s.ctx h.ctx).prog = some p →
      ∃ u, exec (.progUnload h) s = .next u ∧ Replied s u f h 0x0031 0 [] ∧ (u.ctx h.ctx).prog = none ∧
        ∀ t ∈ p.tiles, ∀ st : Stream, (u.seq t st).plen = 0 ∧ (u.seq t st).pbase = 0) ∧
    (Accepts s (.stepArm h n count) f h i → (s.ctx h.ctx).prog ≠ none →
      ∃ u, exec (.stepArm h n count) s = .next u ∧ Chg [.ctxs, .fns, .outbox] s u ∧ Replied s u f h 0x0040 0 [] ∧
        u.ctx h.ctx = { s.ctx h.ctx with step := { (s.ctx h.ctx).step with
          stepNo := n.toNat, left := count.toNat, endless := count.toNat == 0, armed := true, waitOpen := true, retryNext := false, halted := false } } ∧
        ∀ c, c ≠ h.ctx → u.ctx c = s.ctx c) ∧
    (Accepts s (.stepRun h) f h i → (s.ctx h.ctx).torn = false → (s.ctx h.ctx).frozen = false →
      ((s.ctx h.ctx).step.halted = false → (s.ctx h.ctx).step.armed = true → (s.ctx h.ctx).step.running = false →
        ∃ u, exec (.stepRun h) s = .next u ∧ Chg [.ctxs, .fns, .outbox] s u ∧ Replied s u f h 0x0041 0 [] ∧
          u.ctx h.ctx = { s.ctx h.ctx with step := { (s.ctx h.ctx).step with running := true } }) ∧
      ((s.ctx h.ctx).step.halted = true → s.board.sourcesMissing = false →
        ∃ u, exec (.stepRun h) s = .next u ∧ Replied s u f h 0x0041 0 [] ∧ Logged s u 0xA031 ∧ (u.ctx h.ctx).step.running = true ∧
          (u.ctx h.ctx).step.halted = false ∧ (u.ctx h.ctx).l1Cnt = min 0xFFFF ((s.ctx h.ctx).l1Cnt + 1) ∧ (u.ctx h.ctx).lastLevel = 1)) ∧
    (Accepts s (.stepAbort h) f h i →
      (s.idle h.ctx = true → ∃ u, exec (.stepAbort h) s = .next u ∧ Replied s u f h 0x0042 0 (leB 8 (2 ^ 64 - 1)) ∧
        (u.ctx h.ctx).step.running = false ∧ (u.ctx h.ctx).step.halted = false) ∧
      (s.idle h.ctx = false → ∃ u, exec (.stepAbort h) s = .next u ∧ WaitsFor u f h 0x0042 (.abort 0) ∧ (u.ctx h.ctx).step.hostAbort = true ∧
        ∃ x ∈ (u.ctx h.ctx).step.causes, x.code = 0 ∧ x.retry = false)) ∧
    (Accepts s (.stepStatus h) f h i →
      ∃ u, exec (.stepStatus h) s = .next u ∧ Chg [.fns, .outbox] s u ∧ Replied s u f h 0x0043 0 (s.statusBody h.ctx))) ∧
  (∀ (s : State) (f : FnId) (h : ReqHdr) (i : CmdInfo) (tbl cfmt ca len : Nat) (clr : Bool) (image : List Byte) (g : Grist), tbl < 64 →
    (Accepts s (.tableBuild h tbl cfmt clr ca len) f h i → sfOk cfmt = true → len ≤ 2 ^ 30 → s.inRegions h.ctx ca len = true →
      ∃ u, exec (.tableBuild h tbl cfmt clr ca len) s = .next u ∧ Replied s u f h 0x0050 0 (u.table h.ctx tbl).image ∧
        u.table h.ctx tbl =
          ((if clr = true then { s.table h.ctx tbl with cnt := [] } else s.table h.ctx tbl).count cfmt (s.elemsAt h.ctx cfmt ca len)).build cfmt ∧
        (∀ n, n ≠ tbl → u.table h.ctx n = s.table h.ctx n) ∧ u.mem = s.mem) ∧
    (Accepts s (.tableLoad h tbl image) f h i → gristOfImage image [] ≠ none → gristOfImage image (s.table h.ctx tbl).cnt = some g →
      ∃ u, exec (.tableLoad h tbl image) s = .next u ∧ Chg [.ctxs, .fns, .outbox] s u ∧ Replied s u f h 0x0051 0 [] ∧ u.table h.ctx tbl = g ∧
        ∀ n, n ≠ tbl → u.table h.ctx n = s.table h.ctx n))

/-- Checkpoints and exports (R210, R290, R391-R393, R455). CKPT_SEAL to the cellar keeps the context's records as they stand under the ID, or waits for
write credit, which CMD_DONE ends; to the host it sends them sealed; both run on, detached, and change no memory. CKPT_DELETE frees what is held
under the ID. CKPT_RESTORE of a checkpoint whose every tag holds writes its records, sets SEL to 0 and clears TORN; one that is refused writes
nothing. STATE_EXPORT runs on, detached. CMD_DONE writes the done entry of the first detached command that has ended, at HEAD, and logs 0xA020; with
none it does nothing. -/
def Obligations.CheckpointCommands : Prop :=
  ∀ (s s1 : State) (f : FnId) (h : ReqHdr) (i : CmdInfo) (id : Word) (src dst flid : Nat) (image : List Byte),
    (Accepts s (.ckptSeal h id 0 dst) f h i → h.del = false → cellarFitted s.variant = true → s.ckptHeld h.ctx id = false → s.cel.readOnly = false →
      s.sealCel h.ctx id = some s1 →
      (s.celCkptOk = true → ∃ u, exec (.ckptSeal h id 0 dst) s = .next u ∧ u.mem = s.mem ∧
        DetachedAs s u f h 0x0060 (.sealCel id true (s.sealReply h.ctx id)) ∧
        ∃ k ∈ u.cel.ckpts, k.ctx = h.ctx ∧ k.ckid = id ∧ k.lid = s.board.lid ∧ k.boardId = s.boot.boardId ∧
          k.step = (s.ctx h.ctx).step.lastCommit ∧ k.sel = (s.ctx h.ctx).sel ∧ k.parts = s.contents h.ctx ∧ k.frames.length = s.ckptG h.ctx + 1) ∧
      (s.celCkptOk = false → ∃ u, exec (.ckptSeal h id 0 dst) s = .next u ∧ Chg [.fns, .outbox] s u ∧
        DetachedAs s u f h 0x0060 (.sealCel id false (s.sealReply h.ctx id)))) ∧
    (Accepts s (.ckptSeal h id 1 dst) f h i → h.del = false → s.ckptHeld h.ctx id = false →
      s.hostRoom h.ctx dst ((s.ckptG h.ctx + 1) * granule) = true →
      ∃ u, exec (.ckptSeal h id 1 dst) s = .next u ∧ u.mem = s.mem ∧ u.cel = s.cel ∧
        DetachedAs s u f h 0x0060 (.seal id (if s.hostPath h.ctx = true then 0 else 0x000F) (s.sealReply h.ctx id))) ∧
    (Accepts s (.ckptDelete h id) f { h with del := true } i → s.ckptHeld h.ctx id = true →
      ∃ u, exec (.ckptDelete h id) s = .next u ∧ Replied s u f h 0x0060 0 (s.sealReply h.ctx id) ∧ u.mem = s.mem ∧
        u.cel.ckpts = s.cel.ckpts.filter (fun k => !(k.ctx == h.ctx && k.ckid == id))) ∧
    (Accepts s (.ckptRestore h id src flid dst image) f h i → src = 0 ∧ cellarFitted s.variant = true ∨ src = 1 ∧ s.hostRoom h.ctx dst granule = true →
      (∀ n m, s.readCkpt h.ctx id src flid image = .refused n m →
        ∃ u, exec (.ckptRestore h id src flid dst image) s = .next u ∧ u.mem = s.mem ∧ u.poison = s.poison ∧ (u.ctx h.ctx) = s.ctx h.ctx ∧
          RepliedWith u f h 0x0061 n []) ∧
      (∀ n parts, s.readCkpt h.ctx id src flid image = .ok n parts →
        ∃ u, exec (.ckptRestore h id src flid dst image) s = .next u ∧ (u.ctx h.ctx).sel = false ∧ (u.ctx h.ctx).torn = false ∧
          u.mem = (parts.foldl (fun s p => (s.heatCa h.ctx p.1 p.2.length).wrEngine h.ctx p.1 p.2) s).mem ∧
          DetachedAs s u f h 0x0061 (.restore (leB 8 id.toNat ++ leB 8 n)))) ∧
    (Accepts s (.stateExport h dst) f h i → s.hostRoom h.ctx dst (s.exportBytes h.ctx) = true →
      ∃ u, exec (.stateExport h dst) s = .next u ∧ u.mem = s.mem ∧ u.ctxs = s.ctxs ∧
        DetachedAs s u f h 0x0062 (.exporting (if s.exportGranules h.ctx = [] ∨ s.hostPath h.ctx = true then 0 else 0x000F) (s.exportBytes h.ctx))) ∧
    (s.live = true →
      let none : Prop := s.celCkptOk = false ∨ ∀ k ∈ (s.fn f.val).detached, ∀ id rep, k.wait ≠ .sealCel id false rep
      ((∃ k r rep, (s.fn f.val).detached = k :: r ∧ k.wait = .sealCel id false rep ∧ s.celCkptOk = true ∧ s.sealCel k.ctx id = some s1) →
        ∃ u, exec (.cmdDone f) s = .next u ∧ ∃ x ∈ u.cel.ckpts, x.ckid = id ∧ x.lid = s.board.lid ∧ x.boardId = s.boot.boardId) ∧
      (none → (∀ k ∈ (s.fn f.val).detached, s.cmdEnd k = .none) → exec (.cmdDone f) s = .next s) ∧
      (none → ∀ k r n body, (s.fn f.val).detached = k :: r → s.cmdEnd k = some (s1, n, body) →
        let l := if n = 0 then (padBody body).take 48 else []
        ∃ u, exec (.cmdDone f) s = .next u ∧ Logged s1 u 0xA020 ∧ (u.fn f.val).detached = r ∧ (u.fn f.val).head = ((s.fn f.val).head + 1) % 16 ∧
          smGet {} (u.fn f.val).ring (s.fn f.val).head = ⟨k.cmd, k.seq, l.length, k.ctx, false, n, l⟩))

/-- Commands of the board (R209, R322, R340, R343, R395, R396, R453). BOARD_JOIN of a slot whose neighbours are reached takes the role that the bundle's
map gives the slot; it is refused, with 0x5004 or 0x8005 logged, where a module is not reached or does not authenticate, and where the bundle or the
variant has no such slot. BOARD_REMAP at the beat master is sent, and replies after its tick. SPARE_TAKEOVER marks the logical ID failed and runs
on, detached. MIRROR_SET sets the context's mirroring and the code of its sums. -/
def Obligations.BoardCommands : Prop :=
  ∀ (s : State) (f : FnId) (h : ReqHdr) (i : CmdInfo) (slot tick spare flid mcmp d1 d2 : Nat) (cap boardId : Word) (epoch : BitVec 32) (auth on en : Bool)
    (slots : List Nat),
    (Accepts s (.boardJoin h slot cap boardId epoch auth) f h i → (s.linkEntry slot).1 ≠ 0 → slotIdOk s.variant slot = true → (∀ c, c < 16 → (s.ctx c).st ≠ .isOpen) →
      let lid := s.joinLid slot epoch
      lid = 0 ∨ bits cap.toNat 56 8 = bits (capWord s.variant) 56 8 →
      (s.unreached slot = true → ∃ u, exec (.boardJoin h slot cap boardId epoch auth) s = .next u ∧ Replied s u f h 0x0070 0x0004 [] ∧
        u.board = s.board ∧ Logged s u 0x5004) ∧
      (s.unreached slot = false → s.keyExchange lid boardId = true → auth = false →
        ∃ u, exec (.boardJoin h slot cap boardId epoch auth) s = .next u ∧ Replied s u f h 0x0070 0x000B [] ∧ u.board = s.board ∧ Logged s u 0x8005) ∧
      (s.unreached slot = false → s.keyExchange lid boardId = false ∨ auth = true →
        ∃ u, exec (.boardJoin h slot cap boardId epoch auth) s = .next u ∧
          Replied s u f h 0x0070 0 (leB 1 lid ++ leB 1 (s.slotsOfRole 1).length ++ leB 2 0 ++ leB 4 epoch.toNat) ∧
          u.board.lid = lid ∧ u.board.slot = slot ∧ u.board.epoch = epoch ∧ u.board.nact = (s.slotsOfRole 1).length ∧ u.board.failed = 0 ∧
          u.boot.kb ≠ none ∧ (lid ≠ 0 → u.boot.boardId = boardId ∧ u.source = 2))) ∧
    (Accepts s (.boardJoin h slot cap boardId epoch auth) f h i → (s.linkEntry slot).1 = 0 ∨ slotIdOk s.variant slot = false →
      ∃ u, exec (.boardJoin h slot cap boardId epoch auth) s = .next u ∧ Replied s u f h 0x0070 0x0004 [] ∧ u.board = s.board ∧ u.evt = s.evt) ∧
    (Accepts s (.boardRemap h tick slots spare) f h i → s.board.lid = 0 → s.board.remapAt = none → (∀ c, c < 16 → s.idle c = true) →
      s.remapBad tick slots spare = false →
      ∃ u, exec (.boardRemap h tick slots spare) s = .next u ∧ WaitsFor u f h 0x0071 .remap ∧ u.board.remapAt = some (tick, slots, spare) ∧
        ∀ l, l < 9 → s.peerIx l = true → s.linked (s.portOfIx l) = true → ∃ n, Msg.flit (s.portOfIx l)
          (mkFlit { ftype := .control, ctx := 0, srcLid := 0, lseq := n } (toBytes 8 tick ++ slots.map (BitVec.ofNat 8) ++ toBytes 4 spare) .remap) ∈ u.outbox) ∧
    (Accepts s (.spareTakeover h flid) f h i → flid < 8 → flid < s.board.nact → s.tkoRuns = false →
      ∃ u, exec (.spareTakeover h flid) s = .next u ∧ DetachedAs s u f h 0x0072 .takeover ∧ bitOf u.board.failed.toNat flid = true ∧
        u.board.flid = flid ∧ u.mem = s.mem ∧
        (s.board.spareOk = true ∨ s.isSpare = true → u.board.phase = 1 ∧ u.board.remapAt ≠ none)) ∧
    (Accepts s (.mirrorSet h on en mcmp d1 d2) f h i → d1 % granule = 0 → d2 % granule = 0 → d1 < 2 ^ 48 → d2 < 2 ^ 48 → mcmp < 64 →
      ∃ u, exec (.mirrorSet h on en mcmp d1 d2) s = .next u ∧ Chg [.ctxs, .board, .fns, .outbox] s u ∧ Replied s u f h 0x0073 0 [] ∧
        u.ctx h.ctx = { s.ctx h.ctx with mirror := on, shd1 := d1, shd2 := d2 } ∧ (∀ c, c ≠ h.ctx → u.ctx c = s.ctx c) ∧
        u.board = { s.board with mcmp := mcmp, mcmpEn := en })

/-- Bundles (R397-R400, R448). CFG_STAGE: the first chunk erases the other slot and begins a staging; a further one is appended; the last has the bundle
verified, and the slot is STAGED or erased. CFG_COMMIT of a staged bundle that boots makes it the active one, in probation, through an L3;
CFG_REVERT in probation makes the fallback the active one, through an L3. PROBATION_END after PROB_S seconds or PROB_STEPS commits confirms the
bundle and advances the anti-rollback counter to its version. -/
def Obligations.BundleCommands : Prop :=
  ∀ (s : State) (f : FnId) (h : ReqHdr) (i : CmdInfo) (r : StageReq) (b : Bundle) (k : Staging),
    (Accepts s (.cfgStage h r b) f h i → s.boot.probation = false → s.stagingHeld f.val = false →
      (r.offset = 0 → h.last = false → r.data.length ≤ r.total →
        ∃ u, exec (.cfgStage h r b) s = .next u ∧ Chg [.boot, .fns, .outbox] s u ∧ Replied s u f h 0x0080 0 (leB 4 r.data.length) ∧
          u.boot.staging = some ⟨f.val, r.total, r.data, s.beat.now⟩ ∧ u.boot.otherSt = .empty ∧ u.boot.active = s.boot.active) ∧
      (s.boot.staging = some k → k.owner = f.val → r.offset = k.bytes.length → r.offset ≠ 0 → r.total = k.total → h.last = false →
        (k.bytes ++ r.data).length ≤ r.total →
        ∃ u, exec (.cfgStage h r b) s = .next u ∧ Chg [.boot, .fns, .outbox] s u ∧ Replied s u f h 0x0080 0 (leB 4 (k.bytes ++ r.data).length) ∧
          u.boot.staging = some ⟨f.val, r.total, k.bytes ++ r.data, s.beat.now⟩ ∧ u.boot.otherSt = s.boot.otherSt) ∧
      ∀ bytes : List Byte, h.last = true → bytes.length = r.total →
        r.offset = 0 ∧ bytes = r.data ∨
          s.boot.staging = some k ∧ k.owner = f.val ∧ r.offset = k.bytes.length ∧ r.offset ≠ 0 ∧ r.total = k.total ∧ bytes = k.bytes ++ r.data →
        let x := Bundle.ofBytes bytes b
        ∃ u, exec (.cfgStage h r b) s = .next u ∧ Chg [.boot, .fns, .outbox] s u ∧ u.boot.staging = none ∧ u.boot.active = s.boot.active ∧
          if s.verifyBundle bytes x = 0 then
            Replied s u f h 0x0080 0 (leB 4 bytes.length) ∧ u.boot.otherSt = .staged ∧ u.boot.other = x
          else Replied s u f h 0x0080 (s.verifyBundle bytes x) [] ∧ u.boot.otherSt = .empty) ∧
    (Accepts s (.cfgCommit h) f h i → s.boot.otherSt = .staged → s.boot.ctrLost = false → s.anyStep = false → s.anyDetached = false →
      s.slotOk s.boot.other s.boot.otherSig = true →
      ∃ u, exec (.cfgCommit h) s = .next u ∧ u.boot.active = s.boot.other ∧ u.boot.probation = true ∧ u.boot.probCommits = 0 ∧
        u.boot.ctr = s.boot.ctr ∧ (s.boot.recovery = false → u.boot.other = s.boot.active ∧ u.boot.otherSt = .fallback) ∧ u.evt.rstLevel = 3 ∧
        u.evt.rstCode = 0x0081 ∧ u.tiles = [] ∧ ∃ e, u.evt.log.head? = some e ∧ e.code = 0xA002) ∧
    (Accepts s (.cfgRevert h) f h i → s.boot.probation = true → s.anyStep = false → s.boot.otherSt = .fallback → s.boot.ctrLost = false →
      s.slotOk s.boot.other s.boot.otherSig = true →
      ∃ u, exec (.cfgRevert h) s = .next u ∧ u.boot.active = s.boot.other ∧ u.boot.probation = false ∧ u.boot.otherSt = .empty ∧
        u.boot.ctr = s.boot.ctr ∧ u.evt.rstLevel = 3 ∧ u.evt.rstCode = 0x0082 ∧ u.tiles = []) ∧
    (s.live = true →
      (s.probationOver = false → exec .probationEnd s = .next s) ∧
      (s.probationOver = true → ∃ u, exec .probationEnd s = .next u ∧ Logged s u 0xA003 ∧ u.boot.probation = false ∧
        u.boot.ctr = s.boot.active.version ∧ u.boot.ctrOld = s.boot.ctr ∧ u.boot.active = s.boot.active ∧ u.boot.otherSt = .empty))

/-- Reads, quotes, resets and the management side (R425, R427-R430, R450-R452, R457). ATTEST_QUOTE with a NONCE replies with the length, 6,163, and the
first 4,072 bytes of a new quote; without one, with the next part of the pending quote. IDENTITY_GET, EVENT_READ and TELEMETRY_READ change nothing
but their reply. RESET_FUNC replies and then takes L2 of the context's function; RESET_DEVICE replies and takes L3, keeping contexts where KEEP is
set. A management message is answered on its own side, where the part has power; one whose turn has not come waits, and any other is answered BUSY
meanwhile. -/
def Obligations.ServiceCommands : Prop :=
  ∀ (s : State) (f : FnId) (h : ReqHdr) (i : CmdInfo) (nonce : List Byte) (o n m : Nat) (own : FnId) (q : BitVec 16) (b : Bundle) (g : MgmtReq),
    (Accepts s (.attestQuote h nonce) f h i →
      ((∃ x ∈ nonce, x ≠ 0) → ∃ u, exec (.attestQuote h nonce) s = .next u ∧ Chg [.fns, .outbox] s u ∧
        Replied s u f h 0x00A0 0 (leB 4 6163 ++ leB 4 0 ++ (s.quote f.val nonce).take 4072) ∧ (u.fn f.val).quote = s.quote f.val nonce ∧
        (u.fn f.val).quoteOff = 4072) ∧
      ((∀ x ∈ nonce, x = 0) → (s.fn f.val).quote ≠ [] →
        let x := s.fn f.val
        let part := (x.quote.drop x.quoteOff).take 4072
        ∃ u, exec (.attestQuote h nonce) s = .next u ∧ Chg [.fns, .outbox] s u ∧
          Replied s u f h 0x00A0 0 (leB 4 x.quote.length ++ leB 4 x.quoteOff ++ part) ∧
          (x.quoteOff + part.length < x.quote.length → (u.fn f.val).quote = x.quote ∧ (u.fn f.val).quoteOff = x.quoteOff + part.length) ∧
          (x.quote.length ≤ x.quoteOff + part.length → (u.fn f.val).quote = []))) ∧
    (Accepts s (.identityGet h o) f h i → ∃ u, exec (.identityGet h o) s = .next u ∧ Chg [.fns, .outbox] s u ∧
      Replied s u f h 0x00A1 0 (leB 4 Config.certChain.length ++ (Config.certChain.drop o).take 4072)) ∧
    (Accepts s (.eventRead h n m) f h i → ∃ u, exec (.eventRead h n m) s = .next u ∧ Chg [.fns, .outbox] s u ∧
      Replied s u f h 0x00B0 0 (s.eventBody f.val n m)) ∧
    (Accepts s (.telemetryRead h) f h i → ∃ u, exec (.telemetryRead h) s = .next u ∧ Chg [.fns, .outbox] s u ∧ Replied s u f h 0x00C0 0 s.telemetry) ∧
    (Accepts s (.resetFunc h) f h i → (s.ctx h.ctx).owner = some own → s.fnCtx own.val = some h.ctx → (s.fn own.val).l2 = none → s.idle h.ctx = true →
      ∃ u, exec (.resetFunc h) s = .next u ∧ (u.fn f.val).reply = some ⟨0x0090, h.seq, 0, h.ctx, false, 0, []⟩ ∧ (u.fn own.val).needHello = true ∧
        (u.fn own.val).reset = true ∧ (u.ctx h.ctx).prog = none ∧ (u.ctx h.ctx).owner = some own ∧ (u.ctx h.ctx).lastLevel = 2 ∧
        (u.ctx h.ctx).lastCode = 0x0090 ∧ ∀ t ∈ s.ctxTiles h.ctx, (u.tile t).sems = []) ∧
    (Accepts s (.resetDevice h) f h i →
      ∃ u, exec (.resetDevice h) s = .next u ∧ u.evt.rstLevel = 3 ∧ u.evt.rstCode = 0x0091 ∧ u.evt.l3Cnt = min 0xFFFF (s.evt.l3Cnt + 1) ∧
        u.tiles = [] ∧ u.xfers = [] ∧ u.live = true ∧ (h.keep = false → u.ctxs = []) ∧
        (h.keep = true → ∀ c, c < 16 → (s.ctx c).st = .isOpen → (u.ctx c).st = .isOpen ∧ (u.ctx c).frozen = true)) ∧
    (s.pwr.powered = false → exec (.mctpMessage q o false false g b) s = .next s) ∧
    (s.live = true → s.serving = true → s.boot.recovery = false →
      let answer (code : Nat) (body : List Byte) : Msg := .mgmt ⟨code, q, (padBody body).length, 0xFF, false, 0, padBody body⟩
      (∀ k, (s.fn 16).mgmt = some k → k ≠ (0x0001, q) →
        exec (.mctpMessage q 0xFF false false .hello b) s = .next { s with outbox := s.outbox ++ [.mgmt ⟨0x0001, q, 0, 0xFF, false, 0x0006, []⟩] }) ∧
      ((s.fn 16).mgmt = some (0x0001, q) → s.postTurn 16 s.beat.now = true → ∃ u, exec (.mctpMessage q 0xFF false false .hello b) s = .next u ∧
        Chg [.fns, .outbox] s u ∧ (u.fn 16).mgmt = none ∧ u.outbox = s.outbox ++ [answer 0x0001 (s.helloBody 16)]) ∧
      ((s.fn 16).mgmt = none → s.postTurn 16 s.beat.now = true →
        exec (.mctpMessage q 0xFF false false .hello b) s = .next { s with outbox := s.outbox ++ [answer 0x0001 (s.helloBody 16)] }) ∧
      ((s.fn 16).mgmt = none → s.postTurn 16 s.beat.now = false →
        ∃ u, exec (.mctpMessage q 0xFF false false .hello b) s = .next u ∧ Chg [.fns] s u ∧ (u.fn 16).mgmt = some (0x0001, q)) ∧
      ((s.fn 16).mgmt = none → exec (.mctpMessage q 0xFF false false .telemetryRead b) s = .next { s with outbox := s.outbox ++ [answer 0x00C0 s.telemetry] } ∧
        exec (.mctpMessage q 0xFF false false (.eventRead n m) b) s = .next { s with outbox := s.outbox ++ [answer 0x00B0 (s.eventBody 16 n m)] }) ∧
      ((s.fn 16).mgmt = none → mgmtServes o = false → ∃ u, exec (.mctpMessage q 0xFF false false (.other o) b) s = .next u ∧ Logged s u 0x8008 ∧
        u.outbox.getLast? = some (.mgmt ⟨o, q, 0, 0xFF, false, 0x0002, []⟩)))

/-- What an instruction, its completion and its stream's events change at the most, whatever they meet: a fault, a wait, a record or an abort request
among them. -/
def Obligations.FrameInstructions : Prop :=
  (∀ (t : TileId) (st : Stream) (w : Insn), ∀ i ∈ ([.nop t st w, .jump t st w, .call t st w, .ret t st w, .loop t st w, .prefetch t st w,
      .waitBeat t st w, .commitPoint t st w, .semSet t st w, .semSignal t st w, .semWait t st w, .caskRelease t st w] : List Instr), Only
      [.old, .tiles, .ctxs, .fns, .mem, .poison, .evt, .outbox] i) ∧
  (∀ (t : TileId) (st : Stream) (w : Insn), Only [.old, .tiles, .ctxs, .fns, .mem, .poison, .rsigs, .evt, .outbox] (.semSignalRemote t st w)) ∧
  (∀ (t : TileId) (st : Stream) (w : Insn), ∀ i ∈ ([.dmaRead t st w, .dmaWrite t st w, .dmaCopy t st w, .linkSend t st w, .recvPost t st w] :
      List Instr), Only [.old, .tiles, .ctxs, .fns, .mem, .poison, .mig, .xfers, .evt, .outbox] i) ∧
  (∀ (t : TileId) (st : Stream) (w : Insn), Only [.old, .tiles, .ctxs, .fns, .mem, .poison, .hdrs, .hdrPoison, .place, .mig, .xfers,
      .contribs, .rsigs, .evt, .outbox] (.dmaFill t st w)) ∧
  (∀ (t : TileId) (st : Stream) (w : Insn), ∀ i ∈ ([.dmaWait t st w, .linkWait t st w, .kilnWait t st w] : List Instr), Only [.old, .tiles,
      .ctxs, .fns, .mem, .poison, .xfers, .evt, .outbox] i) ∧
  (∀ (t : TileId) (st : Stream) (w : Insn), ∀ i ∈ ([.mm t st w, .mmOvw t st w, .mmDrain t st w, .accZero t st w, .chainRun t st w,
      .chainRunAcc t st w] : List Instr), Only [.old, .arbs, .tiles, .ctxs, .fns, .mem, .poison, .place, .mig, .xfers, .evt, .outbox] i) ∧
  (∀ (t : TileId) (st : Stream) (w : Insn), Only [.old, .tiles, .ctxs, .fns, .mem, .poison, .ports, .board, .evt, .outbox] (.scalarReduce t st
      w)) ∧
  (∀ (t : TileId) (st : Stream) (w : Insn), Only [.old, .tiles, .ctxs, .fns, .mem, .poison, .place, .mig, .xfers, .upds, .evt, .outbox]
      (.kilnUpdate t st w)) ∧
  (∀ (t : TileId) (st : Stream) (w : Insn), ∀ i ∈ ([.caskPut t st w, .caskGet t st w] : List Instr), Only [.old, .tiles, .ctxs, .fns, .mem,
      .poison, .hdrs, .hdrPoison, .place, .mig, .rsigs, .evt, .outbox] i) ∧
  (∀ (t : TileId) (st : Stream) (seq : Nat), Only [.old, .arbs, .tiles, .ctxs, .fns, .mem, .poison, .place, .mig, .xfers, .evt, .outbox]
      (.insnComplete t st seq)) ∧
  (∀ (t : TileId) (st : Stream), Only [.tiles, .place, .mig] (.icacheFill t st)) ∧
  (∀ (t : TileId), Only [.old, .tiles, .ctxs, .fns, .mem, .poison, .rsigs, .evt, .outbox] (.remoteSignalApply t)) ∧
  (∀ (t : TileId) (st : Stream), Only [.old, .tiles, .fns, .mem, .poison, .hdrs, .hdrPoison, .place, .mig, .rsigs, .evt, .outbox]
      (.caskPutRetry t st)) ∧
  (∀ (t : TileId) (st : Stream), Only [.old, .tiles, .ctxs, .fns, .mem, .poison, .evt, .outbox] (.caskFull t st)) ∧
  (∀ (t : TileId) (st : Stream) (seq : Nat), Only [.old, .arbs, .tiles, .ctxs, .fns, .mem, .poison, .place, .mig, .xfers, .upds, .evt,
      .outbox] (.tagGrant t st seq)) ∧
  (∀ (t : TileId), Only [.tiles] (.xlocRearm t))

/-- What the mailbox commands change at the most. -/
def Obligations.FrameMailbox : Prop :=
  (∀ (h : ReqHdr), ∀ i ∈ ([.hello h, .stepStatus h, .telemetryRead h] : List Instr), Only [.fns, .evt, .outbox] i) ∧
  (∀ (h : ReqHdr) (r : OpenReq), Only [.tiles, .ctxs, .fns, .units, .board, .evt, .pwr, .outbox] (.ctxOpen h r)) ∧
  (∀ (h : ReqHdr), Only [.beat, .arbs, .tiles, .ctxs, .fns, .units, .poison, .place, .mig, .xfers, .upds, .contribs, .rsigs, .heldWrites,
      .board, .cel, .evt, .pwr, .outbox] (.ctxClose h)) ∧
  (∀ (h : ReqHdr) (r : QuotaReq), Only [.tiles, .ctxs, .fns, .place, .mig, .evt, .outbox] (.ctxQuotaSet h r)) ∧
  (∀ (h : ReqHdr), Only [.rwi, .rwiNew, .ctxs, .fns, .place, .mig, .cel, .evt, .outbox] (.ctxAdopt h)) ∧
  (∀ (h : ReqHdr) (r : MapReq), Only [.tiles, .ctxs, .fns, .place, .mig, .evt, .outbox] (.memMap h r)) ∧
  (∀ (h : ReqHdr) (ca : Nat), Only [.ctxs, .fns, .place, .mig, .cel, .evt, .outbox] (.memUnmap h ca)) ∧
  (∀ (h : ReqHdr) (ca : Nat) (gcnt : Nat) (tier : Nat), Only [.fns, .place, .mig, .evt, .outbox] (.memPin h ca gcnt tier)) ∧
  (∀ (h : ReqHdr) (ca : Nat) (gcnt : Nat) (tier : Nat), Only [.fns, .place, .evt, .outbox] (.memUnpin h ca gcnt tier)) ∧
  (∀ (h : ReqHdr) (ca : Nat) (gcnt : Nat) (tier : Nat), Only [.fns, .mig, .evt, .outbox] (.memHint h ca gcnt tier)) ∧
  (∀ (h : ReqHdr) (ca : Nat) (len : Nat), Only [.tiles, .ctxs, .fns, .units, .mem, .poison, .place, .evt, .outbox] (.progLoad h ca len)) ∧
  (∀ (h : ReqHdr), Only [.arbs, .tiles, .ctxs, .fns, .place, .evt, .outbox] (.progUnload h)) ∧
  (∀ (h : ReqHdr) (stepNo : Word) (count : Word), Only [.ctxs, .fns, .evt, .outbox] (.stepArm h stepNo count)) ∧
  (∀ (h : ReqHdr), Only [.beat, .ctxs, .fns, .mig, .board, .evt, .outbox] (.stepRun h)) ∧
  (∀ (h : ReqHdr), Only [.beat, .ctxs, .fns, .evt, .outbox] (.stepAbort h)) ∧
  (∀ (h : ReqHdr) (tbl : Nat) (cfmt : Nat) (clr : Bool) (ca : Nat) (len : Nat), Only [.ctxs, .fns, .place, .mig, .evt, .outbox] (.tableBuild h
      tbl cfmt clr ca len)) ∧
  (∀ (h : ReqHdr) (tbl : Nat) (image : List Byte), Only [.ctxs, .fns, .evt, .outbox] (.tableLoad h tbl image)) ∧
  (∀ (h : ReqHdr) (ckid : Word) (dest : Nat) (dstCa : Nat), Only [.fns, .poison, .rsigs, .cel, .evt, .boot, .outbox] (.ckptSeal h ckid dest
      dstCa)) ∧
  (∀ (h : ReqHdr) (ckid : Word), Only [.fns, .poison, .cel, .evt, .outbox] (.ckptDelete h ckid)) ∧
  (∀ (h : ReqHdr) (ckid : Word) (src : Nat) (flid : Nat) (srcCa : Nat) (image : List Byte), Only [.ctxs, .fns, .mem, .poison, .hdrs,
      .hdrPoison, .place, .mig, .evt, .outbox] (.ckptRestore h ckid src flid srcCa image)) ∧
  (∀ (h : ReqHdr) (dstCa : Nat), Only [.fns, .rsigs, .evt, .outbox] (.stateExport h dstCa)) ∧
  (∀ (h : ReqHdr) (slotId : Nat) (masterCap : Word) (boardId : Word) (epoch : BitVec 32) (peerAuth : Bool), Only [.beat, .cfg, .rwiNew, .hub,
      .fns, .board, .evt, .boot, .outbox] (.boardJoin h slotId masterCap boardId epoch peerAuth)) ∧
  (∀ (h : ReqHdr) (tick : Nat) (slots : List Nat) (spare : Nat), Only [.fns, .ports, .board, .evt, .outbox] (.boardRemap h tick slots spare)) ∧
  (∀ (h : ReqHdr) (flid : Nat), Only [.ctxs, .fns, .ports, .board, .evt, .outbox] (.spareTakeover h flid)) ∧
  (∀ (h : ReqHdr) (on : Bool) (mcmpEn : Bool) (mcmp : Nat) (delta1 : Nat) (delta2 : Nat), Only [.ctxs, .fns, .board, .evt, .outbox]
      (.mirrorSet h on mcmpEn mcmp delta1 delta2)) ∧
  (∀ (h : ReqHdr) (r : StageReq) (parsed : Bundle), Only [.fns, .evt, .boot, .outbox] (.cfgStage h r parsed)) ∧
  (∀ (h : ReqHdr), Only [.beat, .rwi, .rwiNew, .arbs, .tiles, .ctxs, .fns, .units, .mem, .poison, .place, .mig, .xfers, .upds, .contribs,
      .rsigs, .heldWrites, .board, .cel, .evt, .outbox] (.resetFunc h)) ∧
  (∀ (h : ReqHdr) (nonce : List Byte), Only [.fns, .evt, .outbox] (.attestQuote h nonce)) ∧
  (∀ (h : ReqHdr) (offset : Nat), Only [.fns, .evt, .outbox] (.identityGet h offset)) ∧
  (∀ (h : ReqHdr) (from_ : Nat) (max : Nat), Only [.fns, .evt, .outbox] (.eventRead h from_ max)) ∧
  (∀ (f : FnId), Only [.tiles, .ctxs, .fns, .place, .mig, .cel, .evt, .boot, .outbox] (.cmdDone f))

/-- What the rows of beats, markers, verdicts, steps and arbiters change at the most.

What the rows of transfers, ledger contributions and updates change at the most.

What the rows of placement, host windows and the cellar change at the most.

What the rows of links and of the board change at the most.

What the rows of configuration, units, power and clocks change at the most. -/
def Obligations.FrameRows : Prop :=
  ((∀ (p : PortId) (image : List Byte), Only [.beat, .ports, .board, .outbox] (.markerReceive p image)) ∧
  (Only [.board, .outbox] .verdictForm) ∧
  (∀ (p : PortId) (image : List Byte), Only [.board, .outbox] (.verdictReceive p image)) ∧
  (∀ (v : Verdict), Only [.board] (.verdictReply v)) ∧
  (Only [.board] .verdictTimeout) ∧
  (∀ (c : CtxId), Only [.tiles, .ctxs, .board] (.stepOpen c)) ∧
  (∀ (c : CtxId), Only [.beat, .old, .arbs, .tiles, .ctxs, .fns, .units, .mem, .poison, .place, .mig, .xfers, .upds, .board, .evt, .boot,
      .outbox] (.stepCommit c)) ∧
  (∀ (x : AbortOf), Only [.beat, .rwi, .rwiNew, .old, .arbs, .tiles, .ctxs, .fns, .units, .mem, .poison, .place, .mig, .xfers, .upds,
      .contribs, .rsigs, .heldWrites, .ports, .board, .cel, .evt, .pwr, .outbox] (.abortTick x)) ∧
  (Only [.beat, .ctxs, .fns, .evt, .outbox] .holdover) ∧
  (Only [.beat] .holdoverClear) ∧
  (∀ (clk : Nat), Only [.beat, .fns, .evt, .outbox] (.beatInPulse clk)) ∧
  (Only [.beat, .fns, .evt, .outbox] .beatInErr) ∧
  (∀ (a : Nat) (d : DrawOf), Only [.old, .arbs, .tiles, .ctxs, .fns, .mem, .poison, .place, .mig, .xfers, .evt, .outbox] (.arbDraw a d)) ∧
  (∀ (p : Nat) (present : List PortReq), Only [.arbs] (.arbPreempt p present)) ∧
  (∀ (p : PortId) (tick : Nat), Only [.ports, .outbox] (.verdictRequest p tick))) ∧
  ((∀ (c : CtxId), Only [.ctxs, .fns, .mem, .poison, .hdrs, .hdrPoison, .place, .mig, .xfers, .upds, .evt, .outbox] (.weightRebuild c)) ∧
  (∀ (id : Nat) (host : HostCpl) (found : List RasFinding), Only [.old, .tiles, .ctxs, .fns, .mem, .poison, .hdrs, .hdrPoison, .place, .mig,
      .ras, .xfers, .contribs, .rsigs, .ports, .evt, .outbox] (.transferComplete id host found)) ∧
  (∀ (c : CtxId) (slice : Nat) (lid : Nat), Only [.ctxs, .fns, .mem, .poison, .hdrs, .hdrPoison, .place, .mig, .xfers, .contribs, .rsigs,
      .ports, .evt, .outbox] (.ledgerContribution c slice lid)) ∧
  (∀ (id : Nat), Only [.ctxs, .fns, .mem, .poison, .hdrs, .hdrPoison, .place, .mig, .xfers, .upds, .ports, .evt, .outbox] (.kilnStart id)) ∧
  (∀ (id : Nat), Only [.tiles, .ctxs, .fns, .mem, .poison, .hdrs, .hdrPoison, .place, .mig, .xfers, .upds, .rsigs, .evt, .outbox]
      (.conditioning id)) ∧
  (∀ (id : Nat), Only [.tiles, .ctxs, .fns, .mem, .poison, .hdrs, .hdrPoison, .place, .mig, .xfers, .upds, .rsigs, .ports, .evt, .outbox]
      (.deferredRun id)) ∧
  (∀ (c : CtxId), Only [.tiles, .ctxs, .mem, .poison, .place, .mig, .xfers, .upds] (.deferRecordTake c)) ∧
  (∀ (id : Nat), Only [.tiles, .ctxs, .mem, .poison, .place, .upds] (.updateRerun id)) ∧
  (∀ (c : CtxId), Only [.ctxs, .fns, .evt, .outbox] (.ledgerTimeout c)) ∧
  (∀ (c : CtxId) (step : Nat) (desc : Nat), Only [.ctxs, .fns, .mem, .poison, .place, .mig, .xfers, .upds, .evt, .outbox] (.shadowUpdate c
      step desc)) ∧
  (∀ (c : CtxId) (slice : Nat) (step : Nat) (sum : List F32) (poison : Bool), Only [.ctxs, .fns, .mem, .poison, .hdrs, .hdrPoison, .place,
      .evt, .outbox] (.mirrorSum c slice step sum poison)) ∧
  (∀ (id : Nat), Only [.old, .tiles, .ctxs, .fns, .mem, .poison, .hdrs, .hdrPoison, .place, .mig, .ras, .xfers, .contribs, .rsigs, .ports,
      .evt, .outbox] (.hostCompletionTimeout id))) ∧
  ((∀ (lgn : Nat), Only [.fns, .mem, .poison, .hdrs, .hdrPoison, .place, .mig, .rsigs, .heldWrites, .cel, .evt, .outbox] (.freshFillDone lgn)) ∧
  (Only [.ctxs, .fns, .place, .mig, .cel, .evt, .outbox] .moveStart) ∧
  (∀ (lgn : Nat), Only [.arbs, .ctxs, .fns, .units, .mem, .poison, .hdrs, .hdrPoison, .place, .mig, .upds, .rsigs, .heldWrites, .cel, .evt,
      .outbox] (.moveComplete lgn)) ∧
  (Only [.place, .mig] .heatDecay) ∧
  (∀ (c : CtxId) (ca : Nat), Only [.ctxs, .mem, .poison, .hdrs, .hdrPoison, .place, .cel] (.regionRelease c ca)) ∧
  (∀ (tier : Fin 3) (found : List RasFinding), Only [.fns, .poison, .hdrPoison, .place, .mig, .ras, .evt, .outbox] (.patrolScrub tier found)) ∧
  (∀ (f : FnId) (off : Nat) (data : List Byte) (rid : Nat) (b : WriteBits) (found : List RasFinding), Only [.ctxs, .fns, .hports, .mem,
      .poison, .hdrs, .hdrPoison, .place, .mig, .ras, .rsigs, .heldWrites, .evt, .outbox] (.windowWrite f off data rid b found)) ∧
  (∀ (f : FnId) (off : Nat) (r : ReadAsk), Only [.fns, .poison, .hdrPoison, .place, .mig, .ras, .evt, .outbox] (.windowRead f off r)) ∧
  (∀ (f : FnId) (n : Fin 16), Only [.fns, .mem, .poison, .hdrs, .hdrPoison, .place, .mig, .rsigs, .heldWrites, .evt, .outbox] (.flagVisible f
      n)) ∧
  (∀ (frame : Nat) (unit : Nat) (out : ReadOutcome), Only [.fns, .poison, .place, .cel, .evt, .outbox] (.cellarRead frame unit out)) ∧
  (∀ (frame : Nat), Only [.fns, .cel, .evt, .outbox] (.cellarWriteDone frame)) ∧
  (∀ (frame : Nat), Only [.cel] (.cellarRefresh frame)) ∧
  (∀ (reads : List (Nat × Nat × ReadOutcome)), Only [.fns, .poison, .place, .cel, .evt, .outbox] (.cellarPatrol reads)) ∧
  (∀ (ch : Fin 32) (die : Fin 5), Only [.fns, .poison, .place, .cel, .evt, .outbox] (.celDie ch die)) ∧
  (∀ i ∈ ([.cellarRebuildDone, .compaction, .wearLevel] : List Instr), Only [.fns, .cel, .evt, .outbox] i) ∧
  (∀ (sb : Nat) (l : LineFail), Only [.fns, .cel, .evt, .outbox] (.programFail sb l)) ∧
  (∀ (sb : Nat) (ch : Fin 32), Only [.fns, .cel, .evt, .outbox] (.eraseFail sb ch)) ∧
  (∀ (by_ : FnId) (f : FnId) (n : Fin 16) (v : Word), Only [.rwiNew] (.winFlagSet by_ f n v))) ∧
  ((∀ (p : PortId) (f : Flit), Only [.old, .tiles, .ctxs, .fns, .mem, .poison, .hdrs, .hdrPoison, .place, .xfers, .contribs, .ports, .board,
      .evt, .outbox] (.flitReceive p f)) ∧
  (∀ (p : PortId) (lseq : Nat), Only [.ports, .outbox] (.linkNak p lseq)) ∧
  (∀ (p : PortId) (c : CtxId) (tag : Nat) (m : ScalarVals), Only [.old, .tiles, .mem, .poison, .board] (.scalarReceive p c tag m)) ∧
  (∀ (p : PortId) (lanesOk : BitVec 8), Only [.ctxs, .fns, .ports, .evt, .outbox] (.laneDegraded p lanesOk)) ∧
  (∀ (p : PortId), Only [.ctxs, .fns, .ports, .evt, .outbox] (.portDown p)) ∧
  (∀ (l : Lid), Only [.ctxs, .fns, .ports, .board, .evt, .outbox] (.peerFailed l)) ∧
  (Only [.beat, .cfg, .rwiNew, .hub, .ctxs, .fns, .units, .ports, .board, .evt, .pwr, .outbox] .remapApply) ∧
  (∀ (sel : Bool), Only [.ctxs, .fns, .mig, .board, .evt, .outbox] (.takeoverStreamDone sel)) ∧
  (Only [.fns, .board, .evt, .outbox] .takeoverDone) ∧
  (Only [.ctxs, .fns, .board, .evt, .outbox] .spareLost) ∧
  (∀ (l : Lid) (k : Nat), Only [.cfg, .board] (.stretchReport l k)) ∧
  (∀ (x : HostPort) (rate : Nat) (width : Nat) (flit : Bool), Only [.fns, .hports, .evt, .outbox] (.hostPortTrained x rate width flit)) ∧
  (∀ (x : HostPort), Only [.rwi, .rwiNew, .ctxs, .fns, .hports, .evt, .outbox] (.portLost x)) ∧
  (∀ (f : FnId), Only [.beat, .rwi, .rwiNew, .arbs, .tiles, .ctxs, .fns, .hports, .units, .mem, .poison, .place, .mig, .xfers, .upds,
      .contribs, .rsigs, .heldWrites, .board, .cel, .evt, .outbox] (.functionLevelReset f)) ∧
  (∀ (p : PortId) (r : Training), Only [.ctxs, .fns, .ports, .evt, .outbox] (.linkTrainingDone p r)) ∧
  (∀ (p : PortId) (tag : Nat), Only [.xfers] (.notPosted p tag)) ∧
  (∀ (u : PhyUnit), Only [.fns, .place, .mig, .ras, .evt, .outbox] (.phyFault u)) ∧
  (∀ (x : HostPort), Only [.hports] (.perstRelease x)) ∧
  (∀ (x : HostPort) (enable : Bool) (n : Nat), Only [.rwi, .rwiNew, .fns, .hports] (.vfEnable x enable n))) ∧
  ((∀ (v : Word), Only [.cfg] (.cfgStrobe v)) ∧
  (∀ (v : Word) (maltster : Bool), Only [.cfg] (.cfgStrobeAt v maltster)) ∧
  (Only [.beat, .cfg, .rwi, .rwiNew, .old, .hub, .arbs, .tiles, .ctxs, .fns, .hports, .units, .mem, .poison, .hdrs, .hdrPoison, .place, .mig,
      .ras, .xfers, .upds, .contribs, .rsigs, .heldWrites, .ports, .board, .cel, .evt, .boot, .pwr, .outbox] .strobeAtApply) ∧
  (∀ (f : FnId) (bar : Nat) (off : Nat) (size : Nat) (v : Word), Only [.cfg, .rwiNew, .fns, .pwr, .outbox] (.registerWrite f bar off size v)) ∧
  (Only [.fns, .board, .evt, .outbox] .watchdog) ∧
  (∀ (code : BitVec 16), Only [.fns, .evt, .outbox] (.l4Request code)) ∧
  (∀ (u : UnitId), Only [.cfg, .fns, .units, .poison, .place, .ports, .evt, .outbox] (.unitWake u)) ∧
  (∀ (u : UnitId), Only [.units, .ports] (.unitAwake u)) ∧
  (∀ (u : UnitId), Only [.ctxs, .fns, .units, .mem, .poison, .ports, .pwr] (.pendingEnable u)) ∧
  (Only [.fns, .evt, .boot, .outbox] .probationEnd) ∧
  (∀ (meanW : Nat) (tj : Nat) (byPower : Bool), Only [.cfg, .fns, .ports, .evt, .pwr, .outbox] (.thermalEval meanW tj byPower)) ∧
  (∀ (mv : Nat), Only [.fns, .evt, .pwr, .outbox] (.vinRange mv)) ∧
  (∀ (rail : Nat), Only [.ctxs, .fns, .units, .ports, .board, .evt, .pwr, .outbox] (.railFault rail)) ∧
  (∀ (w : Nat), Only [.fns, .evt, .pwr, .outbox] (.powerPeak w)) ∧
  (Only [.fns, .evt, .outbox] .thermTripTimeout) ∧
  (∀ i ∈ ([.coolantHigh, .clkLoss] : List Instr), Only [.fns, .evt, .pwr, .outbox] i) ∧
  (Only [.hub, .ctxs, .fns, .mem, .poison, .hdrs, .evt, .boot, .outbox] .testEntry) ∧
  (∀ (tj : Nat), Only [.beat, .cfg, .rwiNew, .hub, .fns, .evt, .boot, .pwr, .outbox] (.thermTripRelease tj)) ∧
  (Only [.beat, .cfg, .rwiNew, .hub, .fns, .evt, .boot, .pwr, .outbox] .modRstRelease))
end

