-- ==== Sys2Proof/Laws/Cellar.lean ====
section
/-! SUPPORT. The parity of a superblock's row (R273, R280): any one unit of a row is the XOR of its parity and of the other units. -/

namespace Sys2Proof.Machine

/-- The XOR of a column of bytes. -/
theorem foldl_xor_start (l : List (List Byte)) (i : Nat) (a : Byte) :
    l.foldl (fun a u => a ^^^ u.getD i 0) a = a ^^^ l.foldl (fun a u => a ^^^ u.getD i 0) 0 := by
  induction l generalizing a with
  | nil => simp
  | cons u r ih =>
    rw [List.foldl_cons, List.foldl_cons, ih, ih (0 ^^^ u.getD i 0)]
    simp [BitVec.xor_assoc]

theorem xorBytes_length (l : List (List Byte)) : (xorBytes l).length = nandUnit := by simp [xorBytes]

theorem xorBytes_getD (l : List (List Byte)) {i : Nat} (h : i < nandUnit) :
    (xorBytes l).getD i 0 = l.foldl (fun a u => a ^^^ u.getD i 0) 0 := by
  simp [xorBytes, List.getD, h]

/-- The rebuild of step 9 gives the unit itself: the XOR of the row's parity unit and its other data units. -/
theorem rebuild_gives (before after : List (List Byte)) (u : List Byte) (h : u.length = nandUnit) :
    xorBytes (xorBytes (before ++ u :: after) :: (before ++ after)) = u := by
  apply List.ext_getElem
  · rw [xorBytes_length, h]
  · intro i h1 h2
    have hi : i < nandUnit := by simpa [xorBytes_length] using h1
    have e : (xorBytes (xorBytes (before ++ u :: after) :: (before ++ after))).getD i 0 = u.getD i 0 := by
      rw [xorBytes_getD _ hi, List.foldl_cons, xorBytes_getD _ hi]
      simp only [List.foldl_append, List.foldl_cons]
      simp only [foldl_xor_start _ i (_ ^^^ _)]
      generalize List.foldl (fun a u => a ^^^ List.getD u i 0) 0 before = x
      generalize List.foldl (fun a u => a ^^^ List.getD u i 0) 0 after = y
      generalize u.getD i 0 = z
      refine BitVec.eq_of_getLsbD_eq fun j _ => ?_
      simp only [BitVec.getLsbD_xor]
      cases x.getLsbD j <;> cases y.getLsbD j <;> cases z.getLsbD j <;> simp
    simpa [List.getD, h1, h2] using e

end Sys2Proof.Machine
end

