-- ==== Sys2Proof/Laws/Memory.lean ====
section
/-! SUPPORT. Sparse tables and memory: the canonical form, reading what was written, and that every memory operation keeps the form. -/

namespace Sys2Proof.Machine

variable {α : Type} [DecidableEq α] {d : α}

/-- The canonical form as keys in rising order and no default value. -/
theorem smWf_iff (m : SMap α) : smWf d m = true ↔ m.Pairwise (fun a b => a.1 < b.1) ∧ ∀ p ∈ m, p.2 ≠ d := by
  induction m with
  | nil => simp [smWf]
  | cons p r ih =>
    obtain ⟨k, v⟩ := p
    cases r with
    | nil => simp [smWf]
    | cons q r =>
      obtain ⟨k', v'⟩ := q
      simp only [smWf, Bool.and_eq_true, decide_eq_true_eq, ih, List.pairwise_cons, List.mem_cons, forall_eq_or_imp, ne_eq]
      constructor
      · rintro ⟨⟨hv, hk⟩, ⟨h1, h2⟩, hv', h3⟩
        refine ⟨⟨⟨hk, fun a ha => ?_⟩, h1, h2⟩, hv, hv', h3⟩
        have := h1 a ha
        omega
      · rintro ⟨⟨⟨hk, _⟩, h1, h2⟩, hv, hv', h3⟩
        exact ⟨⟨hv, hk⟩, ⟨h1, h2⟩, hv', h3⟩

/-- A filtered table keeps the form. -/
theorem smWf_filter {m : SMap α} (f : Nat × α → Bool) (h : smWf d m = true) : smWf d (m.filter f) = true := by
  rw [smWf_iff] at *
  exact ⟨h.1.filter f, fun p hp => h.2 p (List.mem_filter.mp hp).1⟩

theorem smWf_smErase {m : SMap α} (lo hi : Nat) (h : smWf d m = true) : smWf d (smErase m lo hi) = true := smWf_filter _ h

/-- The entries of a table after an entry is put are its entries and the one put. -/
theorem mem_smPut {β : Type} {m : SMap β} {n : Nat} {v : β} {p : Nat × β} (hp : p ∈ smPut m n v) : p ∈ m ∨ p = (n, v) := by
  induction m with
  | nil => exact .inr (by simpa [smPut] using hp)
  | cons q r ih =>
    obtain ⟨k, u⟩ := q
    unfold smPut at hp
    split at hp
    · rcases List.mem_cons.mp hp with h | h
      · exact .inr h
      · exact .inl h
    · split at hp
      · rcases List.mem_cons.mp hp with h | h
        · exact .inr h
        · exact .inl (List.mem_cons_of_mem _ h)
      · rcases List.mem_cons.mp hp with h | h
        · exact .inl (h ▸ List.mem_cons_self ..)
        · exact (ih h).imp (List.mem_cons_of_mem _) id

theorem pairwise_smPut {β : Type} {m : SMap β} {n : Nat} {v : β} (h : m.Pairwise (fun a b => a.1 < b.1)) :
    (smPut m n v).Pairwise (fun a b => a.1 < b.1) := by
  induction m with
  | nil => exact List.pairwise_singleton ..
  | cons q r ih =>
    obtain ⟨k, u⟩ := q
    obtain ⟨hk, hr⟩ := List.pairwise_cons.mp h
    unfold smPut
    split
    · refine List.pairwise_cons.mpr ⟨fun a ha => ?_, h⟩
      rcases List.mem_cons.mp ha with e | e
      · simpa [e] using ‹_›
      · have := hk a e
        simp only at this ⊢
        omega
    · split
      · subst_vars
        exact List.pairwise_cons.mpr ⟨hk, hr⟩
      · refine List.pairwise_cons.mpr ⟨fun a ha => ?_, ih hr⟩
        rcases mem_smPut ha with e | e
        · exact hk a e
        · simp only [e]
          omega

/-- A write keeps the form. -/
theorem smWf_smSet {m : SMap α} (n : Nat) (v : α) (h : smWf d m = true) : smWf d (smSet d m n v) = true := by
  unfold smSet
  split
  · exact smWf_filter _ h
  · rw [smWf_iff] at *
    refine ⟨pairwise_smPut h.1, fun p hp => ?_⟩
    rcases mem_smPut hp with e | e
    · exact h.2 p e
    · simpa [e] using ‹_›

theorem smWf_smMod {m : SMap α} (n : Nat) (f : α → α) (h : smWf d m = true) : smWf d (smMod d m n f) = true := smWf_smSet _ _ h

theorem smGet_smPut_same {β : Type} {e : β} {m : SMap β} (n : Nat) (v : β) : smGet e (smPut m n v) n = v := by
  induction m with
  | nil => simp [smPut, smGet]
  | cons q r ih =>
    unfold smPut
    split
    · simp [smGet]
    · split
      · simp [smGet]
      · rw [smGet, if_neg ‹_›, ih]

theorem smGet_smPut_other {β : Type} {e : β} {m : SMap β} {n k : Nat} (v : β) (hne : k ≠ n) : smGet e (smPut m n v) k = smGet e m k := by
  induction m with
  | nil => simp [smPut, smGet, Ne.symm hne]
  | cons q r ih =>
    unfold smPut
    split
    · rw [smGet, if_neg (Ne.symm hne)]
    · split
      · rename_i h
        rw [smGet, smGet, if_neg (Ne.symm hne), if_neg (by omega)]
      · rw [smGet, smGet, ih]

theorem smGet_filter_same {β : Type} {e : β} {m : SMap β} (n : Nat) : smGet e (m.filter (fun p => p.1 != n)) n = e := by
  induction m with
  | nil => rfl
  | cons q r ih =>
    rw [List.filter_cons]
    split
    · rename_i h
      rw [smGet, if_neg (by simpa using h), ih]
    · exact ih

theorem smGet_filter_other {β : Type} {e : β} {m : SMap β} {n k : Nat} (hne : k ≠ n) : smGet e (m.filter (fun p => p.1 != n)) k = smGet e m k := by
  induction m with
  | nil => rfl
  | cons q r ih =>
    rw [List.filter_cons]
    split
    · rw [smGet, smGet, ih]
    · rename_i h
      have hq : q.1 = n := by simpa using h
      rw [smGet, if_neg (by omega), ih]

/-- What was written is read. -/
@[simp] theorem smGet_smSet_same {m : SMap α} (n : Nat) (v : α) : smGet d (smSet d m n v) n = v := by
  unfold smSet
  split
  · rw [smGet_filter_same]; exact Eq.symm ‹_›
  · exact smGet_smPut_same _ _

/-- A write leaves every other key alone. -/
theorem smGet_smSet_other {m : SMap α} {n k : Nat} (v : α) (hne : k ≠ n) : smGet d (smSet d m n v) k = smGet d m k := by
  unfold smSet
  split
  · exact smGet_filter_other hne
  · exact smGet_smPut_other _ hne

@[simp] theorem smGet_smMod_same {m : SMap α} (n : Nat) (f : α → α) : smGet d (smMod d m n f) n = f (smGet d m n) :=
  smGet_smSet_same _ _

theorem smGet_smMod_other {m : SMap α} {n k : Nat} (f : α → α) (hne : k ≠ n) : smGet d (smMod d m n f) k = smGet d m k :=
  smGet_smSet_other _ hne

theorem smWf_foldl_smSet {β : Type} (l : List β) (g : β → Nat) (f : β → α) {m : SMap α} (h : smWf d m = true) :
    smWf d (l.foldl (fun (a : SMap α) p => smSet d a (g p) (f p)) m) = true := by
  induction l generalizing m with
  | nil => exact h
  | cons b r ih => exact ih (smWf_smSet _ _ h)

theorem smWf_smShift {m : SMap α} (lo n dst : Nat) (h : smWf d m = true) : smWf d (smShift d m lo n dst) = true :=
  smWf_foldl_smSet _ _ _ (smWf_smErase _ _ (smWf_smErase _ _ h))

theorem smWf_smMap {m : SMap α} (f : Nat → α → α) (h : smWf d m = true) : smWf d (smMap d m f) = true := by
  rw [smWf_iff] at *
  refine ⟨List.Pairwise.filter _ (List.pairwise_map.mpr (h.1.imp (fun hab => hab))), fun p hp => ?_⟩
  simpa using (List.mem_filter.mp hp).2

/-! ### The byte map -/

theorem wf_memWrite {m : List Host.Cell} (a : Nat) (b : Byte) (h : Memory.wf m = true) : Memory.wf (memWrite m a b) = true := smWf_smSet _ _ h

theorem wf_memWriteList {m : List Host.Cell} (a : Nat) (l : List Byte) (h : Memory.wf m = true) :
    Memory.wf (memWriteList m a l) = true := by
  induction l generalizing m a with
  | nil => exact h
  | cons b r ih => exact ih _ (wf_memWrite a b h)

theorem wf_memZero {m : List Host.Cell} (lo hi : Nat) (h : Memory.wf m = true) : Memory.wf (memZero m lo hi) = true := smWf_smErase _ _ h

theorem memRead_memWrite_same {m : List Host.Cell} (a : Nat) (b : Byte) : memRead (memWrite m a b) a = b :=
  smGet_smSet_same _ _

theorem memRead_memWrite_other {m : List Host.Cell} {a k : Nat} (b : Byte) (hne : k ≠ a) : memRead (memWrite m a b) k = memRead m k :=
  smGet_smSet_other _ hne

/-- A write of a run of bytes leaves every byte outside the run alone. -/
theorem memRead_memWriteList_other {m : List Host.Cell} {a k : Nat} (l : List Byte) (hk : k < a ∨ a + l.length ≤ k) :
    memRead (memWriteList m a l) k = memRead m k := by
  induction l generalizing m a with
  | nil => rfl
  | cons b r ih =>
    simp only [List.length_cons] at hk
    rw [memWriteList, ih (by omega), memRead_memWrite_other b (by omega)]

/-- A run of bytes that was written is read back. -/
theorem memRead_memWriteList_same {m : List Host.Cell} {a i : Nat} (l : List Byte) (hi : i < l.length) :
    memRead (memWriteList m a l) (a + i) = l[i] := by
  induction l generalizing m a i with
  | nil => simp at hi
  | cons b r ih =>
    rw [memWriteList]
    cases i with
    | zero =>
      rw [memRead_memWriteList_other r (by omega)]
      exact memRead_memWrite_same a b
    | succ j =>
      have := ih (m := memWrite m a b) (a := a + 1) (i := j) (by simpa using hi)
      rw [show a + (j + 1) = a + 1 + j by omega]
      simpa using this

/-- Zeroing a run reads zero inside it. -/
theorem memRead_memZero {m : List Host.Cell} {lo hi k : Nat} : memRead (memZero m lo hi) k = if lo ≤ k ∧ k < hi then 0 else memRead m k := by
  induction m with
  | nil => simp [memZero, smErase, memRead, smGet]
  | cons q r ih =>
    obtain ⟨j, u⟩ := q
    simp only [memZero, smErase, memRead] at *
    rw [List.filter_cons]
    split
    · rename_i hj
      simp only [smGet, ih]
      simp at hj
      by_cases e : j = k
      · subst e
        rw [if_pos rfl, if_neg (by omega)]; simp
      · rw [if_neg e, if_neg e]
    · rename_i hj
      simp only [ih, smGet]
      simp at hj
      by_cases e : j = k
      · subst e
        rw [if_pos (by omega), if_pos (by omega)]
      · rw [if_neg e]

end Sys2Proof.Machine
end

