-- ==== Sys2Proof/Laws/Changes.lean ====
section
/-! SUPPORT. Which fields of State every operation may change: one lemma for each operation, in the order of the files. -/


namespace Sys2Proof.Machine

set_option linter.all false

/-- Every field of A is in F. -/
def Sub (A F : List Field) : Prop := ∀ x, x ∈ A → x ∈ F

variable {F : List Field} {s0 : State}

theorem Sub.trans {A B F : List Field} (k : Sub B F) (h : ∀ x, x ∈ A → x ∈ B) : Sub A F := fun x hx => k x (h x hx)

theorem Sub.self (A : List Field) : Sub A A := fun _ h => h

theorem Sub.mem {A F : List Field} {x : Field} (k : Sub A F) (h : x ∈ A) : x ∈ F := k x h

theorem Chg.trans {s t : State} (h : Chg F s0 s) (k : Chg F s t) : Chg F s0 t :=
  ⟨fun hn => (k.variant hn).trans (h.variant hn), fun hn => (k.beat hn).trans (h.beat hn), fun hn => (k.cfg hn).trans (h.cfg hn), fun hn => (k.rwi hn).trans (h.rwi hn), fun hn => (k.rwiNew hn).trans (h.rwiNew hn), fun hn => (k.old hn).trans (h.old hn), fun hn => (k.hub hn).trans (h.hub hn), fun hn => (k.arbs hn).trans (h.arbs hn), fun hn => (k.tiles hn).trans (h.tiles hn), fun hn => (k.ctxs hn).trans (h.ctxs hn), fun hn => (k.fns hn).trans (h.fns hn), fun hn => (k.hports hn).trans (h.hports hn), fun hn => (k.units hn).trans (h.units hn), fun hn => (k.mem hn).trans (h.mem hn), fun hn => (k.poison hn).trans (h.poison hn), fun hn => (k.hdrs hn).trans (h.hdrs hn), fun hn => (k.hdrPoison hn).trans (h.hdrPoison hn), fun hn => (k.place hn).trans (h.place hn), fun hn => (k.mig hn).trans (h.mig hn), fun hn => (k.ras hn).trans (h.ras hn), fun hn => (k.xfers hn).trans (h.xfers hn), fun hn => (k.upds hn).trans (h.upds hn), fun hn => (k.contribs hn).trans (h.contribs hn), fun hn => (k.rsigs hn).trans (h.rsigs hn), fun hn => (k.heldWrites hn).trans (h.heldWrites hn), fun hn => (k.ports hn).trans (h.ports hn), fun hn => (k.board hn).trans (h.board hn), fun hn => (k.cel hn).trans (h.cel hn), fun hn => (k.evt hn).trans (h.evt hn), fun hn => (k.boot hn).trans (h.boot hn), fun hn => (k.pwr hn).trans (h.pwr hn), fun hn => (k.outbox hn).trans (h.outbox hn), fun hn => (k.pending hn).trans (h.pending hn)⟩

theorem Chg.refl (s : State) : Chg F s s := ⟨fun _ => rfl, fun _ => rfl, fun _ => rfl, fun _ => rfl, fun _ => rfl, fun _ => rfl, fun _ => rfl, fun _ => rfl, fun _ => rfl, fun _ => rfl, fun _ => rfl, fun _ => rfl, fun _ => rfl, fun _ => rfl, fun _ => rfl, fun _ => rfl, fun _ => rfl, fun _ => rfl, fun _ => rfl, fun _ => rfl, fun _ => rfl, fun _ => rfl, fun _ => rfl, fun _ => rfl, fun _ => rfl, fun _ => rfl, fun _ => rfl, fun _ => rfl, fun _ => rfl, fun _ => rfl, fun _ => rfl, fun _ => rfl, fun _ => rfl⟩

/-- Chg of a state written out field by field. -/
def ChgMk (F : List Field) (s : State) (a0 : Variant) (a1 : Beat) (a2 : CfgSt) (a3 : List (Nat × Word)) (a4 : List (Nat × Word)) (a5 : List OldByte) (a6 : Hub) (a7 : SMap Arb) (a8 : SMap Tile) (a9 : SMap Ctx) (a10 : SMap Fn) (a11 : SMap HPort) (a12 : SMap UnitSt) (a13 : List Host.Cell) (a14 : List Nat) (a15 : SMap Word) (a16 : List Nat) (a17 : SMap PEntry) (a18 : Mig) (a19 : Ras) (a20 : List Xfer) (a21 : List Upd) (a22 : List Contrib) (a23 : List RSig) (a24 : List HeldWrite) (a25 : SMap LPort) (a26 : Board) (a27 : Cellar) (a28 : Evt) (a29 : Boot) (a30 : Pwr) (a31 : List Msg) (a32 : List Instr) : Prop := Chg F s (State.mk a0 a1 a2 a3 a4 a5 a6 a7 a8 a9 a10 a11 a12 a13 a14 a15 a16 a17 a18 a19 a20 a21 a22 a23 a24 a25 a26 a27 a28 a29 a30 a31 a32)

theorem chgMk_iff {a0 : Variant} {a1 : Beat} {a2 : CfgSt} {a3 : List (Nat × Word)} {a4 : List (Nat × Word)} {a5 : List OldByte} {a6 : Hub} {a7 : SMap Arb} {a8 : SMap Tile} {a9 : SMap Ctx} {a10 : SMap Fn} {a11 : SMap HPort} {a12 : SMap UnitSt} {a13 : List Host.Cell} {a14 : List Nat} {a15 : SMap Word} {a16 : List Nat} {a17 : SMap PEntry} {a18 : Mig} {a19 : Ras} {a20 : List Xfer} {a21 : List Upd} {a22 : List Contrib} {a23 : List RSig} {a24 : List HeldWrite} {a25 : SMap LPort} {a26 : Board} {a27 : Cellar} {a28 : Evt} {a29 : Boot} {a30 : Pwr} {a31 : List Msg} {a32 : List Instr} : Chg F s0 (State.mk a0 a1 a2 a3 a4 a5 a6 a7 a8 a9 a10 a11 a12 a13 a14 a15 a16 a17 a18 a19 a20 a21 a22 a23 a24 a25 a26 a27 a28 a29 a30 a31 a32) ↔ ChgMk F s0 a0 a1 a2 a3 a4 a5 a6 a7 a8 a9 a10 a11 a12 a13 a14 a15 a16 a17 a18 a19 a20 a21 a22 a23 a24 a25 a26 a27 a28 a29 a30 a31 a32 := Iff.rfl

theorem chgMk_intro {s : State} {a0 : Variant} {a1 : Beat} {a2 : CfgSt} {a3 : List (Nat × Word)} {a4 : List (Nat × Word)} {a5 : List OldByte} {a6 : Hub} {a7 : SMap Arb} {a8 : SMap Tile} {a9 : SMap Ctx} {a10 : SMap Fn} {a11 : SMap HPort} {a12 : SMap UnitSt} {a13 : List Host.Cell} {a14 : List Nat} {a15 : SMap Word} {a16 : List Nat} {a17 : SMap PEntry} {a18 : Mig} {a19 : Ras} {a20 : List Xfer} {a21 : List Upd} {a22 : List Contrib} {a23 : List RSig} {a24 : List HeldWrite} {a25 : SMap LPort} {a26 : Board} {a27 : Cellar} {a28 : Evt} {a29 : Boot} {a30 : Pwr} {a31 : List Msg} {a32 : List Instr} (e0 : a0 = s.variant) (h : Chg F s0 s) (e1 : Field.beat ∈ F ∨ a1 = s.beat) (e2 : Field.cfg ∈ F ∨ a2 = s.cfg) (e3 : Field.rwi ∈ F ∨ a3 = s.rwi) (e4 : Field.rwiNew ∈ F ∨ a4 = s.rwiNew) (e5 : Field.old ∈ F ∨ a5 = s.old) (e6 : Field.hub ∈ F ∨ a6 = s.hub) (e7 : Field.arbs ∈ F ∨ a7 = s.arbs) (e8 : Field.tiles ∈ F ∨ a8 = s.tiles) (e9 : Field.ctxs ∈ F ∨ a9 = s.ctxs) (e10 : Field.fns ∈ F ∨ a10 = s.fns) (e11 : Field.hports ∈ F ∨ a11 = s.hports) (e12 : Field.units ∈ F ∨ a12 = s.units) (e13 : Field.mem ∈ F ∨ a13 = s.mem) (e14 : Field.poison ∈ F ∨ a14 = s.poison) (e15 : Field.hdrs ∈ F ∨ a15 = s.hdrs) (e16 : Field.hdrPoison ∈ F ∨ a16 = s.hdrPoison) (e17 : Field.place ∈ F ∨ a17 = s.place) (e18 : Field.mig ∈ F ∨ a18 = s.mig) (e19 : Field.ras ∈ F ∨ a19 = s.ras) (e20 : Field.xfers ∈ F ∨ a20 = s.xfers) (e21 : Field.upds ∈ F ∨ a21 = s.upds) (e22 : Field.contribs ∈ F ∨ a22 = s.contribs) (e23 : Field.rsigs ∈ F ∨ a23 = s.rsigs) (e24 : Field.heldWrites ∈ F ∨ a24 = s.heldWrites) (e25 : Field.ports ∈ F ∨ a25 = s.ports) (e26 : Field.board ∈ F ∨ a26 = s.board) (e27 : Field.cel ∈ F ∨ a27 = s.cel) (e28 : Field.evt ∈ F ∨ a28 = s.evt) (e29 : Field.boot ∈ F ∨ a29 = s.boot) (e30 : Field.pwr ∈ F ∨ a30 = s.pwr) (e31 : Field.outbox ∈ F ∨ a31 = s.outbox) (e32 : Field.pending ∈ F ∨ a32 = s.pending) : ChgMk F s0 a0 a1 a2 a3 a4 a5 a6 a7 a8 a9 a10 a11 a12 a13 a14 a15 a16 a17 a18 a19 a20 a21 a22 a23 a24 a25 a26 a27 a28 a29 a30 a31 a32 :=
  ⟨fun hn => e0.trans (h.variant hn), fun hn => (e1.resolve_left hn).trans (h.beat hn), fun hn => (e2.resolve_left hn).trans (h.cfg hn), fun hn => (e3.resolve_left hn).trans (h.rwi hn), fun hn => (e4.resolve_left hn).trans (h.rwiNew hn), fun hn => (e5.resolve_left hn).trans (h.old hn), fun hn => (e6.resolve_left hn).trans (h.hub hn), fun hn => (e7.resolve_left hn).trans (h.arbs hn), fun hn => (e8.resolve_left hn).trans (h.tiles hn), fun hn => (e9.resolve_left hn).trans (h.ctxs hn), fun hn => (e10.resolve_left hn).trans (h.fns hn), fun hn => (e11.resolve_left hn).trans (h.hports hn), fun hn => (e12.resolve_left hn).trans (h.units hn), fun hn => (e13.resolve_left hn).trans (h.mem hn), fun hn => (e14.resolve_left hn).trans (h.poison hn), fun hn => (e15.resolve_left hn).trans (h.hdrs hn), fun hn => (e16.resolve_left hn).trans (h.hdrPoison hn), fun hn => (e17.resolve_left hn).trans (h.place hn), fun hn => (e18.resolve_left hn).trans (h.mig hn), fun hn => (e19.resolve_left hn).trans (h.ras hn), fun hn => (e20.resolve_left hn).trans (h.xfers hn), fun hn => (e21.resolve_left hn).trans (h.upds hn), fun hn => (e22.resolve_left hn).trans (h.contribs hn), fun hn => (e23.resolve_left hn).trans (h.rsigs hn), fun hn => (e24.resolve_left hn).trans (h.heldWrites hn), fun hn => (e25.resolve_left hn).trans (h.ports hn), fun hn => (e26.resolve_left hn).trans (h.board hn), fun hn => (e27.resolve_left hn).trans (h.cel hn), fun hn => (e28.resolve_left hn).trans (h.evt hn), fun hn => (e29.resolve_left hn).trans (h.boot hn), fun hn => (e30.resolve_left hn).trans (h.pwr hn), fun hn => (e31.resolve_left hn).trans (h.outbox hn), fun hn => (e32.resolve_left hn).trans (h.pending hn)⟩

theorem chg_up_beat {s : State} (h : Chg F s0 s) (hm : Field.beat ∈ F) (x : Beat) : Chg F s0 { s with beat := x } :=
  ⟨h.variant, fun hn => absurd hm hn, h.cfg, h.rwi, h.rwiNew, h.old, h.hub, h.arbs, h.tiles, h.ctxs, h.fns, h.hports, h.units, h.mem, h.poison, h.hdrs, h.hdrPoison, h.place, h.mig, h.ras, h.xfers, h.upds, h.contribs, h.rsigs, h.heldWrites, h.ports, h.board, h.cel, h.evt, h.boot, h.pwr, h.outbox, h.pending⟩

theorem chg_up_cfg {s : State} (h : Chg F s0 s) (hm : Field.cfg ∈ F) (x : CfgSt) : Chg F s0 { s with cfg := x } :=
  ⟨h.variant, h.beat, fun hn => absurd hm hn, h.rwi, h.rwiNew, h.old, h.hub, h.arbs, h.tiles, h.ctxs, h.fns, h.hports, h.units, h.mem, h.poison, h.hdrs, h.hdrPoison, h.place, h.mig, h.ras, h.xfers, h.upds, h.contribs, h.rsigs, h.heldWrites, h.ports, h.board, h.cel, h.evt, h.boot, h.pwr, h.outbox, h.pending⟩

theorem chg_up_rwi {s : State} (h : Chg F s0 s) (hm : Field.rwi ∈ F) (x : List (Nat × Word)) : Chg F s0 { s with rwi := x } :=
  ⟨h.variant, h.beat, h.cfg, fun hn => absurd hm hn, h.rwiNew, h.old, h.hub, h.arbs, h.tiles, h.ctxs, h.fns, h.hports, h.units, h.mem, h.poison, h.hdrs, h.hdrPoison, h.place, h.mig, h.ras, h.xfers, h.upds, h.contribs, h.rsigs, h.heldWrites, h.ports, h.board, h.cel, h.evt, h.boot, h.pwr, h.outbox, h.pending⟩

theorem chg_up_rwiNew {s : State} (h : Chg F s0 s) (hm : Field.rwiNew ∈ F) (x : List (Nat × Word)) : Chg F s0 { s with rwiNew := x } :=
  ⟨h.variant, h.beat, h.cfg, h.rwi, fun hn => absurd hm hn, h.old, h.hub, h.arbs, h.tiles, h.ctxs, h.fns, h.hports, h.units, h.mem, h.poison, h.hdrs, h.hdrPoison, h.place, h.mig, h.ras, h.xfers, h.upds, h.contribs, h.rsigs, h.heldWrites, h.ports, h.board, h.cel, h.evt, h.boot, h.pwr, h.outbox, h.pending⟩

theorem chg_up_old {s : State} (h : Chg F s0 s) (hm : Field.old ∈ F) (x : List OldByte) : Chg F s0 { s with old := x } :=
  ⟨h.variant, h.beat, h.cfg, h.rwi, h.rwiNew, fun hn => absurd hm hn, h.hub, h.arbs, h.tiles, h.ctxs, h.fns, h.hports, h.units, h.mem, h.poison, h.hdrs, h.hdrPoison, h.place, h.mig, h.ras, h.xfers, h.upds, h.contribs, h.rsigs, h.heldWrites, h.ports, h.board, h.cel, h.evt, h.boot, h.pwr, h.outbox, h.pending⟩

theorem chg_up_hub {s : State} (h : Chg F s0 s) (hm : Field.hub ∈ F) (x : Hub) : Chg F s0 { s with hub := x } :=
  ⟨h.variant, h.beat, h.cfg, h.rwi, h.rwiNew, h.old, fun hn => absurd hm hn, h.arbs, h.tiles, h.ctxs, h.fns, h.hports, h.units, h.mem, h.poison, h.hdrs, h.hdrPoison, h.place, h.mig, h.ras, h.xfers, h.upds, h.contribs, h.rsigs, h.heldWrites, h.ports, h.board, h.cel, h.evt, h.boot, h.pwr, h.outbox, h.pending⟩

theorem chg_up_arbs {s : State} (h : Chg F s0 s) (hm : Field.arbs ∈ F) (x : SMap Arb) : Chg F s0 { s with arbs := x } :=
  ⟨h.variant, h.beat, h.cfg, h.rwi, h.rwiNew, h.old, h.hub, fun hn => absurd hm hn, h.tiles, h.ctxs, h.fns, h.hports, h.units, h.mem, h.poison, h.hdrs, h.hdrPoison, h.place, h.mig, h.ras, h.xfers, h.upds, h.contribs, h.rsigs, h.heldWrites, h.ports, h.board, h.cel, h.evt, h.boot, h.pwr, h.outbox, h.pending⟩

theorem chg_up_tiles {s : State} (h : Chg F s0 s) (hm : Field.tiles ∈ F) (x : SMap Tile) : Chg F s0 { s with tiles := x } :=
  ⟨h.variant, h.beat, h.cfg, h.rwi, h.rwiNew, h.old, h.hub, h.arbs, fun hn => absurd hm hn, h.ctxs, h.fns, h.hports, h.units, h.mem, h.poison, h.hdrs, h.hdrPoison, h.place, h.mig, h.ras, h.xfers, h.upds, h.contribs, h.rsigs, h.heldWrites, h.ports, h.board, h.cel, h.evt, h.boot, h.pwr, h.outbox, h.pending⟩

theorem chg_up_ctxs {s : State} (h : Chg F s0 s) (hm : Field.ctxs ∈ F) (x : SMap Ctx) : Chg F s0 { s with ctxs := x } :=
  ⟨h.variant, h.beat, h.cfg, h.rwi, h.rwiNew, h.old, h.hub, h.arbs, h.tiles, fun hn => absurd hm hn, h.fns, h.hports, h.units, h.mem, h.poison, h.hdrs, h.hdrPoison, h.place, h.mig, h.ras, h.xfers, h.upds, h.contribs, h.rsigs, h.heldWrites, h.ports, h.board, h.cel, h.evt, h.boot, h.pwr, h.outbox, h.pending⟩

theorem chg_up_fns {s : State} (h : Chg F s0 s) (hm : Field.fns ∈ F) (x : SMap Fn) : Chg F s0 { s with fns := x } :=
  ⟨h.variant, h.beat, h.cfg, h.rwi, h.rwiNew, h.old, h.hub, h.arbs, h.tiles, h.ctxs, fun hn => absurd hm hn, h.hports, h.units, h.mem, h.poison, h.hdrs, h.hdrPoison, h.place, h.mig, h.ras, h.xfers, h.upds, h.contribs, h.rsigs, h.heldWrites, h.ports, h.board, h.cel, h.evt, h.boot, h.pwr, h.outbox, h.pending⟩

theorem chg_up_hports {s : State} (h : Chg F s0 s) (hm : Field.hports ∈ F) (x : SMap HPort) : Chg F s0 { s with hports := x } :=
  ⟨h.variant, h.beat, h.cfg, h.rwi, h.rwiNew, h.old, h.hub, h.arbs, h.tiles, h.ctxs, h.fns, fun hn => absurd hm hn, h.units, h.mem, h.poison, h.hdrs, h.hdrPoison, h.place, h.mig, h.ras, h.xfers, h.upds, h.contribs, h.rsigs, h.heldWrites, h.ports, h.board, h.cel, h.evt, h.boot, h.pwr, h.outbox, h.pending⟩

theorem chg_up_units {s : State} (h : Chg F s0 s) (hm : Field.units ∈ F) (x : SMap UnitSt) : Chg F s0 { s with units := x } :=
  ⟨h.variant, h.beat, h.cfg, h.rwi, h.rwiNew, h.old, h.hub, h.arbs, h.tiles, h.ctxs, h.fns, h.hports, fun hn => absurd hm hn, h.mem, h.poison, h.hdrs, h.hdrPoison, h.place, h.mig, h.ras, h.xfers, h.upds, h.contribs, h.rsigs, h.heldWrites, h.ports, h.board, h.cel, h.evt, h.boot, h.pwr, h.outbox, h.pending⟩

theorem chg_up_mem {s : State} (h : Chg F s0 s) (hm : Field.mem ∈ F) (x : List Host.Cell) : Chg F s0 { s with mem := x } :=
  ⟨h.variant, h.beat, h.cfg, h.rwi, h.rwiNew, h.old, h.hub, h.arbs, h.tiles, h.ctxs, h.fns, h.hports, h.units, fun hn => absurd hm hn, h.poison, h.hdrs, h.hdrPoison, h.place, h.mig, h.ras, h.xfers, h.upds, h.contribs, h.rsigs, h.heldWrites, h.ports, h.board, h.cel, h.evt, h.boot, h.pwr, h.outbox, h.pending⟩

theorem chg_up_poison {s : State} (h : Chg F s0 s) (hm : Field.poison ∈ F) (x : List Nat) : Chg F s0 { s with poison := x } :=
  ⟨h.variant, h.beat, h.cfg, h.rwi, h.rwiNew, h.old, h.hub, h.arbs, h.tiles, h.ctxs, h.fns, h.hports, h.units, h.mem, fun hn => absurd hm hn, h.hdrs, h.hdrPoison, h.place, h.mig, h.ras, h.xfers, h.upds, h.contribs, h.rsigs, h.heldWrites, h.ports, h.board, h.cel, h.evt, h.boot, h.pwr, h.outbox, h.pending⟩

theorem chg_up_hdrs {s : State} (h : Chg F s0 s) (hm : Field.hdrs ∈ F) (x : SMap Word) : Chg F s0 { s with hdrs := x } :=
  ⟨h.variant, h.beat, h.cfg, h.rwi, h.rwiNew, h.old, h.hub, h.arbs, h.tiles, h.ctxs, h.fns, h.hports, h.units, h.mem, h.poison, fun hn => absurd hm hn, h.hdrPoison, h.place, h.mig, h.ras, h.xfers, h.upds, h.contribs, h.rsigs, h.heldWrites, h.ports, h.board, h.cel, h.evt, h.boot, h.pwr, h.outbox, h.pending⟩

theorem chg_up_hdrPoison {s : State} (h : Chg F s0 s) (hm : Field.hdrPoison ∈ F) (x : List Nat) : Chg F s0 { s with hdrPoison := x } :=
  ⟨h.variant, h.beat, h.cfg, h.rwi, h.rwiNew, h.old, h.hub, h.arbs, h.tiles, h.ctxs, h.fns, h.hports, h.units, h.mem, h.poison, h.hdrs, fun hn => absurd hm hn, h.place, h.mig, h.ras, h.xfers, h.upds, h.contribs, h.rsigs, h.heldWrites, h.ports, h.board, h.cel, h.evt, h.boot, h.pwr, h.outbox, h.pending⟩

theorem chg_up_place {s : State} (h : Chg F s0 s) (hm : Field.place ∈ F) (x : SMap PEntry) : Chg F s0 { s with place := x } :=
  ⟨h.variant, h.beat, h.cfg, h.rwi, h.rwiNew, h.old, h.hub, h.arbs, h.tiles, h.ctxs, h.fns, h.hports, h.units, h.mem, h.poison, h.hdrs, h.hdrPoison, fun hn => absurd hm hn, h.mig, h.ras, h.xfers, h.upds, h.contribs, h.rsigs, h.heldWrites, h.ports, h.board, h.cel, h.evt, h.boot, h.pwr, h.outbox, h.pending⟩

theorem chg_up_mig {s : State} (h : Chg F s0 s) (hm : Field.mig ∈ F) (x : Mig) : Chg F s0 { s with mig := x } :=
  ⟨h.variant, h.beat, h.cfg, h.rwi, h.rwiNew, h.old, h.hub, h.arbs, h.tiles, h.ctxs, h.fns, h.hports, h.units, h.mem, h.poison, h.hdrs, h.hdrPoison, h.place, fun hn => absurd hm hn, h.ras, h.xfers, h.upds, h.contribs, h.rsigs, h.heldWrites, h.ports, h.board, h.cel, h.evt, h.boot, h.pwr, h.outbox, h.pending⟩

theorem chg_up_ras {s : State} (h : Chg F s0 s) (hm : Field.ras ∈ F) (x : Ras) : Chg F s0 { s with ras := x } :=
  ⟨h.variant, h.beat, h.cfg, h.rwi, h.rwiNew, h.old, h.hub, h.arbs, h.tiles, h.ctxs, h.fns, h.hports, h.units, h.mem, h.poison, h.hdrs, h.hdrPoison, h.place, h.mig, fun hn => absurd hm hn, h.xfers, h.upds, h.contribs, h.rsigs, h.heldWrites, h.ports, h.board, h.cel, h.evt, h.boot, h.pwr, h.outbox, h.pending⟩

theorem chg_up_xfers {s : State} (h : Chg F s0 s) (hm : Field.xfers ∈ F) (x : List Xfer) : Chg F s0 { s with xfers := x } :=
  ⟨h.variant, h.beat, h.cfg, h.rwi, h.rwiNew, h.old, h.hub, h.arbs, h.tiles, h.ctxs, h.fns, h.hports, h.units, h.mem, h.poison, h.hdrs, h.hdrPoison, h.place, h.mig, h.ras, fun hn => absurd hm hn, h.upds, h.contribs, h.rsigs, h.heldWrites, h.ports, h.board, h.cel, h.evt, h.boot, h.pwr, h.outbox, h.pending⟩

theorem chg_up_upds {s : State} (h : Chg F s0 s) (hm : Field.upds ∈ F) (x : List Upd) : Chg F s0 { s with upds := x } :=
  ⟨h.variant, h.beat, h.cfg, h.rwi, h.rwiNew, h.old, h.hub, h.arbs, h.tiles, h.ctxs, h.fns, h.hports, h.units, h.mem, h.poison, h.hdrs, h.hdrPoison, h.place, h.mig, h.ras, h.xfers, fun hn => absurd hm hn, h.contribs, h.rsigs, h.heldWrites, h.ports, h.board, h.cel, h.evt, h.boot, h.pwr, h.outbox, h.pending⟩

theorem chg_up_contribs {s : State} (h : Chg F s0 s) (hm : Field.contribs ∈ F) (x : List Contrib) : Chg F s0 { s with contribs := x } :=
  ⟨h.variant, h.beat, h.cfg, h.rwi, h.rwiNew, h.old, h.hub, h.arbs, h.tiles, h.ctxs, h.fns, h.hports, h.units, h.mem, h.poison, h.hdrs, h.hdrPoison, h.place, h.mig, h.ras, h.xfers, h.upds, fun hn => absurd hm hn, h.rsigs, h.heldWrites, h.ports, h.board, h.cel, h.evt, h.boot, h.pwr, h.outbox, h.pending⟩

theorem chg_up_rsigs {s : State} (h : Chg F s0 s) (hm : Field.rsigs ∈ F) (x : List RSig) : Chg F s0 { s with rsigs := x } :=
  ⟨h.variant, h.beat, h.cfg, h.rwi, h.rwiNew, h.old, h.hub, h.arbs, h.tiles, h.ctxs, h.fns, h.hports, h.units, h.mem, h.poison, h.hdrs, h.hdrPoison, h.place, h.mig, h.ras, h.xfers, h.upds, h.contribs, fun hn => absurd hm hn, h.heldWrites, h.ports, h.board, h.cel, h.evt, h.boot, h.pwr, h.outbox, h.pending⟩

theorem chg_up_heldWrites {s : State} (h : Chg F s0 s) (hm : Field.heldWrites ∈ F) (x : List HeldWrite) : Chg F s0 { s with heldWrites := x } :=
  ⟨h.variant, h.beat, h.cfg, h.rwi, h.rwiNew, h.old, h.hub, h.arbs, h.tiles, h.ctxs, h.fns, h.hports, h.units, h.mem, h.poison, h.hdrs, h.hdrPoison, h.place, h.mig, h.ras, h.xfers, h.upds, h.contribs, h.rsigs, fun hn => absurd hm hn, h.ports, h.board, h.cel, h.evt, h.boot, h.pwr, h.outbox, h.pending⟩

theorem chg_up_ports {s : State} (h : Chg F s0 s) (hm : Field.ports ∈ F) (x : SMap LPort) : Chg F s0 { s with ports := x } :=
  ⟨h.variant, h.beat, h.cfg, h.rwi, h.rwiNew, h.old, h.hub, h.arbs, h.tiles, h.ctxs, h.fns, h.hports, h.units, h.mem, h.poison, h.hdrs, h.hdrPoison, h.place, h.mig, h.ras, h.xfers, h.upds, h.contribs, h.rsigs, h.heldWrites, fun hn => absurd hm hn, h.board, h.cel, h.evt, h.boot, h.pwr, h.outbox, h.pending⟩

theorem chg_up_board {s : State} (h : Chg F s0 s) (hm : Field.board ∈ F) (x : Board) : Chg F s0 { s with board := x } :=
  ⟨h.variant, h.beat, h.cfg, h.rwi, h.rwiNew, h.old, h.hub, h.arbs, h.tiles, h.ctxs, h.fns, h.hports, h.units, h.mem, h.poison, h.hdrs, h.hdrPoison, h.place, h.mig, h.ras, h.xfers, h.upds, h.contribs, h.rsigs, h.heldWrites, h.ports, fun hn => absurd hm hn, h.cel, h.evt, h.boot, h.pwr, h.outbox, h.pending⟩

theorem chg_up_cel {s : State} (h : Chg F s0 s) (hm : Field.cel ∈ F) (x : Cellar) : Chg F s0 { s with cel := x } :=
  ⟨h.variant, h.beat, h.cfg, h.rwi, h.rwiNew, h.old, h.hub, h.arbs, h.tiles, h.ctxs, h.fns, h.hports, h.units, h.mem, h.poison, h.hdrs, h.hdrPoison, h.place, h.mig, h.ras, h.xfers, h.upds, h.contribs, h.rsigs, h.heldWrites, h.ports, h.board, fun hn => absurd hm hn, h.evt, h.boot, h.pwr, h.outbox, h.pending⟩

theorem chg_up_evt {s : State} (h : Chg F s0 s) (hm : Field.evt ∈ F) (x : Evt) : Chg F s0 { s with evt := x } :=
  ⟨h.variant, h.beat, h.cfg, h.rwi, h.rwiNew, h.old, h.hub, h.arbs, h.tiles, h.ctxs, h.fns, h.hports, h.units, h.mem, h.poison, h.hdrs, h.hdrPoison, h.place, h.mig, h.ras, h.xfers, h.upds, h.contribs, h.rsigs, h.heldWrites, h.ports, h.board, h.cel, fun hn => absurd hm hn, h.boot, h.pwr, h.outbox, h.pending⟩

theorem chg_up_boot {s : State} (h : Chg F s0 s) (hm : Field.boot ∈ F) (x : Boot) : Chg F s0 { s with boot := x } :=
  ⟨h.variant, h.beat, h.cfg, h.rwi, h.rwiNew, h.old, h.hub, h.arbs, h.tiles, h.ctxs, h.fns, h.hports, h.units, h.mem, h.poison, h.hdrs, h.hdrPoison, h.place, h.mig, h.ras, h.xfers, h.upds, h.contribs, h.rsigs, h.heldWrites, h.ports, h.board, h.cel, h.evt, fun hn => absurd hm hn, h.pwr, h.outbox, h.pending⟩

theorem chg_up_pwr {s : State} (h : Chg F s0 s) (hm : Field.pwr ∈ F) (x : Pwr) : Chg F s0 { s with pwr := x } :=
  ⟨h.variant, h.beat, h.cfg, h.rwi, h.rwiNew, h.old, h.hub, h.arbs, h.tiles, h.ctxs, h.fns, h.hports, h.units, h.mem, h.poison, h.hdrs, h.hdrPoison, h.place, h.mig, h.ras, h.xfers, h.upds, h.contribs, h.rsigs, h.heldWrites, h.ports, h.board, h.cel, h.evt, h.boot, fun hn => absurd hm hn, h.outbox, h.pending⟩

theorem chg_up_outbox {s : State} (h : Chg F s0 s) (hm : Field.outbox ∈ F) (x : List Msg) : Chg F s0 { s with outbox := x } :=
  ⟨h.variant, h.beat, h.cfg, h.rwi, h.rwiNew, h.old, h.hub, h.arbs, h.tiles, h.ctxs, h.fns, h.hports, h.units, h.mem, h.poison, h.hdrs, h.hdrPoison, h.place, h.mig, h.ras, h.xfers, h.upds, h.contribs, h.rsigs, h.heldWrites, h.ports, h.board, h.cel, h.evt, h.boot, h.pwr, fun hn => absurd hm hn, h.pending⟩

theorem chg_up_updsmig {s : State} (h : Chg F s0 s) (h1 : Field.upds ∈ F) (h2 : Field.mig ∈ F) (x : List Upd) (y : Mig) :
    Chg F s0 { s with upds := x, mig := y } := chg_up_mig (chg_up_upds h h1 x) h2 y

theorem chg_foldl {α : Type} {s : State} {f : State → α → State} {l : List α} (h : Chg F s0 s)
    (hf : ∀ b a, Chg F s0 b → Chg F s0 (f b a)) : Chg F s0 (l.foldl f s) := by
  induction l generalizing s with
  | nil => exact h
  | cons x l ih => exact ih (hf _ _ h)

theorem chg_foldl_fst {α β : Type} {p : State × β} {f : State × β → α → State × β} {l : List α}
    (h : Chg F s0 p.1) (hf : ∀ b a, Chg F s0 b.1 → Chg F s0 (f b a).1) : Chg F s0 (l.foldl f p).1 := by
  induction l generalizing p with
  | nil => exact h
  | cons x l ih => exact ih (hf _ _ h)

theorem chg_ite {c : Prop} [Decidable c] {a b : State} (ha : Chg F s0 a) (hb : Chg F s0 b) :
    Chg F s0 (if c then a else b) := by
  split <;> assumption

theorem chg_of_fst {β : Type} {p : State × β} {s : State} {x : β} (e : p = (s, x)) (h : Chg F s0 p.1) : Chg F s0 s := by
  subst e; exact h

theorem chg_rwiSet {s : State} (h : Chg F s0 s) (hF : Sub [.rwiNew] F) (x1 : _) (x2 : _) : Chg F s0 (State.rwiSet s x1 x2) := by
  unfold State.rwiSet
  repeat' first | with_reducible exact Sub.trans (by assumption) (by decide) | intro _ | with_reducible assumption | with_reducible exact chg_of_fst (by assumption) (by assumption) | with_reducible apply chg_ite | simp only [chgMk_iff, id_eq] | (with_reducible apply chgMk_intro rfl <;> first | with_reducible exact .inl (Sub.mem (by assumption) (by decide)) | with_reducible exact .inr rfl | skip) | split

theorem chg_rwiTake {s : State} (h : Chg F s0 s) (hF : Sub [.cfg, .rwi, .rwiNew] F) : Chg F s0 (State.rwiTake s) := by
  unfold State.rwiTake
  repeat' first | with_reducible exact Sub.trans (by assumption) (by decide) | intro _ | with_reducible assumption | with_reducible apply chg_foldl | with_reducible apply chg_foldl_fst | with_reducible exact chg_of_fst (by assumption) (by assumption) | with_reducible apply chg_ite | simp only [chgMk_iff, id_eq] | (with_reducible apply chgMk_intro rfl <;> first | with_reducible exact .inl (Sub.mem (by assumption) (by decide)) | with_reducible exact .inr rfl | skip) | split

theorem chg_modTile {s : State} (h : Chg F s0 s) (hF : Sub [.tiles] F) (x1 : _) (x2 : _) : Chg F s0 (State.modTile s x1 x2) := by
  unfold State.modTile
  repeat' first | with_reducible exact Sub.trans (by assumption) (by decide) | intro _ | with_reducible assumption | with_reducible exact chg_of_fst (by assumption) (by assumption) | with_reducible apply chg_ite | simp only [chgMk_iff, id_eq] | (with_reducible apply chgMk_intro rfl <;> first | with_reducible exact .inl (Sub.mem (by assumption) (by decide)) | with_reducible exact .inr rfl | skip) | split

theorem chg_modCtx {s : State} (h : Chg F s0 s) (hF : Sub [.ctxs] F) (x1 : _) (x2 : _) : Chg F s0 (State.modCtx s x1 x2) := by
  unfold State.modCtx
  repeat' first | with_reducible exact Sub.trans (by assumption) (by decide) | intro _ | with_reducible assumption | with_reducible exact chg_of_fst (by assumption) (by assumption) | with_reducible apply chg_ite | simp only [chgMk_iff, id_eq] | (with_reducible apply chgMk_intro rfl <;> first | with_reducible exact .inl (Sub.mem (by assumption) (by decide)) | with_reducible exact .inr rfl | skip) | split

theorem chg_modStep {s : State} (h : Chg F s0 s) (hF : Sub [.ctxs] F) (x1 : _) (x2 : _) : Chg F s0 (State.modStep s x1 x2) := by
  unfold State.modStep
  repeat' first | with_reducible exact Sub.trans (by assumption) (by decide) | intro _ | with_reducible assumption | with_reducible apply chg_modCtx | with_reducible exact chg_of_fst (by assumption) (by assumption) | with_reducible apply chg_ite | simp only [chgMk_iff, id_eq] | (with_reducible apply chgMk_intro rfl <;> first | with_reducible exact .inl (Sub.mem (by assumption) (by decide)) | with_reducible exact .inr rfl | skip) | split

theorem chg_modFn {s : State} (h : Chg F s0 s) (hF : Sub [.fns] F) (x1 : _) (x2 : _) : Chg F s0 (State.modFn s x1 x2) := by
  unfold State.modFn
  repeat' first | with_reducible exact Sub.trans (by assumption) (by decide) | intro _ | with_reducible assumption | with_reducible exact chg_of_fst (by assumption) (by assumption) | with_reducible apply chg_ite | simp only [chgMk_iff, id_eq] | (with_reducible apply chgMk_intro rfl <;> first | with_reducible exact .inl (Sub.mem (by assumption) (by decide)) | with_reducible exact .inr rfl | skip) | split

theorem chg_modHport {s : State} (h : Chg F s0 s) (hF : Sub [.hports] F) (x1 : _) (x2 : _) : Chg F s0 (State.modHport s x1 x2) := by
  unfold State.modHport
  repeat' first | with_reducible exact Sub.trans (by assumption) (by decide) | intro _ | with_reducible assumption | with_reducible exact chg_of_fst (by assumption) (by assumption) | with_reducible apply chg_ite | simp only [chgMk_iff, id_eq] | (with_reducible apply chgMk_intro rfl <;> first | with_reducible exact .inl (Sub.mem (by assumption) (by decide)) | with_reducible exact .inr rfl | skip) | split

theorem chg_modUnit {s : State} (h : Chg F s0 s) (hF : Sub [.units] F) (x1 : _) (x2 : _) : Chg F s0 (State.modUnit s x1 x2) := by
  unfold State.modUnit
  repeat' first | with_reducible exact Sub.trans (by assumption) (by decide) | intro _ | with_reducible assumption | with_reducible exact chg_of_fst (by assumption) (by assumption) | with_reducible apply chg_ite | simp only [chgMk_iff, id_eq] | (with_reducible apply chgMk_intro rfl <;> first | with_reducible exact .inl (Sub.mem (by assumption) (by decide)) | with_reducible exact .inr rfl | skip) | split

theorem chg_modPort {s : State} (h : Chg F s0 s) (hF : Sub [.ports] F) (x1 : _) (x2 : _) : Chg F s0 (State.modPort s x1 x2) := by
  unfold State.modPort
  repeat' first | with_reducible exact Sub.trans (by assumption) (by decide) | intro _ | with_reducible assumption | with_reducible exact chg_of_fst (by assumption) (by assumption) | with_reducible apply chg_ite | simp only [chgMk_iff, id_eq] | (with_reducible apply chgMk_intro rfl <;> first | with_reducible exact .inl (Sub.mem (by assumption) (by decide)) | with_reducible exact .inr rfl | skip) | split

theorem chg_modArb {s : State} (h : Chg F s0 s) (hF : Sub [.arbs] F) (x1 : _) (x2 : _) : Chg F s0 (State.modArb s x1 x2) := by
  unfold State.modArb
  repeat' first | with_reducible exact Sub.trans (by assumption) (by decide) | intro _ | with_reducible assumption | with_reducible exact chg_of_fst (by assumption) (by assumption) | with_reducible apply chg_ite | simp only [chgMk_iff, id_eq] | (with_reducible apply chgMk_intro rfl <;> first | with_reducible exact .inl (Sub.mem (by assumption) (by decide)) | with_reducible exact .inr rfl | skip) | split

theorem chg_freeUnits {s : State} (h : Chg F s0 s) (hF : Sub [.arbs] F) (x1 : _) : Chg F s0 (State.freeUnits s x1) := by
  unfold State.freeUnits
  repeat' first | with_reducible exact Sub.trans (by assumption) (by decide) | intro _ | with_reducible assumption | with_reducible exact chg_of_fst (by assumption) (by assumption) | with_reducible apply chg_ite | simp only [chgMk_iff, id_eq] | (with_reducible apply chgMk_intro rfl <;> first | with_reducible exact .inl (Sub.mem (by assumption) (by decide)) | with_reducible exact .inr rfl | skip) | split

theorem chg_modSeq {s : State} (h : Chg F s0 s) (hF : Sub [.tiles] F) (x1 : _) (x2 : _) (x3 : _) : Chg F s0 (State.modSeq s x1 x2 x3) := by
  unfold State.modSeq
  repeat' first | with_reducible exact Sub.trans (by assumption) (by decide) | intro _ | with_reducible assumption | with_reducible apply chg_modTile | with_reducible exact chg_of_fst (by assumption) (by assumption) | with_reducible apply chg_ite | simp only [chgMk_iff, id_eq] | (with_reducible apply chgMk_intro rfl <;> first | with_reducible exact .inl (Sub.mem (by assumption) (by decide)) | with_reducible exact .inr rfl | skip) | split

theorem chg_send {s : State} (h : Chg F s0 s) (hF : Sub [.outbox] F) (x1 : _) : Chg F s0 (State.send s x1) := by
  unfold State.send
  repeat' first | with_reducible exact Sub.trans (by assumption) (by decide) | intro _ | with_reducible assumption | with_reducible exact chg_of_fst (by assumption) (by assumption) | with_reducible apply chg_ite | simp only [chgMk_iff, id_eq] | (with_reducible apply chgMk_intro rfl <;> first | with_reducible exact .inl (Sub.mem (by assumption) (by decide)) | with_reducible exact .inr rfl | skip) | split

theorem chg_whenLive {s : State} (h : Chg F s0 s) (hF : Sub [] F) (f : State → State) (hf : ∀ s, Chg F s0 s → Chg F s0 (f s)) :
    Chg F s0 (whenLive s f) := by
  unfold whenLive
  split
  · exact hf _ h
  · exact h

theorem chg_msix {s : State} (h : Chg F s0 s) (hF : Sub [.fns, .outbox] F) (x1 : _) (x2 : _) : Chg F s0 (State.msix s x1 x2) := by
  unfold State.msix
  repeat' first | with_reducible exact Sub.trans (by assumption) (by decide) | intro _ | with_reducible assumption | with_reducible apply chg_modFn | with_reducible apply chg_send | with_reducible exact chg_of_fst (by assumption) (by assumption) | with_reducible apply chg_ite | simp only [chgMk_iff, id_eq] | (with_reducible apply chgMk_intro rfl <;> first | with_reducible exact .inl (Sub.mem (by assumption) (by decide)) | with_reducible exact .inr rfl | skip) | split

theorem chg_flushPba {s : State} (h : Chg F s0 s) (hF : Sub [.fns, .outbox] F) (x1 : _) : Chg F s0 (State.flushPba s x1) := by
  unfold State.flushPba
  repeat' first | with_reducible exact Sub.trans (by assumption) (by decide) | intro _ | with_reducible assumption | with_reducible apply chg_foldl | with_reducible apply chg_foldl_fst | with_reducible apply chg_msix | with_reducible apply chg_modFn | with_reducible exact chg_of_fst (by assumption) (by assumption) | with_reducible apply chg_ite | simp only [chgMk_iff, id_eq] | (with_reducible apply chgMk_intro rfl <;> first | with_reducible exact .inl (Sub.mem (by assumption) (by decide)) | with_reducible exact .inr rfl | skip) | split

theorem chg_logEvent {s : State} (h : Chg F s0 s) (hF : Sub [.fns, .evt, .outbox] F) (x1 : _) (x2 : _) (x3 : _) (x4 : _) (x5 : _) (x6 : _) (x7 : _) : Chg F s0 (State.logEvent s x1 x2 x3 x4 x5 x6 x7) := by
  unfold State.logEvent
  repeat' first | with_reducible exact Sub.trans (by assumption) (by decide) | intro _ | with_reducible assumption | with_reducible apply chg_foldl | with_reducible apply chg_foldl_fst | with_reducible apply chg_msix | with_reducible exact chg_of_fst (by assumption) (by assumption) | with_reducible apply chg_ite | simp only [chgMk_iff, id_eq] | (with_reducible apply chgMk_intro rfl <;> first | with_reducible exact .inl (Sub.mem (by assumption) (by decide)) | with_reducible exact .inr rfl | skip) | split

theorem chg_logDev {s : State} (h : Chg F s0 s) (hF : Sub [.fns, .evt, .outbox] F) (x1 : _) (x2 : _) (x3 : _) : Chg F s0 (State.logDev s x1 x2 x3) := by
  unfold State.logDev
  repeat' first | with_reducible exact Sub.trans (by assumption) (by decide) | intro _ | with_reducible assumption | with_reducible apply chg_logEvent | with_reducible exact chg_of_fst (by assumption) (by assumption) | with_reducible apply chg_ite | simp only [chgMk_iff, id_eq] | (with_reducible apply chgMk_intro rfl <;> first | with_reducible exact .inl (Sub.mem (by assumption) (by decide)) | with_reducible exact .inr rfl | skip) | split

theorem chg_logTile {s : State} (h : Chg F s0 s) (hF : Sub [.fns, .evt, .outbox] F) (x1 : _) (x2 : _) (x3 : _) (x4 : _) (x5 : _) (x6 : _) (x7 : _) : Chg F s0 (State.logTile s x1 x2 x3 x4 x5 x6 x7) := by
  unfold State.logTile
  repeat' first | with_reducible exact Sub.trans (by assumption) (by decide) | intro _ | with_reducible assumption | with_reducible apply chg_logEvent | with_reducible exact chg_of_fst (by assumption) (by assumption) | with_reducible apply chg_ite | simp only [chgMk_iff, id_eq] | (with_reducible apply chgMk_intro rfl <;> first | with_reducible exact .inl (Sub.mem (by assumption) (by decide)) | with_reducible exact .inr rfl | skip) | split

theorem chg_logLevel {s : State} (h : Chg F s0 s) (hF : Sub [.fns, .evt, .outbox] F) (x1 : _) (x2 : _) (x3 : _) (x4 : _) : Chg F s0 (State.logLevel s x1 x2 x3 x4) := by
  unfold State.logLevel
  repeat' first | with_reducible exact Sub.trans (by assumption) (by decide) | intro _ | with_reducible assumption | with_reducible apply chg_logEvent | with_reducible exact chg_of_fst (by assumption) (by assumption) | with_reducible apply chg_ite | simp only [chgMk_iff, id_eq] | (with_reducible apply chgMk_intro rfl <;> first | with_reducible exact .inl (Sub.mem (by assumption) (by decide)) | with_reducible exact .inr rfl | skip) | split

theorem chg_requestAbort {s : State} (h : Chg F s0 s) (hF : Sub [.ctxs] F) (x1 : _) (x2 : _) (x3 : _) (x4 : _) (x5 : _) : Chg F s0 (State.requestAbort s x1 x2 x3 x4 x5) := by
  unfold State.requestAbort
  repeat' first | with_reducible exact Sub.trans (by assumption) (by decide) | intro _ | with_reducible assumption | with_reducible apply chg_modStep | with_reducible exact chg_of_fst (by assumption) (by assumption) | with_reducible apply chg_ite | simp only [chgMk_iff, id_eq] | (with_reducible apply chgMk_intro rfl <;> first | with_reducible exact .inl (Sub.mem (by assumption) (by decide)) | with_reducible exact .inr rfl | skip) | split

theorem chg_abortAll {s : State} (h : Chg F s0 s) (hF : Sub [.ctxs] F) (x1 : _) (x2 : _) : Chg F s0 (State.abortAll s x1 x2) := by
  unfold State.abortAll
  repeat' first | with_reducible exact Sub.trans (by assumption) (by decide) | intro _ | with_reducible assumption | with_reducible apply chg_foldl | with_reducible apply chg_foldl_fst | with_reducible apply chg_requestAbort | with_reducible exact chg_of_fst (by assumption) (by assumption) | with_reducible apply chg_ite | simp only [chgMk_iff, id_eq] | (with_reducible apply chgMk_intro rfl <;> first | with_reducible exact .inl (Sub.mem (by assumption) (by decide)) | with_reducible exact .inr rfl | skip) | split

theorem chg_advanceEpoch {s : State} (h : Chg F s0 s) (hF : Sub [.units, .evt] F) : Chg F s0 (State.advanceEpoch s) := by
  unfold State.advanceEpoch
  repeat' first | with_reducible exact Sub.trans (by assumption) (by decide) | intro _ | with_reducible assumption | with_reducible exact chg_of_fst (by assumption) (by assumption) | with_reducible apply chg_ite | simp only [chgMk_iff, id_eq] | (with_reducible apply chgMk_intro rfl <;> first | with_reducible exact .inl (Sub.mem (by assumption) (by decide)) | with_reducible exact .inr rfl | skip) | split

theorem chg_wr {s : State} (h : Chg F s0 s) (hF : Sub [.mem, .poison] F) (x1 : _) (x2 : _) : Chg F s0 (State.wr s x1 x2) := by
  unfold State.wr
  repeat' first | with_reducible exact Sub.trans (by assumption) (by decide) | intro _ | with_reducible assumption | with_reducible exact chg_of_fst (by assumption) (by assumption) | with_reducible apply chg_ite | simp only [chgMk_iff, id_eq] | (with_reducible apply chgMk_intro rfl <;> first | with_reducible exact .inl (Sub.mem (by assumption) (by decide)) | with_reducible exact .inr rfl | skip) | split

theorem chg_wrPoison {s : State} (h : Chg F s0 s) (hF : Sub [.mem, .poison] F) (x1 : _) (x2 : _) : Chg F s0 (State.wrPoison s x1 x2) := by
  unfold State.wrPoison
  repeat' first | with_reducible exact Sub.trans (by assumption) (by decide) | intro _ | with_reducible assumption | with_reducible exact chg_of_fst (by assumption) (by assumption) | with_reducible apply chg_ite | simp only [chgMk_iff, id_eq] | (with_reducible apply chgMk_intro rfl <;> first | with_reducible exact .inl (Sub.mem (by assumption) (by decide)) | with_reducible exact .inr rfl | skip) | split

theorem chg_zero {s : State} (h : Chg F s0 s) (hF : Sub [.mem, .poison] F) (x1 : _) (x2 : _) : Chg F s0 (State.zero s x1 x2) := by
  unfold State.zero
  repeat' first | with_reducible exact Sub.trans (by assumption) (by decide) | intro _ | with_reducible assumption | with_reducible exact chg_of_fst (by assumption) (by assumption) | with_reducible apply chg_ite | simp only [chgMk_iff, id_eq] | (with_reducible apply chgMk_intro rfl <;> first | with_reducible exact .inl (Sub.mem (by assumption) (by decide)) | with_reducible exact .inr rfl | skip) | split

theorem chg_asBefore {s : State} (h : Chg F s0 s) (hF : Sub [.old, .mem] F) : Chg F s0 s.asBefore := by
  unfold State.asBefore
  rw [chgMk_iff]
  (with_reducible apply chgMk_intro rfl h) <;> first | with_reducible exact .inl (Sub.mem hF (by decide)) | with_reducible exact .inr rfl

theorem chg_afterAll (s : State) {r : State} (h : Chg F s0 r) (hF : Sub [.old, .mem] F) (k : Nat) : Chg F s0 (s.afterAll r k) := by
  unfold State.afterAll
  simp only []
  rw [chgMk_iff]
  (with_reducible apply chgMk_intro rfl h) <;> first | with_reducible exact .inl (Sub.mem hF (by decide)) | with_reducible exact .inr rfl

theorem chg_wrClk {s : State} (h : Chg F s0 s) (hF : Sub [.old, .mem, .poison] F) (x1 : _) (x2 : _) : Chg F s0 (State.wrClk s x1 x2) := by
  unfold State.wrClk
  repeat' first | with_reducible exact Sub.trans (by assumption) (by decide) | intro _ | with_reducible assumption | with_reducible apply chg_wr | with_reducible exact chg_of_fst (by assumption) (by assumption) | with_reducible apply chg_ite | simp only [chgMk_iff, id_eq] | (with_reducible apply chgMk_intro rfl <;> first | with_reducible exact .inl (Sub.mem (by assumption) (by decide)) | with_reducible exact .inr rfl | skip) | split

theorem chg_visible {s : State} (h : Chg F s0 s) (hF : Sub [.old] F) (x1 : _) : Chg F s0 (State.visible s x1) := by
  unfold State.visible
  repeat' first | with_reducible exact Sub.trans (by assumption) (by decide) | intro _ | with_reducible assumption | with_reducible exact chg_of_fst (by assumption) (by assumption) | with_reducible apply chg_ite | simp only [chgMk_iff, id_eq] | (with_reducible apply chgMk_intro rfl <;> first | with_reducible exact .inl (Sub.mem (by assumption) (by decide)) | with_reducible exact .inr rfl | skip) | split

theorem chg_modPent {s : State} (h : Chg F s0 s) (hF : Sub [.place] F) (x1 : _) (x2 : _) : Chg F s0 (State.modPent s x1 x2) := by
  unfold State.modPent
  repeat' first | with_reducible exact Sub.trans (by assumption) (by decide) | intro _ | with_reducible assumption | with_reducible exact chg_of_fst (by assumption) (by assumption) | with_reducible apply chg_ite | simp only [chgMk_iff, id_eq] | (with_reducible apply chgMk_intro rfl <;> first | with_reducible exact .inl (Sub.mem (by assumption) (by decide)) | with_reducible exact .inr rfl | skip) | split

theorem chg_markPoison {s : State} (h : Chg F s0 s) (hF : Sub [.place] F) (x1 : _) : Chg F s0 (State.markPoison s x1) := by
  unfold State.markPoison
  repeat' first | with_reducible exact Sub.trans (by assumption) (by decide) | intro _ | with_reducible assumption | with_reducible apply chg_modPent | with_reducible exact chg_of_fst (by assumption) (by assumption) | with_reducible apply chg_ite | simp only [chgMk_iff, id_eq] | (with_reducible apply chgMk_intro rfl <;> first | with_reducible exact .inl (Sub.mem (by assumption) (by decide)) | with_reducible exact .inr rfl | skip) | split

theorem chg_zeroFill {s : State} (h : Chg F s0 s) (hF : Sub [.mem, .poison, .place] F) (x1 : _) : Chg F s0 (State.zeroFill s x1) := by
  unfold State.zeroFill
  repeat' first | with_reducible exact Sub.trans (by assumption) (by decide) | intro _ | with_reducible assumption | with_reducible apply chg_modPent | with_reducible apply chg_zero | with_reducible exact chg_of_fst (by assumption) (by assumption) | with_reducible apply chg_ite | simp only [chgMk_iff, id_eq] | (with_reducible apply chgMk_intro rfl <;> first | with_reducible exact .inl (Sub.mem (by assumption) (by decide)) | with_reducible exact .inr rfl | skip) | split

theorem chg_wrCaPiece {s : State} (h : Chg F s0 s) (hF : Sub [.mem, .poison, .place] F) (x1 : _) (x2 : _) (x3 : _) (x4 : _) : Chg F s0 (State.wrCaPiece s x1 x2 x3 x4) := by
  unfold State.wrCaPiece
  repeat' first | with_reducible exact Sub.trans (by assumption) (by decide) | intro _ | with_reducible assumption | with_reducible apply chg_wrPoison | with_reducible apply chg_wr | with_reducible apply chg_zeroFill | with_reducible apply chg_markPoison | with_reducible exact chg_of_fst (by assumption) (by assumption) | with_reducible apply chg_ite | simp only [chgMk_iff, id_eq] | (with_reducible apply chgMk_intro rfl <;> first | with_reducible exact .inl (Sub.mem (by assumption) (by decide)) | with_reducible exact .inr rfl | skip) | split

theorem chg_wrCa {s : State} (h : Chg F s0 s) (hF : Sub [.mem, .poison, .place] F) (x1 : _) (x2 : _) (x3 : _) (x4 : _) : Chg F s0 (State.wrCa s x1 x2 x3 x4) := by
  unfold State.wrCa
  repeat' first | with_reducible exact Sub.trans (by assumption) (by decide) | intro _ | with_reducible assumption | with_reducible apply chg_foldl | with_reducible apply chg_foldl_fst | with_reducible apply chg_wrCaPiece | with_reducible exact chg_of_fst (by assumption) (by assumption) | with_reducible apply chg_ite | simp only [chgMk_iff, id_eq] | (with_reducible apply chgMk_intro rfl <;> first | with_reducible exact .inl (Sub.mem (by assumption) (by decide)) | with_reducible exact .inr rfl | skip) | split

theorem chg_countNand {s : State} (h : Chg F s0 s) (hF : Sub [.cel] F) (x1 : _) : Chg F s0 (State.countNand s x1) := by
  unfold State.countNand
  repeat' first | with_reducible exact Sub.trans (by assumption) (by decide) | intro _ | with_reducible assumption | with_reducible exact chg_of_fst (by assumption) (by assumption) | with_reducible apply chg_ite | simp only [chgMk_iff, id_eq] | (with_reducible apply chgMk_intro rfl <;> first | with_reducible exact .inl (Sub.mem (by assumption) (by decide)) | with_reducible exact .inr rfl | skip) | split

theorem chg_celCheck {s : State} (h : Chg F s0 s) (hF : Sub [.fns, .cel, .evt, .outbox] F) : Chg F s0 (State.celCheck s) := by
  unfold State.celCheck
  repeat' first | with_reducible exact Sub.trans (by assumption) (by decide) | intro _ | with_reducible assumption | with_reducible apply chg_logDev | with_reducible exact chg_of_fst (by assumption) (by assumption) | with_reducible apply chg_ite | simp only [chgMk_iff, id_eq] | (with_reducible apply chgMk_intro rfl <;> first | with_reducible exact .inl (Sub.mem (by assumption) (by decide)) | with_reducible exact .inr rfl | skip) | split

theorem chg_celThrottle {s : State} (h : Chg F s0 s) (hF : Sub [.fns, .cel, .evt, .outbox] F) : Chg F s0 (State.celThrottle s) := by
  unfold State.celThrottle
  repeat' first | with_reducible exact Sub.trans (by assumption) (by decide) | intro _ | with_reducible assumption | with_reducible apply chg_logDev | with_reducible exact chg_of_fst (by assumption) (by assumption) | with_reducible apply chg_ite | simp only [chgMk_iff, id_eq] | (with_reducible apply chgMk_intro rfl <;> first | with_reducible exact .inl (Sub.mem (by assumption) (by decide)) | with_reducible exact .inr rfl | skip) | split

theorem chg_celCharge {s : State} (h : Chg F s0 s) (hF : Sub [.fns, .cel, .evt, .outbox] F) (x1 : _) : Chg F s0 (State.celCharge s x1) := by
  unfold State.celCharge
  repeat' first | with_reducible exact Sub.trans (by assumption) (by decide) | intro _ | with_reducible assumption | with_reducible apply chg_celThrottle | with_reducible exact chg_of_fst (by assumption) (by assumption) | with_reducible apply chg_ite | simp only [chgMk_iff, id_eq] | (with_reducible apply chgMk_intro rfl <;> first | with_reducible exact .inl (Sub.mem (by assumption) (by decide)) | with_reducible exact .inr rfl | skip) | split

theorem chg_celRefill {s : State} (h : Chg F s0 s) (hF : Sub [.fns, .cel, .evt, .outbox] F) (x1 : _) : Chg F s0 (State.celRefill s x1) := by
  unfold State.celRefill
  repeat' first | with_reducible exact Sub.trans (by assumption) (by decide) | intro _ | with_reducible assumption | with_reducible apply chg_celThrottle | with_reducible exact chg_of_fst (by assumption) (by assumption) | with_reducible apply chg_ite | simp only [chgMk_iff, id_eq] | (with_reducible apply chgMk_intro rfl <;> first | with_reducible exact .inl (Sub.mem (by assumption) (by decide)) | with_reducible exact .inr rfl | skip) | split

theorem chg_celStart {s : State} (h : Chg F s0 s) (hF : Sub [.cel] F) (f n : Nat) : ∀ t, s.celStart f n = some t → Chg F s0 t := by
  intro t e
  unfold State.celStart at e
  split at e
  · cases e
  · cases e; exact chg_up_cel h (hF _ (by decide)) _

theorem chg_celRewrite {s : State} (h : Chg F s0 s) (hF : Sub [.cel] F) (x1 : _) : Chg F s0 (State.celRewrite s x1) := by
  unfold State.celRewrite
  repeat' first | with_reducible exact Sub.trans (by assumption) (by decide) | intro _ | with_reducible assumption | with_reducible apply chg_countNand | with_reducible exact chg_of_fst (by assumption) (by assumption) | with_reducible apply chg_ite | simp only [chgMk_iff, id_eq] | (with_reducible apply chgMk_intro rfl <;> first | with_reducible exact .inl (Sub.mem (by assumption) (by decide)) | with_reducible exact .inr rfl | skip) | split

theorem chg_celEmpty {s : State} (h : Chg F s0 s) (hF : Sub [.cel] F) (x1 : _) : Chg F s0 (State.celEmpty s x1) := by
  unfold State.celEmpty
  repeat' first | with_reducible exact Sub.trans (by assumption) (by decide) | intro _ | with_reducible assumption | with_reducible apply chg_foldl | with_reducible apply chg_foldl_fst | with_reducible apply chg_celRewrite | with_reducible exact chg_of_fst (by assumption) (by assumption) | with_reducible apply chg_ite | simp only [chgMk_iff, id_eq] | (with_reducible apply chgMk_intro rfl <;> first | with_reducible exact .inl (Sub.mem (by assumption) (by decide)) | with_reducible exact .inr rfl | skip) | split

theorem chg_doCellarWriteDone {s : State} (h : Chg F s0 s) (hF : Sub [.fns, .cel, .evt, .outbox] F) (x0 : _) : Chg F s0 (doCellarWriteDone x0 s) := by
  unfold doCellarWriteDone
  repeat' first | with_reducible exact Sub.trans (by assumption) (by decide) | intro _ | with_reducible assumption | with_reducible apply chg_foldl | with_reducible apply chg_foldl_fst | with_reducible apply chg_celCheck | with_reducible apply chg_countNand | with_reducible exact chg_of_fst (by assumption) (by assumption) | with_reducible apply chg_ite | simp only [chgMk_iff, id_eq] | (with_reducible apply chgMk_intro rfl <;> first | with_reducible exact .inl (Sub.mem (by assumption) (by decide)) | with_reducible exact .inr rfl | skip) | split

theorem chg_poisonSlots {s : State} (h : Chg F s0 s) (hF : Sub [.poison, .place] F) (x1 : _) (x2 : _) : Chg F s0 (State.poisonSlots s x1 x2) := by
  unfold State.poisonSlots
  repeat' first | with_reducible exact Sub.trans (by assumption) (by decide) | intro _ | with_reducible assumption | with_reducible apply chg_foldl | with_reducible apply chg_foldl_fst | with_reducible apply chg_markPoison | with_reducible exact chg_of_fst (by assumption) (by assumption) | with_reducible apply chg_ite | simp only [chgMk_iff, id_eq] | (with_reducible apply chgMk_intro rfl <;> first | with_reducible exact .inl (Sub.mem (by assumption) (by decide)) | with_reducible exact .inr rfl | skip) | split

theorem chg_celLost {s : State} (h : Chg F s0 s) (hF : Sub [.fns, .poison, .place, .cel, .evt, .outbox] F) (x1 : _) (x2 : _) (x3 : _) : Chg F s0 (State.celLost s x1 x2 x3) := by
  unfold State.celLost
  repeat' first | with_reducible exact Sub.trans (by assumption) (by decide) | intro _ | with_reducible assumption | with_reducible apply chg_foldl | with_reducible apply chg_foldl_fst | with_reducible apply chg_poisonSlots | with_reducible apply chg_logEvent | with_reducible exact chg_of_fst (by assumption) (by assumption) | with_reducible apply chg_ite | simp only [chgMk_iff, id_eq] | (with_reducible apply chgMk_intro rfl <;> first | with_reducible exact .inl (Sub.mem (by assumption) (by decide)) | with_reducible exact .inr rfl | skip) | split

theorem chg_dieFail {s : State} (h : Chg F s0 s) (hF : Sub [.fns, .poison, .place, .cel, .evt, .outbox] F) (x1 : _) (x2 : _) : Chg F s0 (State.dieFail s x1 x2) := by
  unfold State.dieFail
  repeat' first | with_reducible exact Sub.trans (by assumption) (by decide) | intro _ | with_reducible assumption | with_reducible apply chg_foldl | with_reducible apply chg_foldl_fst | with_reducible apply chg_logEvent | with_reducible apply chg_celLost | with_reducible exact chg_of_fst (by assumption) (by assumption) | with_reducible apply chg_ite | simp only [chgMk_iff, id_eq] | (with_reducible apply chgMk_intro rfl <;> first | with_reducible exact .inl (Sub.mem (by assumption) (by decide)) | with_reducible exact .inr rfl | skip) | split

theorem chg_celDeliver {s : State} (h : Chg F s0 s) (hF : Sub [.fns, .cel, .evt, .outbox] F) (x1 : _) (x2 : _) (x3 : _) : Chg F s0 (State.celDeliver s x1 x2 x3) := by
  unfold State.celDeliver
  repeat' first | with_reducible exact Sub.trans (by assumption) (by decide) | intro _ | with_reducible assumption | with_reducible apply chg_logEvent | with_reducible exact chg_of_fst (by assumption) (by assumption) | with_reducible apply chg_ite | simp only [chgMk_iff, id_eq] | (with_reducible apply chgMk_intro rfl <;> first | with_reducible exact .inl (Sub.mem (by assumption) (by decide)) | with_reducible exact .inr rfl | skip) | split

theorem chg_celStep9 {s : State} (h : Chg F s0 s) (hF : Sub [.fns, .poison, .place, .cel, .evt, .outbox] F) (x1 : _) : Chg F s0 (State.celStep9 s x1) := by
  unfold State.celStep9
  repeat' first | with_reducible exact Sub.trans (by assumption) (by decide) | intro _ | with_reducible assumption | with_reducible apply chg_dieFail | with_reducible exact chg_of_fst (by assumption) (by assumption) | with_reducible apply chg_ite | simp only [chgMk_iff, id_eq] | (with_reducible apply chgMk_intro rfl <;> first | with_reducible exact .inl (Sub.mem (by assumption) (by decide)) | with_reducible exact .inr rfl | skip) | split

theorem chg_celOthers {s : State} (h : Chg F s0 s) (hF : Sub [.fns, .cel, .evt, .outbox] F) (x1 : _) (x2 : _) : Chg F s0 (State.celOthers s x1 x2) := by
  unfold State.celOthers
  repeat' first | with_reducible exact Sub.trans (by assumption) (by decide) | intro _ | with_reducible assumption | with_reducible apply chg_foldl | with_reducible apply chg_foldl_fst | with_reducible apply chg_celDeliver | with_reducible exact chg_of_fst (by assumption) (by assumption) | with_reducible apply chg_ite | simp only [chgMk_iff, id_eq] | (with_reducible apply chgMk_intro rfl <;> first | with_reducible exact .inl (Sub.mem (by assumption) (by decide)) | with_reducible exact .inr rfl | skip) | split

theorem chg_celOutcome {s : State} (h : Chg F s0 s) (hF : Sub [.fns, .poison, .place, .cel, .evt, .outbox] F) (x1 : _) (x2 : _) (x3 : _) : Chg F s0 (State.celOutcome s x1 x2 x3) := by
  unfold State.celOutcome
  repeat' first | with_reducible exact Sub.trans (by assumption) (by decide) | intro _ | with_reducible assumption | with_reducible apply chg_celDeliver | with_reducible apply chg_celStep9 | with_reducible apply chg_celOthers | with_reducible apply chg_celLost | with_reducible exact chg_of_fst (by assumption) (by assumption) | with_reducible apply chg_ite | simp only [chgMk_iff, id_eq] | (with_reducible apply chgMk_intro rfl <;> first | with_reducible exact .inl (Sub.mem (by assumption) (by decide)) | with_reducible exact .inr rfl | skip) | split

theorem chg_doCellarRead {s : State} (h : Chg F s0 s) (hF : Sub [.fns, .poison, .place, .cel, .evt, .outbox] F) (x0 : _) (x1 : _) (x2 : _) : Chg F s0 (doCellarRead x0 x1 x2 s) := by
  unfold doCellarRead
  repeat' first | with_reducible exact Sub.trans (by assumption) (by decide) | intro _ | with_reducible assumption | with_reducible apply chg_celOutcome | with_reducible exact chg_of_fst (by assumption) (by assumption) | with_reducible apply chg_ite | simp only [chgMk_iff, id_eq] | (with_reducible apply chgMk_intro rfl <;> first | with_reducible exact .inl (Sub.mem (by assumption) (by decide)) | with_reducible exact .inr rfl | skip) | split

theorem chg_doCellarPatrol {s : State} (h : Chg F s0 s) (hF : Sub [.fns, .poison, .place, .cel, .evt, .outbox] F) (x0 : _) : Chg F s0 (doCellarPatrol x0 s) := by
  unfold doCellarPatrol
  repeat' first | with_reducible exact Sub.trans (by assumption) (by decide) | intro _ | with_reducible assumption | with_reducible apply chg_foldl | with_reducible apply chg_foldl_fst | with_reducible apply chg_celOutcome | with_reducible exact chg_of_fst (by assumption) (by assumption) | with_reducible apply chg_ite | simp only [chgMk_iff, id_eq] | (with_reducible apply chgMk_intro rfl <;> first | with_reducible exact .inl (Sub.mem (by assumption) (by decide)) | with_reducible exact .inr rfl | skip) | split

theorem chg_doCellarRefresh {s : State} (h : Chg F s0 s) (hF : Sub [.cel] F) (x0 : _) : Chg F s0 (doCellarRefresh x0 s) := by
  unfold doCellarRefresh
  repeat' first | with_reducible exact Sub.trans (by assumption) (by decide) | intro _ | with_reducible assumption | with_reducible apply chg_celRewrite | with_reducible exact chg_of_fst (by assumption) (by assumption) | with_reducible apply chg_ite | simp only [chgMk_iff, id_eq] | (with_reducible apply chgMk_intro rfl <;> first | with_reducible exact .inl (Sub.mem (by assumption) (by decide)) | with_reducible exact .inr rfl | skip) | split

theorem chg_doCelDie {s : State} (h : Chg F s0 s) (hF : Sub [.fns, .poison, .place, .cel, .evt, .outbox] F) (x0 : _) (x1 : _) : Chg F s0 (doCelDie x0 x1 s) := by
  unfold doCelDie
  repeat' first | with_reducible exact Sub.trans (by assumption) (by decide) | intro _ | with_reducible assumption | with_reducible apply chg_dieFail | with_reducible exact chg_of_fst (by assumption) (by assumption) | with_reducible apply chg_ite | simp only [chgMk_iff, id_eq] | (with_reducible apply chgMk_intro rfl <;> first | with_reducible exact .inl (Sub.mem (by assumption) (by decide)) | with_reducible exact .inr rfl | skip) | split

theorem chg_readThrough {s : State} (h : Chg F s0 s) (hF : Sub [.fns, .cel, .evt, .outbox] F) (x1 : _) (x2 : _) : Chg F s0 (State.readThrough s x1 x2) := by
  unfold State.readThrough
  repeat' first | with_reducible exact Sub.trans (by assumption) (by decide) | intro _ | with_reducible assumption | with_reducible apply chg_foldl | with_reducible apply chg_foldl_fst | with_reducible apply chg_celDeliver | with_reducible exact chg_of_fst (by assumption) (by assumption) | with_reducible apply chg_ite | simp only [chgMk_iff, id_eq] | (with_reducible apply chgMk_intro rfl <;> first | with_reducible exact .inl (Sub.mem (by assumption) (by decide)) | with_reducible exact .inr rfl | skip) | split

theorem chg_reformSb {s : State} (h : Chg F s0 s) (hF : Sub [.fns, .cel, .evt, .outbox] F) (x1 : _) (x2 : _) : Chg F s0 (State.reformSb s x1 x2) := by
  unfold State.reformSb
  repeat' first | with_reducible exact Sub.trans (by assumption) (by decide) | intro _ | with_reducible assumption | with_reducible apply chg_celEmpty | with_reducible apply chg_readThrough | with_reducible exact chg_of_fst (by assumption) (by assumption) | with_reducible apply chg_ite | simp only [chgMk_iff, id_eq] | (with_reducible apply chgMk_intro rfl <;> first | with_reducible exact .inl (Sub.mem (by assumption) (by decide)) | with_reducible exact .inr rfl | skip) | split

theorem chg_doCellarRebuildDone {s : State} (h : Chg F s0 s) (hF : Sub [.fns, .cel, .evt, .outbox] F) : Chg F s0 (doCellarRebuildDone s) := by
  unfold doCellarRebuildDone
  repeat' first | with_reducible exact Sub.trans (by assumption) (by decide) | intro _ | with_reducible assumption | with_reducible apply chg_foldl | with_reducible apply chg_foldl_fst | with_reducible apply chg_reformSb | with_reducible apply chg_celCheck | with_reducible exact chg_of_fst (by assumption) (by assumption) | with_reducible apply chg_ite | simp only [chgMk_iff, id_eq] | (with_reducible apply chgMk_intro rfl <;> first | with_reducible exact .inl (Sub.mem (by assumption) (by decide)) | with_reducible exact .inr rfl | skip) | split

theorem chg_dissolve {s : State} (h : Chg F s0 s) (hF : Sub [.fns, .cel, .evt, .outbox] F) (x1 : _) : Chg F s0 (State.dissolve s x1) := by
  unfold State.dissolve
  repeat' first | with_reducible exact Sub.trans (by assumption) (by decide) | intro _ | with_reducible assumption | with_reducible apply chg_celCheck | with_reducible exact chg_of_fst (by assumption) (by assumption) | with_reducible apply chg_ite | simp only [chgMk_iff, id_eq] | (with_reducible apply chgMk_intro rfl <;> first | with_reducible exact .inl (Sub.mem (by assumption) (by decide)) | with_reducible exact .inr rfl | skip) | split

theorem chg_retireBlock {s : State} (h : Chg F s0 s) (hF : Sub [.fns, .cel, .evt, .outbox] F) (x1 : _) (x2 : _) : Chg F s0 (State.retireBlock s x1 x2) := by
  unfold State.retireBlock
  repeat' first | with_reducible exact Sub.trans (by assumption) (by decide) | intro _ | with_reducible assumption | with_reducible apply chg_foldl | with_reducible apply chg_foldl_fst | with_reducible apply chg_logEvent | with_reducible apply chg_dissolve | with_reducible apply chg_celRewrite | with_reducible exact chg_of_fst (by assumption) (by assumption) | with_reducible apply chg_ite | simp only [chgMk_iff, id_eq] | (with_reducible apply chgMk_intro rfl <;> first | with_reducible exact .inl (Sub.mem (by assumption) (by decide)) | with_reducible exact .inr rfl | skip) | split

theorem chg_writeAgain {s : State} (h : Chg F s0 s) (hF : Sub [.cel] F) (x1 : _) (x2 : _) : Chg F s0 (State.writeAgain s x1 x2) := by
  unfold State.writeAgain
  repeat' first | with_reducible exact Sub.trans (by assumption) (by decide) | intro _ | with_reducible assumption | with_reducible exact chg_of_fst (by assumption) (by assumption) | with_reducible apply chg_ite | simp only [chgMk_iff, id_eq] | (with_reducible apply chgMk_intro rfl <;> first | with_reducible exact .inl (Sub.mem (by assumption) (by decide)) | with_reducible exact .inr rfl | skip) | split

theorem chg_doProgramFail {s : State} (h : Chg F s0 s) (hF : Sub [.fns, .cel, .evt, .outbox] F) (x0 : _) (x1 : _) (x2 : _) : Chg F s0 (doProgramFail x0 x1 x2 s) := by
  unfold doProgramFail
  repeat' first | with_reducible exact Sub.trans (by assumption) (by decide) | intro _ | with_reducible assumption | with_reducible apply chg_foldl | with_reducible apply chg_foldl_fst | with_reducible apply chg_writeAgain | with_reducible apply chg_retireBlock | with_reducible exact chg_of_fst (by assumption) (by assumption) | with_reducible apply chg_ite | simp only [chgMk_iff, id_eq] | (with_reducible apply chgMk_intro rfl <;> first | with_reducible exact .inl (Sub.mem (by assumption) (by decide)) | with_reducible exact .inr rfl | skip) | split

theorem chg_doEraseFail {s : State} (h : Chg F s0 s) (hF : Sub [.fns, .cel, .evt, .outbox] F) (x0 : _) (x1 : _) : Chg F s0 (doEraseFail x0 x1 s) := by
  unfold doEraseFail
  repeat' first | with_reducible exact Sub.trans (by assumption) (by decide) | intro _ | with_reducible assumption | with_reducible apply chg_retireBlock | with_reducible exact chg_of_fst (by assumption) (by assumption) | with_reducible apply chg_ite | simp only [chgMk_iff, id_eq] | (with_reducible apply chgMk_intro rfl <;> first | with_reducible exact .inl (Sub.mem (by assumption) (by decide)) | with_reducible exact .inr rfl | skip) | split

theorem chg_doCompaction {s : State} (h : Chg F s0 s) (hF : Sub [.fns, .cel, .evt, .outbox] F) : Chg F s0 (doCompaction s) := by
  unfold doCompaction
  repeat' first | with_reducible exact Sub.trans (by assumption) (by decide) | intro _ | with_reducible assumption | with_reducible apply chg_foldl | with_reducible apply chg_foldl_fst | with_reducible apply chg_dissolve | with_reducible apply chg_celRewrite | with_reducible apply chg_celEmpty | with_reducible apply chg_celCheck | with_reducible exact chg_of_fst (by assumption) (by assumption) | with_reducible apply chg_ite | simp only [chgMk_iff, id_eq] | (with_reducible apply chgMk_intro rfl <;> first | with_reducible exact .inl (Sub.mem (by assumption) (by decide)) | with_reducible exact .inr rfl | skip) | split

theorem chg_moveSb {s : State} (h : Chg F s0 s) (hF : Sub [.cel] F) (x1 : _) (x2 : _) : Chg F s0 (State.moveSb s x1 x2) := by
  unfold State.moveSb
  repeat' first | with_reducible exact Sub.trans (by assumption) (by decide) | intro _ | with_reducible assumption | with_reducible apply chg_foldl | with_reducible apply chg_foldl_fst | with_reducible exact chg_of_fst (by assumption) (by assumption) | with_reducible apply chg_ite | simp only [chgMk_iff, id_eq] | (with_reducible apply chgMk_intro rfl <;> first | with_reducible exact .inl (Sub.mem (by assumption) (by decide)) | with_reducible exact .inr rfl | skip) | split

theorem chg_doWearLevel {s : State} (h : Chg F s0 s) (hF : Sub [.fns, .cel, .evt, .outbox] F) : Chg F s0 (doWearLevel s) := by
  unfold doWearLevel
  repeat' first | with_reducible exact Sub.trans (by assumption) (by decide) | intro _ | with_reducible assumption | with_reducible apply chg_celCheck | with_reducible apply chg_countNand | with_reducible apply chg_moveSb | with_reducible exact chg_of_fst (by assumption) (by assumption) | with_reducible apply chg_ite | simp only [chgMk_iff, id_eq] | (with_reducible apply chgMk_intro rfl <;> first | with_reducible exact .inl (Sub.mem (by assumption) (by decide)) | with_reducible exact .inr rfl | skip) | split

theorem chg_countWait {s : State} (h : Chg F s0 s) (hF : Sub [.mig] F) : Chg F s0 (State.countWait s) := by
  unfold State.countWait
  repeat' first | with_reducible exact Sub.trans (by assumption) (by decide) | intro _ | with_reducible assumption | with_reducible exact chg_of_fst (by assumption) (by assumption) | with_reducible apply chg_ite | simp only [chgMk_iff, id_eq] | (with_reducible apply chgMk_intro rfl <;> first | with_reducible exact .inl (Sub.mem (by assumption) (by decide)) | with_reducible exact .inr rfl | skip) | split

theorem chg_freeTags {s : State} (h : Chg F s0 s) (hF : Sub [.mig] F) (x1 : _) : Chg F s0 (State.freeTags s x1) := by
  unfold State.freeTags
  repeat' first | with_reducible exact Sub.trans (by assumption) (by decide) | intro _ | with_reducible assumption | with_reducible exact chg_of_fst (by assumption) (by assumption) | with_reducible apply chg_ite | simp only [chgMk_iff, id_eq] | (with_reducible apply chgMk_intro rfl <;> first | with_reducible exact .inl (Sub.mem (by assumption) (by decide)) | with_reducible exact .inr rfl | skip) | split

theorem chg_markHigh {s : State} (h : Chg F s0 s) (hF : Sub [.mig] F) : Chg F s0 (State.markHigh s) := by
  unfold State.markHigh
  repeat' first | with_reducible exact Sub.trans (by assumption) (by decide) | intro _ | with_reducible assumption | with_reducible exact chg_of_fst (by assumption) (by assumption) | with_reducible apply chg_ite | simp only [chgMk_iff, id_eq] | (with_reducible apply chgMk_intro rfl <;> first | with_reducible exact .inl (Sub.mem (by assumption) (by decide)) | with_reducible exact .inr rfl | skip) | split

theorem chg_requestMove {s : State} (h : Chg F s0 s) (hF : Sub [.mig] F) (x1 : _) (x2 : _) (x3 : _) (x4 : _) (x5 : _) : Chg F s0 (State.requestMove s x1 x2 x3 x4 x5) := by
  unfold State.requestMove
  repeat' first | with_reducible exact Sub.trans (by assumption) (by decide) | intro _ | with_reducible assumption | with_reducible exact chg_of_fst (by assumption) (by assumption) | with_reducible apply chg_ite | simp only [chgMk_iff, id_eq] | (with_reducible apply chgMk_intro rfl <;> first | with_reducible exact .inl (Sub.mem (by assumption) (by decide)) | with_reducible exact .inr rfl | skip) | split

theorem chg_heat1 {s : State} (h : Chg F s0 s) (hF : Sub [.place, .mig] F) (x1 : _) (x2 : _) (x3 : _) : Chg F s0 (State.heat1 s x1 x2 x3) := by
  unfold State.heat1
  repeat' first | with_reducible exact Sub.trans (by assumption) (by decide) | intro _ | with_reducible assumption | with_reducible apply chg_modPent | with_reducible apply chg_requestMove | with_reducible exact chg_of_fst (by assumption) (by assumption) | with_reducible apply chg_ite | simp only [chgMk_iff, id_eq] | (with_reducible apply chgMk_intro rfl <;> first | with_reducible exact .inl (Sub.mem (by assumption) (by decide)) | with_reducible exact .inr rfl | skip) | split

theorem chg_heatCa {s : State} (h : Chg F s0 s) (hF : Sub [.place, .mig] F) (x1 : _) (x2 : _) (x3 : _) : Chg F s0 (State.heatCa s x1 x2 x3) := by
  unfold State.heatCa
  repeat' first | with_reducible exact Sub.trans (by assumption) (by decide) | intro _ | with_reducible assumption | with_reducible apply chg_foldl | with_reducible apply chg_foldl_fst | with_reducible apply chg_heat1 | with_reducible exact chg_of_fst (by assumption) (by assumption) | with_reducible apply chg_ite | simp only [chgMk_iff, id_eq] | (with_reducible apply chgMk_intro rfl <;> first | with_reducible exact .inl (Sub.mem (by assumption) (by decide)) | with_reducible exact .inr rfl | skip) | split

theorem chg_getD {o : Option State} {s : State} (ho : ∀ t, o = some t → Chg F s0 t) (h : Chg F s0 s) : Chg F s0 (o.getD s) := by
  cases o with
  | none => exact h
  | some t => exact ho t rfl

theorem chg_startMove {s : State} (h : Chg F s0 s) (hF : Sub [.fns, .place, .mig, .cel, .evt, .outbox] F) (m : Move) (k : Nat) : Chg F s0 (s.startMove m k) := by
  unfold State.startMove
  simp only []
  split
  · exact h
  · refine chg_markHigh (chg_up_mig (chg_modPent ?_ (Sub.trans hF (by decide)) _ _) (hF _ (by decide)) _) (Sub.trans hF (by decide))
    refine chg_ite (chg_celCharge ?_ (Sub.trans hF (by decide)) _) ?_ <;>
      exact chg_ite (chg_getD (chg_celStart h (Sub.trans hF (by decide)) _ _) h) h

theorem chg_startEvict {s : State} (h : Chg F s0 s) (hF : Sub [.fns, .place, .mig, .cel, .evt, .outbox] F) (x1 : _) (x2 : _) (x3 : _) (x4 : _) : Chg F s0 (State.startEvict s x1 x2 x3 x4) := by
  unfold State.startEvict
  repeat' first | with_reducible exact Sub.trans (by assumption) (by decide) | intro _ | with_reducible assumption | with_reducible apply chg_startMove | with_reducible exact chg_of_fst (by assumption) (by assumption) | with_reducible apply chg_ite | simp only [chgMk_iff, id_eq] | (with_reducible apply chgMk_intro rfl <;> first | with_reducible exact .inl (Sub.mem (by assumption) (by decide)) | with_reducible exact .inr rfl | skip) | split

theorem chg_dropMove {s : State} (h : Chg F s0 s) (hF : Sub [.fns, .mig] F) (x1 : _) : Chg F s0 (State.dropMove s x1) := by
  unfold State.dropMove
  repeat' first | with_reducible exact Sub.trans (by assumption) (by decide) | intro _ | with_reducible assumption | with_reducible exact chg_of_fst (by assumption) (by assumption) | with_reducible apply chg_ite | simp only [chgMk_iff, id_eq] | (with_reducible apply chgMk_intro rfl <;> first | with_reducible exact .inl (Sub.mem (by assumption) (by decide)) | with_reducible exact .inr rfl | skip) | split

theorem chg_modQueued {s : State} (h : Chg F s0 s) (hF : Sub [.mig] F) (x1 : _) (x2 : _) : Chg F s0 (State.modQueued s x1 x2) := by
  unfold State.modQueued
  repeat' first | with_reducible exact Sub.trans (by assumption) (by decide) | intro _ | with_reducible assumption | with_reducible exact chg_of_fst (by assumption) (by assumption) | with_reducible apply chg_ite | simp only [chgMk_iff, id_eq] | (with_reducible apply chgMk_intro rfl <;> first | with_reducible exact .inl (Sub.mem (by assumption) (by decide)) | with_reducible exact .inr rfl | skip) | split

theorem chg_noRoomLog {s : State} (h : Chg F s0 s) (hF : Sub [.ctxs, .fns, .mig, .evt, .outbox] F) (x1 : _) : Chg F s0 (State.noRoomLog s x1) := by
  unfold State.noRoomLog
  repeat' first | with_reducible exact Sub.trans (by assumption) (by decide) | intro _ | with_reducible assumption | with_reducible apply chg_modQueued | with_reducible apply chg_modStep | with_reducible apply chg_logDev | with_reducible exact chg_of_fst (by assumption) (by assumption) | with_reducible apply chg_ite | simp only [chgMk_iff, id_eq] | (with_reducible apply chgMk_intro rfl <;> first | with_reducible exact .inl (Sub.mem (by assumption) (by decide)) | with_reducible exact .inr rfl | skip) | split

theorem chg_startOr {s : State} (h : Chg F s0 s) (hF : Sub [.fns, .place, .mig, .cel, .evt, .outbox] F) (m : Move) (k : Nat) : ∀ t, s.startOr m k = .acted t → Chg F s0 t := by
  intro t e
  unfold State.startOr at e
  split at e
  · cases e
  · cases e; exact chg_startMove h (Sub.trans hF (by decide)) _ _

theorem chg_makeRoom {s : State} (h : Chg F s0 s) (hF : Sub [.fns, .place, .mig, .cel, .evt, .outbox] F) (m : Move) (r : Region) (k : Nat) :
    ∀ t, s.makeRoom m r k = .acted t → Chg F s0 t := by
  intro t e
  unfold State.makeRoom at e
  simp only [] at e
  repeat' first
    | split at e
    | (cases e; first | exact chg_startEvict h (Sub.trans hF (by decide)) _ _ _ _ | exact chg_up_mig (chg_startEvict h (Sub.trans hF (by decide)) _ _ _ _) (hF _ (by decide)) _)
    | (cases e; done)

theorem chg_tryMove {s : State} (h : Chg F s0 s) (hF : Sub [.fns, .place, .mig, .cel, .evt, .outbox] F) (m : Move) : ∀ t, s.tryMove m = .acted t → Chg F s0 t := by
  intro t e
  unfold State.tryMove at e
  simp only [] at e
  repeat' split at e
  all_goals first
    | exact chg_startOr h (Sub.trans hF (by decide)) _ _ _ e
    | exact chg_makeRoom h (Sub.trans hF (by decide)) _ _ _ _ e
    | (cases e; done)

theorem chg_serveMoves (l : List Move) {s : State} (h : Chg F s0 s) (hF : Sub [.ctxs, .fns, .place, .mig, .cel, .evt, .outbox] F) : Chg F s0 (serveMoves l s) := by
  induction l generalizing s with
  | nil => exact h
  | cons m r ih =>
    unfold serveMoves
    split
    · exact chg_tryMove h (Sub.trans hF (by decide)) m _ (by assumption)
    · exact ih (chg_dropMove h (Sub.trans hF (by decide)) _)
    · exact ih h
    · exact ih (chg_ite h (chg_countWait (chg_modQueued h (Sub.trans hF (by decide)) _ _) (Sub.trans hF (by decide))))
    · exact ih (chg_noRoomLog h (Sub.trans hF (by decide)) _)

theorem chg_askRoom {s : State} (h : Chg F s0 s) (hF : Sub [.mig] F) : Chg F s0 (State.askRoom s) := by
  unfold State.askRoom
  repeat' first | with_reducible exact Sub.trans (by assumption) (by decide) | intro _ | with_reducible assumption | with_reducible exact chg_of_fst (by assumption) (by assumption) | with_reducible apply chg_ite | simp only [chgMk_iff, id_eq] | (with_reducible apply chgMk_intro rfl <;> first | with_reducible exact .inl (Sub.mem (by assumption) (by decide)) | with_reducible exact .inr rfl | skip) | split

theorem chg_doMoveStart {s : State} (h : Chg F s0 s) (hF : Sub [.ctxs, .fns, .place, .mig, .cel, .evt, .outbox] F) : Chg F s0 (doMoveStart s) := by
  unfold doMoveStart
  repeat' first | with_reducible exact Sub.trans (by assumption) (by decide) | intro _ | with_reducible assumption | with_reducible apply chg_serveMoves | with_reducible apply chg_askRoom | with_reducible exact chg_of_fst (by assumption) (by assumption) | with_reducible apply chg_ite | simp only [chgMk_iff, id_eq] | (with_reducible apply chgMk_intro rfl <;> first | with_reducible exact .inl (Sub.mem (by assumption) (by decide)) | with_reducible exact .inr rfl | skip) | split

theorem chg_convertHdrs {s : State} (h : Chg F s0 s) (hF : Sub [.hdrs] F) (x1 : _) (x2 : _) : Chg F s0 (State.convertHdrs s x1 x2) := by
  unfold State.convertHdrs
  repeat' first | with_reducible exact Sub.trans (by assumption) (by decide) | intro _ | with_reducible assumption | with_reducible apply chg_foldl | with_reducible apply chg_foldl_fst | with_reducible exact chg_of_fst (by assumption) (by assumption) | with_reducible apply chg_ite | simp only [chgMk_iff, id_eq] | (with_reducible apply chgMk_intro rfl <;> first | with_reducible exact .inl (Sub.mem (by assumption) (by decide)) | with_reducible exact .inr rfl | skip) | split

theorem chg_moveFrame {s : State} (h : Chg F s0 s) (hF : Sub [.mem, .poison, .hdrs, .hdrPoison] F) (x1 : _) (x2 : _) (x3 : _) (x4 : _) : Chg F s0 (State.moveFrame s x1 x2 x3 x4) := by
  unfold State.moveFrame
  repeat' first | with_reducible exact Sub.trans (by assumption) (by decide) | intro _ | with_reducible assumption | with_reducible apply chg_convertHdrs | with_reducible exact chg_of_fst (by assumption) (by assumption) | with_reducible apply chg_ite | simp only [chgMk_iff, id_eq] | (with_reducible apply chgMk_intro rfl <;> first | with_reducible exact .inl (Sub.mem (by assumption) (by decide)) | with_reducible exact .inr rfl | skip) | split

theorem chg_clearFrame {s : State} (h : Chg F s0 s) (hF : Sub [.mem, .poison, .hdrs, .hdrPoison, .cel] F) (x1 : _) (x2 : _) : Chg F s0 (State.clearFrame s x1 x2) := by
  unfold State.clearFrame
  repeat' first | with_reducible exact Sub.trans (by assumption) (by decide) | intro _ | with_reducible assumption | with_reducible apply chg_zero | with_reducible exact chg_of_fst (by assumption) (by assumption) | with_reducible apply chg_ite | simp only [chgMk_iff, id_eq] | (with_reducible apply chgMk_intro rfl <;> first | with_reducible exact .inl (Sub.mem (by assumption) (by decide)) | with_reducible exact .inr rfl | skip) | split

theorem chg_takeRoom {s : State} (h : Chg F s0 s) (hF : Sub [.fns, .place, .mig, .cel, .evt, .outbox] F) (m : Move) : Chg F s0 (s.takeRoom m) := by
  unfold State.takeRoom
  repeat' split
  all_goals first
    | exact h
    | exact chg_tryMove h (Sub.trans hF (by decide)) _ _ (by assumption)

theorem chg_finishMove {s : State} (h : Chg F s0 s) (hF : Sub [.ctxs, .fns, .units, .mem, .poison, .hdrs, .hdrPoison, .place, .mig, .cel, .evt, .outbox] F) (x1 : _) : Chg F s0 (State.finishMove s x1) := by
  unfold State.finishMove
  repeat' first | with_reducible exact Sub.trans (by assumption) (by decide) | intro _ | with_reducible assumption | with_reducible apply chg_moveFrame | with_reducible apply chg_modPent | with_reducible apply chg_modCtx | with_reducible apply chg_requestMove | with_reducible apply chg_takeRoom | with_reducible apply chg_advanceEpoch | with_reducible exact chg_of_fst (by assumption) (by assumption) | with_reducible apply chg_ite | simp only [chgMk_iff, id_eq] | (with_reducible apply chgMk_intro rfl <;> first | with_reducible exact .inl (Sub.mem (by assumption) (by decide)) | with_reducible exact .inr rfl | skip) | split

theorem chg_startFill {s : State} (h : Chg F s0 s) (hF : Sub [.place] F) (x1 : _) : Chg F s0 (State.startFill s x1) := by
  unfold State.startFill
  repeat' first | with_reducible exact Sub.trans (by assumption) (by decide) | intro _ | with_reducible assumption | with_reducible apply chg_modPent | with_reducible exact chg_of_fst (by assumption) (by assumption) | with_reducible apply chg_ite | simp only [chgMk_iff, id_eq] | (with_reducible apply chgMk_intro rfl <;> first | with_reducible exact .inl (Sub.mem (by assumption) (by decide)) | with_reducible exact .inr rfl | skip) | split

theorem chg_fillDone {s : State} (h : Chg F s0 s) (hF : Sub [.mem, .poison, .hdrs, .hdrPoison, .place, .cel] F) (x1 : _) : Chg F s0 (State.fillDone s x1) := by
  unfold State.fillDone
  repeat' first | with_reducible exact Sub.trans (by assumption) (by decide) | intro _ | with_reducible assumption | with_reducible apply chg_modPent | with_reducible apply chg_clearFrame | with_reducible exact chg_of_fst (by assumption) (by assumption) | with_reducible apply chg_ite | simp only [chgMk_iff, id_eq] | (with_reducible apply chgMk_intro rfl <;> first | with_reducible exact .inl (Sub.mem (by assumption) (by decide)) | with_reducible exact .inr rfl | skip) | split

theorem chg_doHeatDecay {s : State} (h : Chg F s0 s) (hF : Sub [.place, .mig] F) : Chg F s0 (doHeatDecay s) := by
  unfold doHeatDecay
  repeat' first | with_reducible exact Sub.trans (by assumption) (by decide) | intro _ | with_reducible assumption | with_reducible exact chg_of_fst (by assumption) (by assumption) | with_reducible apply chg_ite | simp only [chgMk_iff, id_eq] | (with_reducible apply chgMk_intro rfl <;> first | with_reducible exact .inl (Sub.mem (by assumption) (by decide)) | with_reducible exact .inr rfl | skip) | split

theorem chg_cancelMoves {s : State} (h : Chg F s0 s) (hF : Sub [.place, .mig, .cel] F) (x1 : _) : Chg F s0 (State.cancelMoves s x1) := by
  unfold State.cancelMoves
  repeat' first | with_reducible exact Sub.trans (by assumption) (by decide) | intro _ | with_reducible assumption | with_reducible apply chg_foldl | with_reducible apply chg_foldl_fst | with_reducible apply chg_modPent | with_reducible exact chg_of_fst (by assumption) (by assumption) | with_reducible apply chg_ite | simp only [chgMk_iff, id_eq] | (with_reducible apply chgMk_intro rfl <;> first | with_reducible exact .inl (Sub.mem (by assumption) (by decide)) | with_reducible exact .inr rfl | skip) | split

theorem chg_freeGranules {s : State} (h : Chg F s0 s) (hF : Sub [.mem, .poison, .hdrs, .hdrPoison, .place, .cel] F) (x1 : _) : Chg F s0 (State.freeGranules s x1) := by
  unfold State.freeGranules
  repeat' first | with_reducible exact Sub.trans (by assumption) (by decide) | intro _ | with_reducible assumption | with_reducible apply chg_foldl | with_reducible apply chg_foldl_fst | with_reducible apply chg_modPent | with_reducible apply chg_clearFrame | with_reducible exact chg_of_fst (by assumption) (by assumption) | with_reducible apply chg_ite | simp only [chgMk_iff, id_eq] | (with_reducible apply chgMk_intro rfl <;> first | with_reducible exact .inl (Sub.mem (by assumption) (by decide)) | with_reducible exact .inr rfl | skip) | split

theorem chg_doRegionRelease {s : State} (h : Chg F s0 s) (hF : Sub [.ctxs, .mem, .poison, .hdrs, .hdrPoison, .place, .cel] F) (x0 : _) (x1 : _) : Chg F s0 (doRegionRelease x0 x1 s) := by
  unfold doRegionRelease
  repeat' first | with_reducible exact Sub.trans (by assumption) (by decide) | intro _ | with_reducible assumption | with_reducible apply chg_freeGranules | with_reducible apply chg_modCtx | with_reducible exact chg_of_fst (by assumption) (by assumption) | with_reducible apply chg_ite | simp only [chgMk_iff, id_eq] | (with_reducible apply chgMk_intro rfl <;> first | with_reducible exact .inl (Sub.mem (by assumption) (by decide)) | with_reducible exact .inr rfl | skip) | split

theorem chg_displace {s : State} (h : Chg F s0 s) (hF : Sub [.ras] F) (x1 : _) : Chg F s0 (State.displace s x1) := by
  unfold State.displace
  repeat' first | with_reducible exact Sub.trans (by assumption) (by decide) | intro _ | with_reducible assumption | with_reducible exact chg_of_fst (by assumption) (by assumption) | with_reducible apply chg_ite | simp only [chgMk_iff, id_eq] | (with_reducible apply chgMk_intro rfl <;> first | with_reducible exact .inl (Sub.mem (by assumption) (by decide)) | with_reducible exact .inr rfl | skip) | split

theorem chg_evacuate {s : State} (h : Chg F s0 s) (hF : Sub [.place, .mig, .ras] F) (x1 : _) (x2 : _) : Chg F s0 (State.evacuate s x1 x2) := by
  unfold State.evacuate
  repeat' first | with_reducible exact Sub.trans (by assumption) (by decide) | intro _ | with_reducible assumption | with_reducible apply chg_displace | with_reducible apply chg_requestMove | with_reducible apply chg_modPent | with_reducible exact chg_of_fst (by assumption) (by assumption) | with_reducible apply chg_ite | simp only [chgMk_iff, id_eq] | (with_reducible apply chgMk_intro rfl <;> first | with_reducible exact .inl (Sub.mem (by assumption) (by decide)) | with_reducible exact .inr rfl | skip) | split

theorem chg_countFret {s : State} (h : Chg F s0 s) (hF : Sub [.ras] F) (x1 : _) (x2 : _) (x3 : _) : Chg F s0 (State.countFret s x1 x2 x3) := by
  unfold State.countFret
  repeat' first | with_reducible exact Sub.trans (by assumption) (by decide) | intro _ | with_reducible assumption | with_reducible exact chg_of_fst (by assumption) (by assumption) | with_reducible apply chg_ite | simp only [chgMk_iff, id_eq] | (with_reducible apply chgMk_intro rfl <;> first | with_reducible exact .inl (Sub.mem (by assumption) (by decide)) | with_reducible exact .inr rfl | skip) | split

theorem chg_retireFrame {s : State} (h : Chg F s0 s) (hF : Sub [.place, .mig, .ras] F) (x1 : _) (x2 : _) (x3 : _) : Chg F s0 (State.retireFrame s x1 x2 x3) := by
  unfold State.retireFrame
  repeat' first | with_reducible exact Sub.trans (by assumption) (by decide) | intro _ | with_reducible assumption | with_reducible apply chg_evacuate | with_reducible apply chg_countFret | with_reducible exact chg_of_fst (by assumption) (by assumption) | with_reducible apply chg_ite | simp only [chgMk_iff, id_eq] | (with_reducible apply chgMk_intro rfl <;> first | with_reducible exact .inl (Sub.mem (by assumption) (by decide)) | with_reducible exact .inr rfl | skip) | split

theorem chg_logRetired {s : State} (h : Chg F s0 s) (hF : Sub [.fns, .evt, .outbox] F) (x1 : _) (x2 : _) : Chg F s0 (State.logRetired s x1 x2) := by
  unfold State.logRetired
  repeat' first | with_reducible exact Sub.trans (by assumption) (by decide) | intro _ | with_reducible assumption | with_reducible apply chg_logEvent | with_reducible exact chg_of_fst (by assumption) (by assumption) | with_reducible apply chg_ite | simp only [chgMk_iff, id_eq] | (with_reducible apply chgMk_intro rfl <;> first | with_reducible exact .inl (Sub.mem (by assumption) (by decide)) | with_reducible exact .inr rfl | skip) | split

theorem chg_retirePc {s : State} (h : Chg F s0 s) (hF : Sub [.fns, .place, .mig, .ras, .evt, .outbox] F) (x1 : _) (x2 : _) : Chg F s0 (State.retirePc s x1 x2) := by
  unfold State.retirePc
  repeat' first | with_reducible exact Sub.trans (by assumption) (by decide) | intro _ | with_reducible assumption | with_reducible apply chg_foldl | with_reducible apply chg_foldl_fst | with_reducible apply chg_retireFrame | with_reducible apply chg_logRetired | with_reducible exact chg_of_fst (by assumption) (by assumption) | with_reducible apply chg_ite | simp only [chgMk_iff, id_eq] | (with_reducible apply chgMk_intro rfl <;> first | with_reducible exact .inl (Sub.mem (by assumption) (by decide)) | with_reducible exact .inr rfl | skip) | split

theorem chg_retireBank {s : State} (h : Chg F s0 s) (hF : Sub [.fns, .place, .mig, .ras, .evt, .outbox] F) (x1 : _) (x2 : _) : Chg F s0 (State.retireBank s x1 x2) := by
  unfold State.retireBank
  repeat' first | with_reducible exact Sub.trans (by assumption) (by decide) | intro _ | with_reducible assumption | with_reducible apply chg_foldl | with_reducible apply chg_foldl_fst | with_reducible apply chg_retireFrame | with_reducible apply chg_logRetired | with_reducible exact chg_of_fst (by assumption) (by assumption) | with_reducible apply chg_ite | simp only [chgMk_iff, id_eq] | (with_reducible apply chgMk_intro rfl <;> first | with_reducible exact .inl (Sub.mem (by assumption) (by decide)) | with_reducible exact .inr rfl | skip) | split

theorem chg_retireRowBank {s : State} (h : Chg F s0 s) (hF : Sub [.fns, .place, .mig, .ras, .evt, .outbox] F) (x1 : _) : Chg F s0 (State.retireRowBank s x1) := by
  unfold State.retireRowBank
  repeat' first | with_reducible exact Sub.trans (by assumption) (by decide) | intro _ | with_reducible assumption | with_reducible apply chg_logRetired | with_reducible apply chg_retireFrame | with_reducible apply chg_retirePc | with_reducible exact chg_of_fst (by assumption) (by assumption) | with_reducible apply chg_ite | simp only [chgMk_iff, id_eq] | (with_reducible apply chgMk_intro rfl <;> first | with_reducible exact .inl (Sub.mem (by assumption) (by decide)) | with_reducible exact .inr rfl | skip) | split

theorem chg_retireRowBulk {s : State} (h : Chg F s0 s) (hF : Sub [.fns, .place, .mig, .ras, .evt, .outbox] F) (x1 : _) : Chg F s0 (State.retireRowBulk s x1) := by
  unfold State.retireRowBulk
  repeat' first | with_reducible exact Sub.trans (by assumption) (by decide) | intro _ | with_reducible assumption | with_reducible apply chg_foldl | with_reducible apply chg_foldl_fst | with_reducible apply chg_logRetired | with_reducible apply chg_retireFrame | with_reducible apply chg_retireBank | with_reducible exact chg_of_fst (by assumption) (by assumption) | with_reducible apply chg_ite | simp only [chgMk_iff, id_eq] | (with_reducible apply chgMk_intro rfl <;> first | with_reducible exact .inl (Sub.mem (by assumption) (by decide)) | with_reducible exact .inr rfl | skip) | split

theorem chg_retireLine {s : State} (h : Chg F s0 s) (hF : Sub [.fns, .ras, .evt, .outbox] F) (x1 : _) : Chg F s0 (State.retireLine s x1) := by
  unfold State.retireLine
  repeat' first | with_reducible exact Sub.trans (by assumption) (by decide) | intro _ | with_reducible assumption | with_reducible apply chg_logRetired | with_reducible exact chg_of_fst (by assumption) (by assumption) | with_reducible apply chg_ite | simp only [chgMk_iff, id_eq] | (with_reducible apply chgMk_intro rfl <;> first | with_reducible exact .inl (Sub.mem (by assumption) (by decide)) | with_reducible exact .inr rfl | skip) | split

theorem chg_rasCount {s : State} (h : Chg F s0 s) (hF : Sub [.ras] F) (x1 : _) (x2 : _) : Chg F s0 (State.rasCount s x1 x2) := by
  unfold State.rasCount
  repeat' first | with_reducible exact Sub.trans (by assumption) (by decide) | intro _ | with_reducible assumption | with_reducible exact chg_of_fst (by assumption) (by assumption) | with_reducible apply chg_ite | simp only [chgMk_iff, id_eq] | (with_reducible apply chgMk_intro rfl <;> first | with_reducible exact .inl (Sub.mem (by assumption) (by decide)) | with_reducible exact .inr rfl | skip) | split

theorem chg_retireRow {s : State} (h : Chg F s0 s) (hF : Sub [.fns, .place, .mig, .ras, .evt, .outbox] F) (x1 : _) : Chg F s0 (State.retireRow s x1) := by
  unfold State.retireRow
  repeat' first | with_reducible exact Sub.trans (by assumption) (by decide) | intro _ | with_reducible assumption | with_reducible apply chg_retireLine | with_reducible apply chg_retireRowBank | with_reducible apply chg_retireRowBulk | with_reducible exact chg_of_fst (by assumption) (by assumption) | with_reducible apply chg_ite | simp only [chgMk_iff, id_eq] | (with_reducible apply chgMk_intro rfl <;> first | with_reducible exact .inl (Sub.mem (by assumption) (by decide)) | with_reducible exact .inr rfl | skip) | split

theorem chg_poisonHeaders {s : State} (h : Chg F s0 s) (hF : Sub [.hdrPoison] F) (x1 : _) (x2 : _) : Chg F s0 (State.poisonHeaders s x1 x2) := by
  unfold State.poisonHeaders
  repeat' first | with_reducible exact Sub.trans (by assumption) (by decide) | intro _ | with_reducible assumption | with_reducible apply chg_foldl | with_reducible apply chg_foldl_fst | with_reducible exact chg_of_fst (by assumption) (by assumption) | with_reducible apply chg_ite | simp only [chgMk_iff, id_eq] | (with_reducible apply chgMk_intro rfl <;> first | with_reducible exact .inl (Sub.mem (by assumption) (by decide)) | with_reducible exact .inr rfl | skip) | split

theorem chg_logUe {s : State} (h : Chg F s0 s) (hF : Sub [.fns, .ras, .evt, .outbox] F) (x1 : _) (x2 : _) (x3 : _) (x4 : _) : Chg F s0 (State.logUe s x1 x2 x3 x4) := by
  unfold State.logUe
  repeat' first | with_reducible exact Sub.trans (by assumption) (by decide) | intro _ | with_reducible assumption | with_reducible apply chg_logEvent | with_reducible exact chg_of_fst (by assumption) (by assumption) | with_reducible apply chg_ite | simp only [chgMk_iff, id_eq] | (with_reducible apply chgMk_intro rfl <;> first | with_reducible exact .inl (Sub.mem (by assumption) (by decide)) | with_reducible exact .inr rfl | skip) | split

theorem chg_poisonWord {s : State} (h : Chg F s0 s) (hF : Sub [.fns, .poison, .hdrPoison, .place, .ras, .evt, .outbox] F) (x1 : _) (x2 : _) : Chg F s0 (State.poisonWord s x1 x2) := by
  unfold State.poisonWord
  repeat' first | with_reducible exact Sub.trans (by assumption) (by decide) | intro _ | with_reducible assumption | with_reducible apply chg_logUe | with_reducible apply chg_poisonHeaders | with_reducible apply chg_markPoison | with_reducible exact chg_of_fst (by assumption) (by assumption) | with_reducible apply chg_ite | simp only [chgMk_iff, id_eq] | (with_reducible apply chgMk_intro rfl <;> first | with_reducible exact .inl (Sub.mem (by assumption) (by decide)) | with_reducible exact .inr rfl | skip) | split

theorem chg_rasFind {s : State} (h : Chg F s0 s) (hF : Sub [.fns, .poison, .hdrPoison, .place, .mig, .ras, .evt, .outbox] F) (x0 : _) (x2 : _) : Chg F s0 (State.rasFind x0 s x2) := by
  unfold State.rasFind
  repeat' first | with_reducible exact Sub.trans (by assumption) (by decide) | intro _ | with_reducible assumption | with_reducible apply chg_rasCount | with_reducible apply chg_retireRow | with_reducible apply chg_logDev | with_reducible apply chg_poisonWord | with_reducible exact chg_of_fst (by assumption) (by assumption) | with_reducible apply chg_ite | simp only [chgMk_iff, id_eq] | (with_reducible apply chgMk_intro rfl <;> first | with_reducible exact .inl (Sub.mem (by assumption) (by decide)) | with_reducible exact .inr rfl | skip) | split

theorem chg_doPatrolScrub {s : State} (h : Chg F s0 s) (hF : Sub [.fns, .poison, .hdrPoison, .place, .mig, .ras, .evt, .outbox] F) (x0 : _) (x1 : _) : Chg F s0 (doPatrolScrub x0 x1 s) := by
  unfold doPatrolScrub
  repeat' first | with_reducible exact Sub.trans (by assumption) (by decide) | intro _ | with_reducible assumption | with_reducible apply chg_foldl | with_reducible apply chg_foldl_fst | with_reducible apply chg_rasFind | with_reducible exact chg_of_fst (by assumption) (by assumption) | with_reducible apply chg_ite | simp only [chgMk_iff, id_eq] | (with_reducible apply chgMk_intro rfl <;> first | with_reducible exact .inl (Sub.mem (by assumption) (by decide)) | with_reducible exact .inr rfl | skip) | split

theorem chg_doPhyFault {s : State} (h : Chg F s0 s) (hF : Sub [.fns, .place, .mig, .ras, .evt, .outbox] F) (x0 : _) : Chg F s0 (doPhyFault x0 s) := by
  unfold doPhyFault
  repeat' first | with_reducible exact Sub.trans (by assumption) (by decide) | intro _ | with_reducible assumption | with_reducible apply chg_retirePc | with_reducible apply chg_retireBank | with_reducible exact chg_of_fst (by assumption) (by assumption) | with_reducible apply chg_ite | simp only [chgMk_iff, id_eq] | (with_reducible apply chgMk_intro rfl <;> first | with_reducible exact .inl (Sub.mem (by assumption) (by decide)) | with_reducible exact .inr rfl | skip) | split

theorem chg_writeRecord {s : State} (h : Chg F s0 s) (hF : Sub [.old, .mem, .poison] F) (x1 : _) (x2 : _) (x3 : _) (x4 : _) : Chg F s0 (State.writeRecord s x1 x2 x3 x4) := by
  unfold State.writeRecord
  repeat' first | with_reducible exact Sub.trans (by assumption) (by decide) | intro _ | with_reducible assumption | with_reducible apply chg_wrClk | with_reducible exact chg_of_fst (by assumption) (by assumption) | with_reducible apply chg_ite | simp only [chgMk_iff, id_eq] | (with_reducible apply chgMk_intro rfl <;> first | with_reducible exact .inl (Sub.mem (by assumption) (by decide)) | with_reducible exact .inr rfl | skip) | split

theorem chg_progFault {s : State} (h : Chg F s0 s) (hF : Sub [.old, .tiles, .ctxs, .fns, .mem, .poison, .evt, .outbox] F) (x1 : _) (x2 : _) (x3 : _) (x4 : _) (x5 : _) (x6 : _) : Chg F s0 (State.progFault s x1 x2 x3 x4 x5 x6) := by
  unfold State.progFault
  repeat' first | with_reducible exact Sub.trans (by assumption) (by decide) | intro _ | with_reducible assumption | with_reducible apply chg_modSeq | with_reducible apply chg_logTile | with_reducible apply chg_writeRecord | with_reducible apply chg_requestAbort | with_reducible exact chg_of_fst (by assumption) (by assumption) | with_reducible apply chg_ite | simp only [chgMk_iff, id_eq] | (with_reducible apply chgMk_intro rfl <;> first | with_reducible exact .inl (Sub.mem (by assumption) (by decide)) | with_reducible exact .inr rfl | skip) | split

theorem chg_semSet {s : State} (h : Chg F s0 s) (hF : Sub [.tiles] F) (x1 : _) (x2 : _) (x3 : _) (x4 : _) (x5 : _) : Chg F s0 (State.semSet s x1 x2 x3 x4 x5) := by
  unfold State.semSet
  repeat' first | with_reducible exact Sub.trans (by assumption) (by decide) | intro _ | with_reducible assumption | with_reducible apply chg_modTile | with_reducible exact chg_of_fst (by assumption) (by assumption) | with_reducible apply chg_ite | simp only [chgMk_iff, id_eq] | (with_reducible apply chgMk_intro rfl <;> first | with_reducible exact .inl (Sub.mem (by assumption) (by decide)) | with_reducible exact .inr rfl | skip) | split

theorem chg_semAdd {s : State} (h : Chg F s0 s) (hF : Sub [.tiles] F) (x1 : _) (x2 : _) (x3 : _) (x4 : _) (x5 : _) : Chg F s0 (State.semAdd s x1 x2 x3 x4 x5) := by
  unfold State.semAdd
  repeat' first | with_reducible exact Sub.trans (by assumption) (by decide) | intro _ | with_reducible assumption | with_reducible apply chg_modTile | with_reducible exact chg_of_fst (by assumption) (by assumption) | with_reducible apply chg_ite | simp only [chgMk_iff, id_eq] | (with_reducible apply chgMk_intro rfl <;> first | with_reducible exact .inl (Sub.mem (by assumption) (by decide)) | with_reducible exact .inr rfl | skip) | split

theorem chg_semFault {s : State} (h : Chg F s0 s) (hF : Sub [.old, .tiles, .ctxs, .fns, .mem, .poison, .evt, .outbox] F) (x1 : _) (x2 : _) (x3 : _) : Chg F s0 (State.semFault s x1 x2 x3) := by
  unfold State.semFault
  repeat' first | with_reducible exact Sub.trans (by assumption) (by decide) | intro _ | with_reducible assumption | with_reducible apply chg_progFault | with_reducible exact chg_of_fst (by assumption) (by assumption) | with_reducible apply chg_ite | simp only [chgMk_iff, id_eq] | (with_reducible apply chgMk_intro rfl <;> first | with_reducible exact .inl (Sub.mem (by assumption) (by decide)) | with_reducible exact .inr rfl | skip) | split

theorem chg_semFaults {s : State} (h : Chg F s0 s) (hF : Sub [.old, .tiles, .ctxs, .fns, .mem, .poison, .evt, .outbox] F) (x1 : _) (x2 : _) (x3 : _) : Chg F s0 (State.semFaults s x1 x2 x3) := by
  unfold State.semFaults
  repeat' first | with_reducible exact Sub.trans (by assumption) (by decide) | intro _ | with_reducible assumption | with_reducible apply chg_foldl | with_reducible apply chg_foldl_fst | with_reducible apply chg_semFault | with_reducible exact chg_of_fst (by assumption) (by assumption) | with_reducible apply chg_ite | simp only [chgMk_iff, id_eq] | (with_reducible apply chgMk_intro rfl <;> first | with_reducible exact .inl (Sub.mem (by assumption) (by decide)) | with_reducible exact .inr rfl | skip) | split

theorem chg_finishStream {s : State} (h : Chg F s0 s) (hF : Sub [.tiles] F) (x1 : _) (x2 : _) : Chg F s0 (State.finishStream s x1 x2) := by
  unfold State.finishStream
  repeat' first | with_reducible exact Sub.trans (by assumption) (by decide) | intro _ | with_reducible assumption | with_reducible apply chg_modSeq | with_reducible exact chg_of_fst (by assumption) (by assumption) | with_reducible apply chg_ite | simp only [chgMk_iff, id_eq] | (with_reducible apply chgMk_intro rfl <;> first | with_reducible exact .inl (Sub.mem (by assumption) (by decide)) | with_reducible exact .inr rfl | skip) | split

theorem chg_retire {s : State} (h : Chg F s0 s) (hF : Sub [.old, .tiles, .mem, .poison] F) (x1 : _) (x2 : _) (x3 : _) : Chg F s0 (State.retire s x1 x2 x3) := by
  unfold State.retire
  repeat' first | with_reducible exact Sub.trans (by assumption) (by decide) | intro _ | with_reducible assumption | with_reducible apply chg_modSeq | with_reducible apply chg_modTile | with_reducible apply chg_finishStream | with_reducible apply chg_writeRecord | with_reducible exact chg_of_fst (by assumption) (by assumption) | with_reducible apply chg_ite | simp only [chgMk_iff, id_eq] | (with_reducible apply chgMk_intro rfl <;> first | with_reducible exact .inl (Sub.mem (by assumption) (by decide)) | with_reducible exact .inr rfl | skip) | split

theorem chg_reachFault {s : State} (h : Chg F s0 s) (hF : Sub [.old, .tiles, .ctxs, .fns, .mem, .poison, .evt, .outbox] F) (x1 : _) (x2 : _) (x3 : _) (x4 : _) : Chg F s0 (State.reachFault s x1 x2 x3 x4) := by
  unfold State.reachFault
  repeat' first | with_reducible exact Sub.trans (by assumption) (by decide) | intro _ | with_reducible assumption | with_reducible apply chg_progFault | with_reducible exact chg_of_fst (by assumption) (by assumption) | with_reducible apply chg_ite | simp only [chgMk_iff, id_eq] | (with_reducible apply chgMk_intro rfl <;> first | with_reducible exact .inl (Sub.mem (by assumption) (by decide)) | with_reducible exact .inr rfl | skip) | split

theorem chg_budgetUnfit {s : State} (h : Chg F s0 s) (hF : Sub [.tiles, .ctxs, .fns, .evt, .outbox] F) (x1 : _) (x2 : _) (x3 : _) : Chg F s0 (State.budgetUnfit s x1 x2 x3) := by
  unfold State.budgetUnfit
  repeat' first | with_reducible exact Sub.trans (by assumption) (by decide) | intro _ | with_reducible assumption | with_reducible apply chg_logTile | with_reducible apply chg_modSeq | with_reducible apply chg_requestAbort | with_reducible exact chg_of_fst (by assumption) (by assumption) | with_reducible apply chg_ite | simp only [chgMk_iff, id_eq] | (with_reducible apply chgMk_intro rfl <;> first | with_reducible exact .inl (Sub.mem (by assumption) (by decide)) | with_reducible exact .inr rfl | skip) | split

theorem chg_reach {s : State} (h : Chg F s0 s) (hF : Sub [.tiles] F) (t : Nat) (st : Stream) (k : OpInfo) (w : Insn) (pre : Seq → Option Nat) :
    ∀ x, s.reach t st k w pre = .stop x → Chg F s0 x := by
  intro x e
  unfold State.reach at e
  simp only [] at e
  repeat' first
    | split at e
    | (cases e; first | exact h | exact chg_modSeq h (Sub.trans hF (by decide)) _ _ _)
    | (cases e; done)

theorem chg_issue {s : State} (h : Chg F s0 s) (hF : Sub [.old, .tiles, .ctxs, .fns, .mem, .poison, .evt, .outbox] F) (t : Nat) (st : Stream) (k : OpInfo) (w : Insn) (pre : Seq → Option Nat)
    (flow : Seq → Seq) (body : Nat → InFlight → State → Ran) (hb : ∀ c x s, Chg F s0 s → Chg F s0 (body c x s).st) :
    Chg F s0 (s.issue t st k w pre flow body) := by
  unfold State.issue
  simp only []
  split
  · exact h
  · split
    · exact chg_reach h (Sub.trans hF (by decide)) _ _ _ _ _ _ (by assumption)
    · exact chg_reachFault h (Sub.trans hF (by decide)) _ _ _ _
    · refine chg_ite (chg_modSeq h (Sub.trans hF (by decide)) _ _ _) (chg_ite (chg_modSeq h (Sub.trans hF (by decide)) _ _ _) (chg_ite h ?_))
      split
      · exact chg_modSeq h (Sub.trans hF (by decide)) _ _ _
      · exact chg_budgetUnfit h (Sub.trans hF (by decide)) _ _ _
      · refine chg_ite h ?_
        split
        · exact chg_progFault (chg_afterAll _ (hb _ _ _ (chg_asBefore (chg_modSeq h (Sub.trans hF (by decide)) _ _ _) (Sub.trans hF (by decide)))) (Sub.trans hF (by decide)) _) (Sub.trans hF (by decide)) _ _ _ _ _ _
        · refine chg_ite (chg_retire ?_ (Sub.trans hF (by decide)) _ _ _) ?_ <;>
            exact chg_modSeq (chg_afterAll _ (hb _ _ _ (chg_asBefore (chg_modSeq h (Sub.trans hF (by decide)) _ _ _) (Sub.trans hF (by decide)))) (Sub.trans hF (by decide)) _) (Sub.trans hF (by decide)) _ _ _

theorem chg_noWork {s : State} (h : Chg F s0 s) (hF : Sub [] F) (x0 : _) (x1 : _) : Chg F s0 (noWork x0 x1 s).st := by
  unfold noWork
  repeat' first | with_reducible exact Sub.trans (by assumption) (by decide) | intro _ | with_reducible assumption | with_reducible exact chg_of_fst (by assumption) (by assumption) | with_reducible apply chg_ite | simp only [chgMk_iff, id_eq] | (with_reducible apply chgMk_intro rfl <;> first | with_reducible exact .inl (Sub.mem (by assumption) (by decide)) | with_reducible exact .inr rfl | skip) | split

theorem chg_issueDesc {s : State} (h : Chg F s0 s) (hF : Sub [.old, .tiles, .ctxs, .fns, .mem, .poison, .evt, .outbox] F) (t : Nat) (st : Stream) (k : OpInfo) (w : Insn) (ops : List Nat)
    (body : Nat → Nat → Nat → InFlight → State → Ran) (hb : ∀ a b c x s, Chg F s0 s → Chg F s0 (body a b c x s).st) :
    Chg F s0 (s.issueDesc t st k w ops body) := by
  unfold State.issueDesc
  refine chg_issue h (Sub.trans hF (by decide)) _ _ _ _ _ _ _ ?_
  intro c x s hs
  split
  · exact hs
  · exact hb _ _ _ _ _ hs

theorem chg_passSync {s : State} (h : Chg F s0 s) (hF : Sub [.old, .tiles, .mem, .poison] F) (x1 : _) (x2 : _) (x3 : _) : Chg F s0 (State.passSync s x1 x2 x3) := by
  unfold State.passSync
  repeat' first | with_reducible exact Sub.trans (by assumption) (by decide) | intro _ | with_reducible assumption | with_reducible apply chg_modSeq | with_reducible apply chg_finishStream | with_reducible apply chg_writeRecord | with_reducible exact chg_of_fst (by assumption) (by assumption) | with_reducible apply chg_ite | simp only [chgMk_iff, id_eq] | (with_reducible apply chgMk_intro rfl <;> first | with_reducible exact .inl (Sub.mem (by assumption) (by decide)) | with_reducible exact .inr rfl | skip) | split

theorem chg_reachSync {s : State} (h : Chg F s0 s) (hF : Sub [.old, .tiles, .ctxs, .fns, .mem, .poison, .evt, .outbox] F) (t : Nat) (st : Stream) (k : OpInfo) (w : Insn)
    (act : Nat → InFlight → State → State) (ha : ∀ c x s, Chg F s0 s → Chg F s0 (act c x s)) :
    Chg F s0 (s.reachSync t st k w act) := by
  unfold State.reachSync
  simp only []
  split
  · exact h
  · split
    · exact chg_reach h (Sub.trans hF (by decide)) _ _ _ _ _ _ (by assumption)
    · exact chg_reachFault h (Sub.trans hF (by decide)) _ _ _ _
    · exact chg_ite (chg_modSeq h (Sub.trans hF (by decide)) _ _ _) (ha _ _ _ (chg_modSeq h (Sub.trans hF (by decide)) _ _ _))

theorem chg_slip {s : State} (h : Chg F s0 s) (hF : Sub [.ctxs, .fns, .evt, .outbox] F) (x1 : _) (x2 : _) (x3 : _) (x4 : _) (x5 : _) : Chg F s0 (State.slip s x1 x2 x3 x4 x5) := by
  unfold State.slip
  repeat' first | with_reducible exact Sub.trans (by assumption) (by decide) | intro _ | with_reducible assumption | with_reducible apply chg_modStep | with_reducible apply chg_logTile | with_reducible apply chg_requestAbort | with_reducible exact chg_of_fst (by assumption) (by assumption) | with_reducible apply chg_ite | simp only [chgMk_iff, id_eq] | (with_reducible apply chgMk_intro rfl <;> first | with_reducible exact .inl (Sub.mem (by assumption) (by decide)) | with_reducible exact .inr rfl | skip) | split

theorem chg_testSems {s : State} (h : Chg F s0 s) (hF : Sub [.tiles] F) (x1 : _) (x2 : _) : Chg F s0 (State.testSems s x1 x2) := by
  unfold State.testSems
  repeat' first | with_reducible exact Sub.trans (by assumption) (by decide) | intro _ | with_reducible assumption | with_reducible apply chg_modTile | with_reducible exact chg_of_fst (by assumption) (by assumption) | with_reducible apply chg_ite | simp only [chgMk_iff, id_eq] | (with_reducible apply chgMk_intro rfl <;> first | with_reducible exact .inl (Sub.mem (by assumption) (by decide)) | with_reducible exact .inr rfl | skip) | split

theorem chg_doRemoteSignalApply {s : State} (h : Chg F s0 s) (hF : Sub [.old, .tiles, .ctxs, .fns, .mem, .poison, .rsigs, .evt, .outbox] F) (x0 : _) : Chg F s0 (doRemoteSignalApply x0 s) := by
  unfold doRemoteSignalApply
  repeat' first | with_reducible exact Sub.trans (by assumption) (by decide) | intro _ | with_reducible assumption | with_reducible apply chg_semFaults | with_reducible apply chg_semAdd | with_reducible exact chg_of_fst (by assumption) (by assumption) | with_reducible apply chg_ite | simp only [chgMk_iff, id_eq] | (with_reducible apply chgMk_intro rfl <;> first | with_reducible exact .inl (Sub.mem (by assumption) (by decide)) | with_reducible exact .inr rfl | skip) | split

theorem chg_consume {s : State} (h : Chg F s0 s) (hF : Sub [.old, .mig, .xfers] F) (x1 : _) (x2 : _) : Chg F s0 (State.consume s x1 x2).1 := by
  unfold State.consume
  repeat' first | with_reducible exact Sub.trans (by assumption) (by decide) | intro _ | with_reducible assumption | with_reducible apply chg_freeTags | with_reducible apply chg_visible | with_reducible exact chg_of_fst (by assumption) (by assumption) | with_reducible apply chg_ite | simp only [chgMk_iff, id_eq] | (with_reducible apply chgMk_intro rfl <;> first | with_reducible exact .inl (Sub.mem (by assumption) (by decide)) | with_reducible exact .inr rfl | skip) | split

theorem chg_doIcacheFill {s : State} (h : Chg F s0 s) (hF : Sub [.tiles, .place, .mig] F) (x0 : _) (x1 : _) : Chg F s0 (doIcacheFill x0 x1 s) := by
  unfold doIcacheFill
  repeat' first | with_reducible exact Sub.trans (by assumption) (by decide) | intro _ | with_reducible assumption | with_reducible apply chg_foldl | with_reducible apply chg_foldl_fst | with_reducible apply chg_heatCa | with_reducible apply chg_modSeq | with_reducible exact chg_of_fst (by assumption) (by assumption) | with_reducible apply chg_ite | simp only [chgMk_iff, id_eq] | (with_reducible apply chgMk_intro rfl <;> first | with_reducible exact .inl (Sub.mem (by assumption) (by decide)) | with_reducible exact .inr rfl | skip) | split

theorem chg_putRow {s : State} (h : Chg F s0 s) (hF : Sub [.mem, .poison] F) (x1 : _) (x2 : _) (x3 : _) : Chg F s0 (State.putRow s x1 x2 x3) := by
  unfold State.putRow
  repeat' first | with_reducible exact Sub.trans (by assumption) (by decide) | intro _ | with_reducible assumption | with_reducible apply chg_foldl | with_reducible apply chg_foldl_fst | with_reducible apply chg_wr | with_reducible exact chg_of_fst (by assumption) (by assumption) | with_reducible apply chg_ite | simp only [chgMk_iff, id_eq] | (with_reducible apply chgMk_intro rfl <;> first | with_reducible exact .inl (Sub.mem (by assumption) (by decide)) | with_reducible exact .inr rfl | skip) | split

theorem chg_putBlks {s : State} (h : Chg F s0 s) (hF : Sub [.mem, .poison] F) (x1 : _) (x2 : _) (x3 : _) : Chg F s0 (State.putBlks s x1 x2 x3) := by
  unfold State.putBlks
  repeat' first | with_reducible exact Sub.trans (by assumption) (by decide) | intro _ | with_reducible assumption | with_reducible apply chg_wr | with_reducible apply chg_putRow | with_reducible exact chg_of_fst (by assumption) (by assumption) | with_reducible apply chg_ite | simp only [chgMk_iff, id_eq] | (with_reducible apply chgMk_intro rfl <;> first | with_reducible exact .inl (Sub.mem (by assumption) (by decide)) | with_reducible exact .inr rfl | skip) | split

theorem chg_putBitmap {s : State} (h : Chg F s0 s) (hF : Sub [.mem, .poison, .place] F) (x1 : _) (x2 : _) (x3 : _) (x4 : _) : Chg F s0 (State.putBitmap s x1 x2 x3 x4) := by
  unfold State.putBitmap
  repeat' first | with_reducible exact Sub.trans (by assumption) (by decide) | intro _ | with_reducible assumption | with_reducible apply chg_foldl | with_reducible apply chg_foldl_fst | with_reducible apply chg_wrCa | with_reducible exact chg_of_fst (by assumption) (by assumption) | with_reducible apply chg_ite | simp only [chgMk_iff, id_eq] | (with_reducible apply chgMk_intro rfl <;> first | with_reducible exact .inl (Sub.mem (by assumption) (by decide)) | with_reducible exact .inr rfl | skip) | split

theorem chg_metPoison {s : State} (h : Chg F s0 s) (hF : Sub [.ctxs, .fns, .evt, .outbox] F) (x1 : _) (x2 : _) (x3 : _) (x4 : _) : Chg F s0 (State.metPoison s x1 x2 x3 x4).1 := by
  unfold State.metPoison
  repeat' first | with_reducible exact Sub.trans (by assumption) (by decide) | intro _ | with_reducible assumption | with_reducible apply chg_requestAbort | with_reducible apply chg_logTile | with_reducible exact chg_of_fst (by assumption) (by assumption) | with_reducible apply chg_ite | simp only [chgMk_iff, id_eq] | (with_reducible apply chgMk_intro rfl <;> first | with_reducible exact .inl (Sub.mem (by assumption) (by decide)) | with_reducible exact .inr rfl | skip) | split

theorem chg_rowred {s : State} (h : Chg F s0 s) (hF : Sub [.mem, .poison] F) (x1 : _) (x2 : _) (x3 : _) : Chg F s0 (State.rowred s x1 x2 x3).1 := by
  unfold State.rowred
  repeat' first | with_reducible exact Sub.trans (by assumption) (by decide) | intro _ | with_reducible assumption | with_reducible apply chg_wr | with_reducible exact chg_of_fst (by assumption) (by assumption) | with_reducible apply chg_ite | simp only [chgMk_iff, id_eq] | (with_reducible apply chgMk_intro rfl <;> first | with_reducible exact .inl (Sub.mem (by assumption) (by decide)) | with_reducible exact .inr rfl | skip) | split

theorem chg_runStages (hF : Sub [.mem, .poison] F) (k : RowCtx) (l : List Stage) (p : State × List Lane × Nat) (h : Chg F s0 p.1) :
    Chg F s0 (runStages k l p).1 := by
  induction l generalizing p with
  | nil => exact h
  | cons x r ih =>
    unfold runStages
    split
    · exact ih _ (chg_rowred h (Sub.trans hF (by decide)) _ _ _)
    · exact ih _ h

theorem chg_packRow {s : State} (h : Chg F s0 s) (hF : Sub [.mem, .poison, .place] F) (x1 : _) (x2 : _) (x3 : _) : Chg F s0 (State.packRow s x1 x2 x3).1 := by
  unfold State.packRow
  repeat' first | with_reducible exact Sub.trans (by assumption) (by decide) | intro _ | with_reducible assumption | with_reducible apply chg_putRow | with_reducible apply chg_wr | with_reducible apply chg_putBlks | with_reducible apply chg_wrCa | with_reducible apply chg_putBitmap | with_reducible exact chg_of_fst (by assumption) (by assumption) | with_reducible apply chg_ite | simp only [chgMk_iff, id_eq] | (with_reducible apply chgMk_intro rfl <;> first | with_reducible exact .inl (Sub.mem (by assumption) (by decide)) | with_reducible exact .inr rfl | skip) | split

theorem chg_chainRow {s : State} (h : Chg F s0 s) (hF : Sub [.tiles, .mem, .poison, .place] F) (t c : Nat) (k : RowCtx) (src : ChainSrc) :
    Chg F s0 (s.chainRow t c k src).1 := by
  unfold State.chainRow
  simp only []
  split
  · refine chg_runStages (Sub.trans hF (by decide)) _ _ _ ?_
    split
    · exact chg_modTile h (Sub.trans hF (by decide)) _ _
    · exact h
  · refine chg_packRow (chg_runStages (Sub.trans hF (by decide)) _ _ _ ?_) (Sub.trans hF (by decide)) _ _ _
    split
    · exact chg_modTile h (Sub.trans hF (by decide)) _ _
    · exact h

theorem chg_runChain {s : State} (h : Chg F s0 s) (hF : Sub [.tiles, .ctxs, .fns, .mem, .poison, .place, .evt, .outbox] F) (x1 : _) (x2 : _) (x3 : _) (x4 : _) (x5 : _) (x6 : _) (x7 : _) (x8 : _) : Chg F s0 (State.runChain s x1 x2 x3 x4 x5 x6 x7 x8).1 := by
  unfold State.runChain
  repeat' first | with_reducible exact Sub.trans (by assumption) (by decide) | intro _ | with_reducible assumption | with_reducible apply chg_foldl | with_reducible apply chg_foldl_fst | with_reducible apply chg_metPoison | with_reducible apply chg_chainRow | with_reducible exact chg_of_fst (by assumption) (by assumption) | with_reducible apply chg_ite | simp only [chgMk_iff, id_eq] | (with_reducible apply chgMk_intro rfl <;> first | with_reducible exact .inl (Sub.mem (by assumption) (by decide)) | with_reducible exact .inr rfl | skip) | split

theorem chg_runMm {s : State} (h : Chg F s0 s) (hF : Sub [.tiles, .ctxs, .fns, .evt, .outbox] F) (x1 : _) (x2 : _) (x3 : _) (x4 : _) (x5 : _) (x6 : _) : Chg F s0 (State.runMm s x1 x2 x3 x4 x5 x6).1 := by
  unfold State.runMm
  repeat' first | with_reducible exact Sub.trans (by assumption) (by decide) | intro _ | with_reducible assumption | with_reducible apply chg_foldl | with_reducible apply chg_foldl_fst | with_reducible apply chg_metPoison | with_reducible apply chg_modTile | with_reducible exact chg_of_fst (by assumption) (by assumption) | with_reducible apply chg_ite | simp only [chgMk_iff, id_eq] | (with_reducible apply chgMk_intro rfl <;> first | with_reducible exact .inl (Sub.mem (by assumption) (by decide)) | with_reducible exact .inr rfl | skip) | split

theorem chg_register {s : State} (h : Chg F s0 s) (hF : Sub [.mig, .xfers] F) (x1 : _) (x2 : _) (x3 : _) (x4 : _) (x5 : _) (x6 : _) (x7 : _) : Chg F s0 (State.register s x1 x2 x3 x4 x5 x6 x7).1 := by
  unfold State.register
  repeat' first | with_reducible exact Sub.trans (by assumption) (by decide) | intro _ | with_reducible assumption | with_reducible exact chg_of_fst (by assumption) (by assumption) | with_reducible apply chg_ite | simp only [chgMk_iff, id_eq] | (with_reducible apply chgMk_intro rfl <;> first | with_reducible exact .inl (Sub.mem (by assumption) (by decide)) | with_reducible exact .inr rfl | skip) | split

theorem chg_modXfer {s : State} (h : Chg F s0 s) (hF : Sub [.xfers] F) (x1 : _) (x2 : _) : Chg F s0 (State.modXfer s x1 x2) := by
  unfold State.modXfer
  repeat' first | with_reducible exact Sub.trans (by assumption) (by decide) | intro _ | with_reducible assumption | with_reducible exact chg_of_fst (by assumption) (by assumption) | with_reducible apply chg_ite | simp only [chgMk_iff, id_eq] | (with_reducible apply chgMk_intro rfl <;> first | with_reducible exact .inl (Sub.mem (by assumption) (by decide)) | with_reducible exact .inr rfl | skip) | split

theorem chg_modTable {s : State} (h : Chg F s0 s) (hF : Sub [.ctxs] F) (x1 : _) (x2 : _) (x3 : _) : Chg F s0 (State.modTable s x1 x2 x3) := by
  unfold State.modTable
  repeat' first | with_reducible exact Sub.trans (by assumption) (by decide) | intro _ | with_reducible assumption | with_reducible apply chg_modCtx | with_reducible exact chg_of_fst (by assumption) (by assumption) | with_reducible apply chg_ite | simp only [chgMk_iff, id_eq] | (with_reducible apply chgMk_intro rfl <;> first | with_reducible exact .inl (Sub.mem (by assumption) (by decide)) | with_reducible exact .inr rfl | skip) | split

theorem chg_startXfer {s : State} (h : Chg F s0 s) (hF : Sub [.ctxs] F) (x1 : _) (x2 : _) (x3 : _) : Chg F s0 (State.startXfer s x1 x2 x3) := by
  unfold State.startXfer
  repeat' first | with_reducible exact Sub.trans (by assumption) (by decide) | intro _ | with_reducible assumption | with_reducible apply chg_modTable | with_reducible exact chg_of_fst (by assumption) (by assumption) | with_reducible apply chg_ite | simp only [chgMk_iff, id_eq] | (with_reducible apply chgMk_intro rfl <;> first | with_reducible exact .inl (Sub.mem (by assumption) (by decide)) | with_reducible exact .inr rfl | skip) | split

theorem chg_giveTag {s : State} (h : Chg F s0 s) (hF : Sub [.ctxs, .mig, .xfers] F) (x1 : _) (x2 : _) (x3 : _) (x4 : _) : Chg F s0 (State.giveTag s x1 x2 x3 x4) := by
  unfold State.giveTag
  repeat' first | with_reducible exact Sub.trans (by assumption) (by decide) | intro _ | with_reducible assumption | with_reducible apply chg_startXfer | with_reducible apply chg_markHigh | with_reducible apply chg_modXfer | with_reducible exact chg_of_fst (by assumption) (by assumption) | with_reducible apply chg_ite | simp only [chgMk_iff, id_eq] | (with_reducible apply chgMk_intro rfl <;> first | with_reducible exact .inl (Sub.mem (by assumption) (by decide)) | with_reducible exact .inr rfl | skip) | split

theorem chg_takeTag {s : State} (h : Chg F s0 s) (hF : Sub [.ctxs, .mig, .xfers] F) (x1 : _) (x2 : _) (x3 : _) (x4 : _) : Chg F s0 (State.takeTag s x1 x2 x3 x4).1 := by
  unfold State.takeTag
  repeat' first | with_reducible exact Sub.trans (by assumption) (by decide) | intro _ | with_reducible assumption | with_reducible apply chg_giveTag | with_reducible apply chg_countWait | with_reducible apply chg_modXfer | with_reducible exact chg_of_fst (by assumption) (by assumption) | with_reducible apply chg_ite | simp only [chgMk_iff, id_eq] | (with_reducible apply chgMk_intro rfl <;> first | with_reducible exact .inl (Sub.mem (by assumption) (by decide)) | with_reducible exact .inr rfl | skip) | split

theorem chg_issueXfer {s : State} (h : Chg F s0 s) (hF : Sub [.ctxs, .mig, .xfers] F) (x1 : _) (x2 : _) (x3 : _) (x4 : _) (x5 : _) (x6 : _) (x7 : _) (x8 : _) : Chg F s0 (State.issueXfer s x1 x2 x3 x4 x5 x6 x7 x8).1 := by
  unfold State.issueXfer
  repeat' first | with_reducible exact Sub.trans (by assumption) (by decide) | intro _ | with_reducible assumption | with_reducible apply chg_register | with_reducible apply chg_takeTag | with_reducible exact chg_of_fst (by assumption) (by assumption) | with_reducible apply chg_ite | simp only [chgMk_iff, id_eq] | (with_reducible apply chgMk_intro rfl <;> first | with_reducible exact .inl (Sub.mem (by assumption) (by decide)) | with_reducible exact .inr rfl | skip) | split

theorem chg_tagGrant {s : State} (h : Chg F s0 s) (hF : Sub [.arbs, .ctxs, .mig, .xfers] F) (t : Nat) (st : Stream) (n : Nat) :
    ∀ r, s.tagGrant t st n = some r → Chg F s0 r.1 := by
  intro r e
  unfold State.tagGrant at e
  simp only [] at e
  repeat' split at e
  all_goals first
    | (cases e; done)
    | (cases e; exact chg_giveTag (chg_modArb h (Sub.trans hF (by decide)) _ _) (Sub.trans hF (by decide)) _ _ _ _)
    | (cases e; exact chg_giveTag h (Sub.trans hF (by decide)) _ _ _ _)

theorem chg_consumeAt {s : State} (h : Chg F s0 s) (hF : Sub [.xfers] F) (x1 : _) (x2 : _) (x3 : _) (x4 : _) : Chg F s0 (State.consumeAt s x1 x2 x3 x4).st := by
  unfold State.consumeAt
  repeat' first | with_reducible exact Sub.trans (by assumption) (by decide) | intro _ | with_reducible assumption | with_reducible apply chg_modXfer | with_reducible exact chg_of_fst (by assumption) (by assumption) | with_reducible apply chg_ite | simp only [chgMk_iff, id_eq] | (with_reducible apply chgMk_intro rfl <;> first | with_reducible exact .inl (Sub.mem (by assumption) (by decide)) | with_reducible exact .inr rfl | skip) | split

theorem chg_hostFail {s : State} (h : Chg F s0 s) (hF : Sub [.fns, .evt, .outbox] F) (x1 : _) (x2 : _) : Chg F s0 (State.hostFail s x1 x2) := by
  unfold State.hostFail
  repeat' first | with_reducible exact Sub.trans (by assumption) (by decide) | intro _ | with_reducible assumption | with_reducible apply chg_logEvent | with_reducible exact chg_of_fst (by assumption) (by assumption) | with_reducible apply chg_ite | simp only [chgMk_iff, id_eq] | (with_reducible apply chgMk_intro rfl <;> first | with_reducible exact .inl (Sub.mem (by assumption) (by decide)) | with_reducible exact .inr rfl | skip) | split

theorem chg_flagVisible {s : State} (h : Chg F s0 s) (hF : Sub [.fns, .rsigs, .outbox] F) (x1 : _) (x2 : _) (x3 : _) : Chg F s0 (State.flagVisible s x1 x2 x3) := by
  unfold State.flagVisible
  repeat' first | with_reducible exact Sub.trans (by assumption) (by decide) | intro _ | with_reducible assumption | with_reducible apply chg_modFn | with_reducible apply chg_msix | with_reducible exact chg_of_fst (by assumption) (by assumption) | with_reducible apply chg_ite | simp only [chgMk_iff, id_eq] | (with_reducible apply chgMk_intro rfl <;> first | with_reducible exact .inl (Sub.mem (by assumption) (by decide)) | with_reducible exact .inr rfl | skip) | split

theorem chg_hostPut {s : State} (h : Chg F s0 s) (hF : Sub [.fns, .rsigs, .evt, .outbox] F) (x1 : _) (x2 : _) (x3 : _) (x4 : _) (x5 : _) : Chg F s0 (State.hostPut s x1 x2 x3 x4 x5) := by
  unfold State.hostPut
  repeat' first | with_reducible exact Sub.trans (by assumption) (by decide) | intro _ | with_reducible assumption | with_reducible apply chg_flagVisible | with_reducible apply chg_send | with_reducible apply chg_hostFail | with_reducible exact chg_of_fst (by assumption) (by assumption) | with_reducible apply chg_ite | simp only [chgMk_iff, id_eq] | (with_reducible apply chgMk_intro rfl <;> first | with_reducible exact .inl (Sub.mem (by assumption) (by decide)) | with_reducible exact .inr rfl | skip) | split

theorem chg_unblock {s : State} (h : Chg F s0 s) (hF : Sub [.place, .mig] F) (x1 : _) : Chg F s0 (State.unblock s x1) := by
  unfold State.unblock
  repeat' first | with_reducible exact Sub.trans (by assumption) (by decide) | intro _ | with_reducible assumption | with_reducible apply chg_requestMove | with_reducible apply chg_startFill | with_reducible exact chg_of_fst (by assumption) (by assumption) | with_reducible apply chg_ite | simp only [chgMk_iff, id_eq] | (with_reducible apply chgMk_intro rfl <;> first | with_reducible exact .inl (Sub.mem (by assumption) (by decide)) | with_reducible exact .inr rfl | skip) | split

theorem chg_markBytes {s : State} (h : Chg F s0 s) (hF : Sub [.poison, .place] F) (x1 : _) (x2 : _) (x3 : _) : Chg F s0 (State.markBytes s x1 x2 x3) := by
  unfold State.markBytes
  repeat' first | with_reducible exact Sub.trans (by assumption) (by decide) | intro _ | with_reducible assumption | with_reducible apply chg_foldl | with_reducible apply chg_foldl_fst | with_reducible apply chg_markPoison | with_reducible exact chg_of_fst (by assumption) (by assumption) | with_reducible apply chg_ite | simp only [chgMk_iff, id_eq] | (with_reducible apply chgMk_intro rfl <;> first | with_reducible exact .inl (Sub.mem (by assumption) (by decide)) | with_reducible exact .inr rfl | skip) | split

theorem chg_setHdr {s : State} (h : Chg F s0 s) (hF : Sub [.hdrs, .hdrPoison] F) (x1 : _) (x2 : _) : Chg F s0 (State.setHdr s x1 x2) := by
  unfold State.setHdr
  repeat' first | with_reducible exact Sub.trans (by assumption) (by decide) | intro _ | with_reducible assumption | with_reducible exact chg_of_fst (by assumption) (by assumption) | with_reducible apply chg_ite | simp only [chgMk_iff, id_eq] | (with_reducible apply chgMk_intro rfl <;> first | with_reducible exact .inl (Sub.mem (by assumption) (by decide)) | with_reducible exact .inr rfl | skip) | split

theorem chg_putSlot {s : State} (h : Chg F s0 s) (hF : Sub [.fns, .mem, .poison, .hdrs, .hdrPoison, .place, .rsigs, .evt, .outbox] F) (x1 : _) (x2 : _) (x3 : _) (x4 : _) (x5 : _) : Chg F s0 (State.putSlot s x1 x2 x3 x4 x5).st := by
  unfold State.putSlot
  repeat' first | with_reducible exact Sub.trans (by assumption) (by decide) | intro _ | with_reducible assumption | with_reducible apply chg_markBytes | with_reducible apply chg_wrCa | with_reducible apply chg_hostPut | with_reducible apply chg_logDev | with_reducible apply chg_setHdr | with_reducible exact chg_of_fst (by assumption) (by assumption) | with_reducible apply chg_ite | simp only [chgMk_iff, id_eq] | (with_reducible apply chgMk_intro rfl <;> first | with_reducible exact .inl (Sub.mem (by assumption) (by decide)) | with_reducible exact .inr rfl | skip) | split

theorem chg_foldl_wrote {α : Type} {f : Wrote → α → Wrote} {l : List α} {w : Wrote} (h : Chg F s0 w.st)
    (hf : ∀ w a, Chg F s0 w.st → Chg F s0 (f w a).st) : Chg F s0 (l.foldl f w).st := by
  induction l generalizing w with
  | nil => exact h
  | cons x l ih => exact ih (hf _ _ h)

theorem chg_putRowCa {s : State} (h : Chg F s0 s) (hF : Sub [.fns, .mem, .poison, .hdrs, .hdrPoison, .place, .rsigs, .evt, .outbox] F) (c ca : Nat) (l : List MByte) (full : Nat → Bool) (ok : Bool) :
    Chg F s0 (s.putRowCa c ca l full ok).st :=
  chg_foldl_wrote h fun _ _ hw => chg_putSlot hw (Sub.trans hF (by decide)) _ _ _ _ _

theorem chg_wrEngine {s : State} (h : Chg F s0 s) (hF : Sub [.fns, .mem, .poison, .hdrs, .hdrPoison, .place, .evt, .outbox] F) (x1 : _) (x2 : _) (x3 : _) : Chg F s0 (State.wrEngine s x1 x2 x3) := by
  unfold State.wrEngine
  repeat' first | with_reducible exact Sub.trans (by assumption) (by decide) | intro _ | with_reducible assumption | with_reducible apply chg_foldl | with_reducible apply chg_foldl_fst | with_reducible apply chg_wrCa | with_reducible apply chg_setHdr | with_reducible apply chg_logDev | with_reducible exact chg_of_fst (by assumption) (by assumption) | with_reducible apply chg_ite | simp only [chgMk_iff, id_eq] | (with_reducible apply chgMk_intro rfl <;> first | with_reducible exact .inl (Sub.mem (by assumption) (by decide)) | with_reducible exact .inr rfl | skip) | split

theorem chg_putBlock {s : State} (h : Chg F s0 s) (hF : Sub [.mem, .poison, .hdrs, .hdrPoison, .place] F) (x1 : _) (x2 : _) (x3 : _) (x4 : _) (x5 : _) : Chg F s0 (State.putBlock s x1 x2 x3 x4 x5).st := by
  unfold State.putBlock
  repeat' first | with_reducible exact Sub.trans (by assumption) (by decide) | intro _ | with_reducible assumption | with_reducible apply chg_zeroFill | with_reducible apply chg_setHdr | with_reducible apply chg_markPoison | with_reducible apply chg_wrPoison | with_reducible apply chg_wr | with_reducible exact chg_of_fst (by assumption) (by assumption) | with_reducible apply chg_ite | simp only [chgMk_iff, id_eq] | (with_reducible apply chgMk_intro rfl <;> first | with_reducible exact .inl (Sub.mem (by assumption) (by decide)) | with_reducible exact .inr rfl | skip) | split

theorem chg_logXfer {s : State} (h : Chg F s0 s) (hF : Sub [.fns, .evt, .outbox] F) (x1 : _) (x2 : _) (x3 : _) : Chg F s0 (State.logXfer s x1 x2 x3) := by
  unfold State.logXfer
  repeat' first | with_reducible exact Sub.trans (by assumption) (by decide) | intro _ | with_reducible assumption | with_reducible apply chg_logTile | with_reducible exact chg_of_fst (by assumption) (by assumption) | with_reducible apply chg_ite | simp only [chgMk_iff, id_eq] | (with_reducible apply chgMk_intro rfl <;> first | with_reducible exact .inl (Sub.mem (by assumption) (by decide)) | with_reducible exact .inr rfl | skip) | split

theorem chg_reportXfer {s : State} (h : Chg F s0 s) (hF : Sub [.ctxs, .fns, .evt, .outbox] F) (x1 : _) (x2 : _) (x3 : _) (x4 : _) : Chg F s0 (State.reportXfer s x1 x2 x3 x4) := by
  unfold State.reportXfer
  repeat' first | with_reducible exact Sub.trans (by assumption) (by decide) | intro _ | with_reducible assumption | with_reducible apply chg_modStep | with_reducible apply chg_logXfer | with_reducible exact chg_of_fst (by assumption) (by assumption) | with_reducible apply chg_ite | simp only [chgMk_iff, id_eq] | (with_reducible apply chgMk_intro rfl <;> first | with_reducible exact .inl (Sub.mem (by assumption) (by decide)) | with_reducible exact .inr rfl | skip) | split

theorem chg_dmaHistogram {s : State} (h : Chg F s0 s) (hF : Sub [.ctxs] F) (x1 : _) (x2 : _) : Chg F s0 (State.dmaHistogram s x1 x2) := by
  unfold State.dmaHistogram
  repeat' first | with_reducible exact Sub.trans (by assumption) (by decide) | intro _ | with_reducible assumption | with_reducible apply chg_foldl | with_reducible apply chg_foldl_fst | with_reducible apply chg_modTable | with_reducible exact chg_of_fst (by assumption) (by assumption) | with_reducible apply chg_ite | simp only [chgMk_iff, id_eq] | (with_reducible apply chgMk_intro rfl <;> first | with_reducible exact .inl (Sub.mem (by assumption) (by decide)) | with_reducible exact .inr rfl | skip) | split

theorem chg_endXfer {s : State} (h : Chg F s0 s) (hF : Sub [.ctxs, .fns, .xfers, .evt, .outbox] F) (x1 : _) (x2 : _) (x3 : _) (x4 : _) : Chg F s0 (State.endXfer s x1 x2 x3 x4) := by
  unfold State.endXfer
  repeat' first | with_reducible exact Sub.trans (by assumption) (by decide) | intro _ | with_reducible assumption | with_reducible apply chg_reportXfer | with_reducible apply chg_modXfer | with_reducible exact chg_of_fst (by assumption) (by assumption) | with_reducible apply chg_ite | simp only [chgMk_iff, id_eq] | (with_reducible apply chgMk_intro rfl <;> first | with_reducible exact .inl (Sub.mem (by assumption) (by decide)) | with_reducible exact .inr rfl | skip) | split

theorem chg_foldl_wrote_fst {α β : Type} {f : Wrote × β → α → Wrote × β} {l : List α} {w : Wrote × β} (h : Chg F s0 w.1.st)
    (hf : ∀ w a, Chg F s0 w.1.st → Chg F s0 (f w a).1.st) : Chg F s0 (l.foldl f w).1.st := by
  induction l generalizing w with
  | nil => exact h
  | cons x l ih => exact ih (hf _ _ h)

theorem chg_dmaStore {s : State} (h : Chg F s0 s) (hF : Sub [.fns, .mem, .poison, .hdrs, .hdrPoison, .place, .rsigs, .evt, .outbox] F) (f : Xfer) (g : Grist) (rows : List (List MByte)) (ok : Bool) :
    Chg F s0 (s.dmaStore f g rows ok).st := by
  unfold State.dmaStore
  simp only []
  split
  · refine chg_foldl_wrote_fst ?_ fun _ _ hw => ?_
    · exact h
    · exact chg_putBlock hw (Sub.trans hF (by decide)) _ _ _ _ _
  · refine chg_foldl_wrote ?_ fun _ _ hw => ?_
    · exact h
    · exact chg_putRowCa hw (Sub.trans hF (by decide)) _ _ _ _ _

theorem chg_ledgerRead {s : State} (h : Chg F s0 s) (hF : Sub [.ctxs] F) (x1 : _) (x2 : _) : Chg F s0 (State.ledgerRead s x1 x2) := by
  unfold State.ledgerRead
  repeat' first | with_reducible exact Sub.trans (by assumption) (by decide) | intro _ | with_reducible assumption | with_reducible apply chg_requestAbort | with_reducible exact chg_of_fst (by assumption) (by assumption) | with_reducible apply chg_ite | simp only [chgMk_iff, id_eq] | (with_reducible apply chgMk_intro rfl <;> first | with_reducible exact .inl (Sub.mem (by assumption) (by decide)) | with_reducible exact .inr rfl | skip) | split

theorem chg_dmaMove {s : State} (h : Chg F s0 s) (hF : Sub [.ctxs, .fns, .mem, .poison, .hdrs, .hdrPoison, .place, .mig, .xfers, .contribs, .rsigs, .evt, .outbox] F) (x1 : _) (x2 : _) (x3 : _) (x4 : _) : Chg F s0 (State.dmaMove s x1 x2 x3 x4) := by
  unfold State.dmaMove
  repeat' first | with_reducible exact Sub.trans (by assumption) (by decide) | intro _ | with_reducible assumption | with_reducible apply chg_foldl | with_reducible apply chg_foldl_fst | with_reducible apply chg_endXfer | with_reducible apply chg_unblock | with_reducible apply chg_send | with_reducible apply chg_hostFail | with_reducible apply chg_heatCa | with_reducible apply chg_ledgerRead | with_reducible apply chg_modXfer | with_reducible apply chg_dmaStore | with_reducible apply chg_dmaHistogram | with_reducible apply chg_logXfer | with_reducible apply chg_reportXfer | with_reducible exact chg_of_fst (by assumption) (by assumption) | with_reducible apply chg_ite | simp only [chgMk_iff, id_eq] | (with_reducible apply chgMk_intro rfl <;> first | with_reducible exact .inl (Sub.mem (by assumption) (by decide)) | with_reducible exact .inr rfl | skip) | split

theorem chg_dmaRun {s : State} (h : Chg F s0 s) (hF : Sub [.ctxs, .fns, .mem, .poison, .hdrs, .hdrPoison, .place, .mig, .xfers, .contribs, .rsigs, .evt, .outbox] F) (x1 : _) (x2 : _) (x3 : _) (x4 : _) : Chg F s0 (State.dmaRun s x1 x2 x3 x4) := by
  unfold State.dmaRun
  repeat' first | with_reducible exact Sub.trans (by assumption) (by decide) | intro _ | with_reducible assumption | with_reducible apply chg_dmaMove | with_reducible exact chg_of_fst (by assumption) (by assumption) | with_reducible apply chg_ite | simp only [chgMk_iff, id_eq] | (with_reducible apply chgMk_intro rfl <;> first | with_reducible exact .inl (Sub.mem (by assumption) (by decide)) | with_reducible exact .inr rfl | skip) | split

theorem chg_dmaIssue {s : State} (h : Chg F s0 s) (hF : Sub [.old, .tiles, .ctxs, .fns, .mem, .poison, .mig, .xfers, .evt, .outbox] F) (x1 : _) (x2 : _) (x3 : _) (x4 : _) (x5 : _) : Chg F s0 (State.dmaIssue s x1 x2 x3 x4 x5) := by
  unfold State.dmaIssue
  repeat' first | with_reducible exact Sub.trans (by assumption) (by decide) | intro _ | with_reducible assumption | with_reducible apply chg_issueDesc | with_reducible apply chg_issueXfer | with_reducible exact chg_of_fst (by assumption) (by assumption) | with_reducible apply chg_ite | simp only [chgMk_iff, id_eq] | (with_reducible apply chgMk_intro rfl <;> first | with_reducible exact .inl (Sub.mem (by assumption) (by decide)) | with_reducible exact .inr rfl | skip) | split

theorem chg_putFlit {s : State} (h : Chg F s0 s) (hF : Sub [.ports, .outbox] F) (x1 : _) (x2 : _) (x3 : _) (x4 : _) : Chg F s0 (State.putFlit s x1 x2 x3 x4) := by
  unfold State.putFlit
  repeat' first | with_reducible exact Sub.trans (by assumption) (by decide) | intro _ | with_reducible assumption | with_reducible apply chg_send | with_reducible apply chg_modPort | with_reducible exact chg_of_fst (by assumption) (by assumption) | with_reducible apply chg_ite | simp only [chgMk_iff, id_eq] | (with_reducible apply chgMk_intro rfl <;> first | with_reducible exact .inl (Sub.mem (by assumption) (by decide)) | with_reducible exact .inr rfl | skip) | split

theorem chg_putTransfer {s : State} (h : Chg F s0 s) (hF : Sub [.ports, .outbox] F) (x1 : _) (x2 : _) (x3 : _) (x4 : _) (x5 : _) : Chg F s0 (State.putTransfer s x1 x2 x3 x4 x5) := by
  unfold State.putTransfer
  repeat' first | with_reducible exact Sub.trans (by assumption) (by decide) | intro _ | with_reducible assumption | with_reducible apply chg_foldl | with_reducible apply chg_foldl_fst | with_reducible apply chg_putFlit | with_reducible exact chg_of_fst (by assumption) (by assumption) | with_reducible apply chg_ite | simp only [chgMk_iff, id_eq] | (with_reducible apply chgMk_intro rfl <;> first | with_reducible exact .inl (Sub.mem (by assumption) (by decide)) | with_reducible exact .inr rfl | skip) | split

theorem chg_putControl {s : State} (h : Chg F s0 s) (hF : Sub [.ports, .outbox] F) (x1 : _) (x2 : _) (x3 : _) (x4 : _) : Chg F s0 (State.putControl s x1 x2 x3 x4) := by
  unfold State.putControl
  repeat' first | with_reducible exact Sub.trans (by assumption) (by decide) | intro _ | with_reducible assumption | with_reducible apply chg_putFlit | with_reducible exact chg_of_fst (by assumption) (by assumption) | with_reducible apply chg_ite | simp only [chgMk_iff, id_eq] | (with_reducible apply chgMk_intro rfl <;> first | with_reducible exact .inl (Sub.mem (by assumption) (by decide)) | with_reducible exact .inr rfl | skip) | split

theorem chg_doLinkNak {s : State} (h : Chg F s0 s) (hF : Sub [.ports, .outbox] F) (x0 : _) (x1 : _) : Chg F s0 (doLinkNak x0 x1 s) := by
  unfold doLinkNak
  repeat' first | with_reducible exact Sub.trans (by assumption) (by decide) | intro _ | with_reducible assumption | with_reducible apply chg_foldl | with_reducible apply chg_foldl_fst | with_reducible apply chg_send | with_reducible apply chg_modPort | with_reducible exact chg_of_fst (by assumption) (by assumption) | with_reducible apply chg_ite | simp only [chgMk_iff, id_eq] | (with_reducible apply chgMk_intro rfl <;> first | with_reducible exact .inl (Sub.mem (by assumption) (by decide)) | with_reducible exact .inr rfl | skip) | split

theorem chg_linkMove {s : State} (h : Chg F s0 s) (hF : Sub [.ctxs, .fns, .place, .mig, .xfers, .ports, .evt, .outbox] F) (x1 : _) (x2 : _) (x3 : _) (x4 : _) : Chg F s0 (State.linkMove s x1 x2 x3 x4) := by
  unfold State.linkMove
  repeat' first | with_reducible exact Sub.trans (by assumption) (by decide) | intro _ | with_reducible assumption | with_reducible apply chg_foldl | with_reducible apply chg_foldl_fst | with_reducible apply chg_modXfer | with_reducible apply chg_modPort | with_reducible apply chg_countWait | with_reducible apply chg_send | with_reducible apply chg_hostFail | with_reducible apply chg_heatCa | with_reducible apply chg_putTransfer | with_reducible apply chg_reportXfer | with_reducible apply chg_markHigh | with_reducible exact chg_of_fst (by assumption) (by assumption) | with_reducible apply chg_ite | simp only [chgMk_iff, id_eq] | (with_reducible apply chgMk_intro rfl <;> first | with_reducible exact .inl (Sub.mem (by assumption) (by decide)) | with_reducible exact .inr rfl | skip) | split

theorem chg_doNotPosted {s : State} (h : Chg F s0 s) (hF : Sub [.xfers] F) (x0 : _) (x1 : _) : Chg F s0 (doNotPosted x0 x1 s) := by
  unfold doNotPosted
  repeat' first | with_reducible exact Sub.trans (by assumption) (by decide) | intro _ | with_reducible assumption | with_reducible apply chg_foldl | with_reducible apply chg_foldl_fst | with_reducible apply chg_modXfer | with_reducible exact chg_of_fst (by assumption) (by assumption) | with_reducible apply chg_ite | simp only [chgMk_iff, id_eq] | (with_reducible apply chgMk_intro rfl <;> first | with_reducible exact .inl (Sub.mem (by assumption) (by decide)) | with_reducible exact .inr rfl | skip) | split

theorem chg_scalarTry {s : State} (h : Chg F s0 s) (hF : Sub [.old, .mem, .poison, .board] F) (c d : Nat) : ∀ t, s.scalarTry c d = some t → Chg F s0 t := by
  intro t e
  unfold State.scalarTry at e
  simp only [] at e
  split at e
  · cases e; exact chg_up_board (chg_wrClk h (Sub.trans hF (by decide)) _ _) (hF _ (by decide)) _
  · cases e

theorem chg_reduceRun {s : State} (h : Chg F s0 s) (hF : Sub [.old, .ctxs, .fns, .mem, .poison, .ports, .board, .evt, .outbox] F) (t c : Nat) (st : Stream) (d : Nat) (x : InFlight) :
    Chg F s0 (s.reduceRun t c st d x).st := by
  unfold State.reduceRun
  simp only []
  have hp : Chg F s0 (if s.poisoned (32 * dfield d 128 32) (4 * scalarCount d) = true then s.metPoison t c st x else (s, x)).1 := by
    split
    · exact chg_metPoison h (Sub.trans hF (by decide)) _ _ _ _
    · exact h
  split
  · exact chg_scalarTry (chg_up_board (chg_foldl hp fun _ _ hb => chg_putFlit hb (Sub.trans hF (by decide)) _ _ _ _) (hF _ (by decide)) _) (Sub.trans hF (by decide)) _ _ _ (by assumption)
  · exact chg_up_board (chg_foldl hp fun _ _ hb => chg_putFlit hb (Sub.trans hF (by decide)) _ _ _ _) (hF _ (by decide)) _

theorem chg_doScalarReceive {s : State} (h : Chg F s0 s) (hF : Sub [.old, .tiles, .mem, .poison, .board] F) (p c tag n : Nat) (l : List F32) : Chg F s0 (doScalarReceive p c tag n l s) := by
  unfold doScalarReceive
  simp only []
  split
  · exact h
  · refine chg_ite h ?_
    split
    · exact chg_up_board h (hF _ (by decide)) _
    · split
      · exact chg_modSeq (chg_scalarTry (chg_up_board h (hF _ (by decide)) _) (Sub.trans hF (by decide)) _ _ _ (by assumption)) (Sub.trans hF (by decide)) _ _ _
      · exact chg_up_board h (hF _ (by decide)) _

theorem chg_postStore {s : State} (h : Chg F s0 s) (hF : Sub [.fns, .mem, .poison, .hdrs, .hdrPoison, .place, .rsigs, .evt, .outbox] F) (f : Xfer) (data : List (List MByte)) : Chg F s0 (s.postStore f data).st := by
  unfold State.postStore
  simp only []
  refine chg_foldl_wrote ?_ fun _ _ hw => ?_
  · exact h
  · exact chg_putRowCa hw (Sub.trans hF (by decide)) _ _ _ _ _

theorem chg_postMove {s : State} (h : Chg F s0 s) (hF : Sub [.ctxs, .fns, .mem, .poison, .hdrs, .hdrPoison, .place, .mig, .xfers, .rsigs, .ports, .evt, .outbox] F) (x1 : _) (x2 : _) : Chg F s0 (State.postMove s x1 x2) := by
  unfold State.postMove
  repeat' first | with_reducible exact Sub.trans (by assumption) (by decide) | intro _ | with_reducible assumption | with_reducible apply chg_foldl | with_reducible apply chg_foldl_fst | with_reducible apply chg_countWait | with_reducible apply chg_modXfer | with_reducible apply chg_unblock | with_reducible apply chg_modPort | with_reducible apply chg_postStore | with_reducible apply chg_heatCa | with_reducible apply chg_logXfer | with_reducible apply chg_endXfer | with_reducible apply chg_reportXfer | with_reducible exact chg_of_fst (by assumption) (by assumption) | with_reducible apply chg_ite | simp only [chgMk_iff, id_eq] | (with_reducible apply chgMk_intro rfl <;> first | with_reducible exact .inl (Sub.mem (by assumption) (by decide)) | with_reducible exact .inr rfl | skip) | split

theorem chg_keepFlit {s : State} (h : Chg F s0 s) (hF : Sub [.ports] F) (x1 : _) (x2 : _) : Chg F s0 (State.keepFlit s x1 x2) := by
  unfold State.keepFlit
  repeat' first | with_reducible exact Sub.trans (by assumption) (by decide) | intro _ | with_reducible assumption | with_reducible apply chg_modPort | with_reducible exact chg_of_fst (by assumption) (by assumption) | with_reducible apply chg_ite | simp only [chgMk_iff, id_eq] | (with_reducible apply chgMk_intro rfl <;> first | with_reducible exact .inl (Sub.mem (by assumption) (by decide)) | with_reducible exact .inr rfl | skip) | split

theorem chg_dataFlit {s : State} (h : Chg F s0 s) (hF : Sub [.old, .tiles, .ctxs, .fns, .mem, .poison, .xfers, .ports, .evt, .outbox] F) (x1 : _) (x2 : _) : Chg F s0 (State.dataFlit s x1 x2) := by
  unfold State.dataFlit
  repeat' first | with_reducible exact Sub.trans (by assumption) (by decide) | intro _ | with_reducible assumption | with_reducible apply chg_send | with_reducible apply chg_modPort | with_reducible apply chg_keepFlit | with_reducible apply chg_modXfer | with_reducible apply chg_progFault | with_reducible exact chg_of_fst (by assumption) (by assumption) | with_reducible apply chg_ite | simp only [chgMk_iff, id_eq] | (with_reducible apply chgMk_intro rfl <;> first | with_reducible exact .inl (Sub.mem (by assumption) (by decide)) | with_reducible exact .inr rfl | skip) | split

theorem chg_ledgerFlit {s : State} (h : Chg F s0 s) (hF : Sub [.mem, .poison, .contribs, .ports] F) (x1 : _) (x2 : _) : Chg F s0 (State.ledgerFlit s x1 x2) := by
  unfold State.ledgerFlit
  repeat' first | with_reducible exact Sub.trans (by assumption) (by decide) | intro _ | with_reducible assumption | with_reducible apply chg_keepFlit | with_reducible apply chg_modPort | with_reducible exact chg_of_fst (by assumption) (by assumption) | with_reducible apply chg_ite | simp only [chgMk_iff, id_eq] | (with_reducible apply chgMk_intro rfl <;> first | with_reducible exact .inl (Sub.mem (by assumption) (by decide)) | with_reducible exact .inr rfl | skip) | split

theorem chg_controlFlit {s : State} (h : Chg F s0 s) (hF : Sub [.board] F) (x1 : _) : Chg F s0 (State.controlFlit s x1) := by
  unfold State.controlFlit
  repeat' first | with_reducible exact Sub.trans (by assumption) (by decide) | intro _ | with_reducible assumption | with_reducible exact chg_of_fst (by assumption) (by assumption) | with_reducible apply chg_ite | simp only [chgMk_iff, id_eq] | (with_reducible apply chgMk_intro rfl <;> first | with_reducible exact .inl (Sub.mem (by assumption) (by decide)) | with_reducible exact .inr rfl | skip) | split

theorem chg_takeoverFlit {s : State} (h : Chg F s0 s) (hF : Sub [.fns, .mem, .poison, .hdrs, .hdrPoison, .place, .board, .evt, .outbox] F) (x1 : _) : Chg F s0 (State.takeoverFlit s x1) := by
  unfold State.takeoverFlit
  repeat' first | with_reducible exact Sub.trans (by assumption) (by decide) | intro _ | with_reducible assumption | with_reducible apply chg_wrCa | with_reducible apply chg_wrEngine | with_reducible exact chg_of_fst (by assumption) (by assumption) | with_reducible apply chg_ite | simp only [chgMk_iff, id_eq] | (with_reducible apply chgMk_intro rfl <;> first | with_reducible exact .inl (Sub.mem (by assumption) (by decide)) | with_reducible exact .inr rfl | skip) | split

theorem chg_doFlitReceive {s : State} (h : Chg F s0 s) (hF : Sub [.old, .tiles, .ctxs, .fns, .mem, .poison, .hdrs, .hdrPoison, .place, .xfers, .contribs, .ports, .board, .evt, .outbox] F) (x0 : _) (x1 : _) : Chg F s0 (doFlitReceive x0 x1 s) := by
  unfold doFlitReceive
  repeat' first | with_reducible exact Sub.trans (by assumption) (by decide) | intro _ | with_reducible assumption | with_reducible apply chg_send | with_reducible apply chg_modPort | with_reducible apply chg_dataFlit | with_reducible apply chg_ledgerFlit | with_reducible apply chg_controlFlit | with_reducible apply chg_takeoverFlit | with_reducible exact chg_of_fst (by assumption) (by assumption) | with_reducible apply chg_ite | simp only [chgMk_iff, id_eq] | (with_reducible apply chgMk_intro rfl <;> first | with_reducible exact .inl (Sub.mem (by assumption) (by decide)) | with_reducible exact .inr rfl | skip) | split

theorem chg_putShadow {s : State} (h : Chg F s0 s) (hF : Sub [.cfg] F) (x1 : _) (x2 : _) : Chg F s0 (State.putShadow s x1 x2) := by
  unfold State.putShadow
  repeat' first | with_reducible exact Sub.trans (by assumption) (by decide) | intro _ | with_reducible assumption | with_reducible exact chg_of_fst (by assumption) (by assumption) | with_reducible apply chg_ite | simp only [chgMk_iff, id_eq] | (with_reducible apply chgMk_intro rfl <;> first | with_reducible exact .inl (Sub.mem (by assumption) (by decide)) | with_reducible exact .inr rfl | skip) | split

theorem chg_setShadow {s : State} (h : Chg F s0 s) (hF : Sub [.cfg] F) (x1 : _) (x2 : _) : Chg F s0 (State.setShadow s x1 x2) := by
  unfold State.setShadow
  repeat' first | with_reducible exact Sub.trans (by assumption) (by decide) | intro _ | with_reducible assumption | with_reducible exact chg_of_fst (by assumption) (by assumption) | with_reducible apply chg_ite | simp only [chgMk_iff, id_eq] | (with_reducible apply chgMk_intro rfl <;> first | with_reducible exact .inl (Sub.mem (by assumption) (by decide)) | with_reducible exact .inr rfl | skip) | split

theorem chg_shadowTake {s : State} (h : Chg F s0 s) (hF : Sub [.cfg] F) : Chg F s0 (State.shadowTake s) := by
  unfold State.shadowTake
  repeat' first | with_reducible exact Sub.trans (by assumption) (by decide) | intro _ | with_reducible assumption | with_reducible exact chg_of_fst (by assumption) (by assumption) | with_reducible apply chg_ite | simp only [chgMk_iff, id_eq] | (with_reducible apply chgMk_intro rfl <;> first | with_reducible exact .inl (Sub.mem (by assumption) (by decide)) | with_reducible exact .inr rfl | skip) | split

theorem chg_applyGroup {s : State} (h : Chg F s0 s) (hF : Sub [.cfg] F) (x1 : _) : Chg F s0 (State.applyGroup s x1) := by
  unfold State.applyGroup
  repeat' first | with_reducible exact Sub.trans (by assumption) (by decide) | intro _ | with_reducible assumption | with_reducible apply chg_foldl | with_reducible apply chg_foldl_fst | with_reducible exact chg_of_fst (by assumption) (by assumption) | with_reducible apply chg_ite | simp only [chgMk_iff, id_eq] | (with_reducible apply chgMk_intro rfl <;> first | with_reducible exact .inl (Sub.mem (by assumption) (by decide)) | with_reducible exact .inr rfl | skip) | split

theorem chg_keepRef {s : State} (h : Chg F s0 s) (hF : Sub [.cfg, .rwiNew] F) (x1 : _) : Chg F s0 (State.keepRef s x1) := by
  unfold State.keepRef
  repeat' first | with_reducible exact Sub.trans (by assumption) (by decide) | intro _ | with_reducible assumption | with_reducible apply chg_rwiSet | with_reducible exact chg_of_fst (by assumption) (by assumption) | with_reducible apply chg_ite | simp only [chgMk_iff, id_eq] | (with_reducible apply chgMk_intro rfl <;> first | with_reducible exact .inl (Sub.mem (by assumption) (by decide)) | with_reducible exact .inr rfl | skip) | split

theorem chg_applyGroups {s : State} (h : Chg F s0 s) (hF : Sub [.beat, .cfg, .hub] F) (x1 : _) (x2 : _) : Chg F s0 (State.applyGroups s x1 x2) := by
  unfold State.applyGroups
  repeat' first | with_reducible exact Sub.trans (by assumption) (by decide) | intro _ | with_reducible assumption | with_reducible apply chg_foldl | with_reducible apply chg_foldl_fst | with_reducible apply chg_applyGroup | with_reducible exact chg_of_fst (by assumption) (by assumption) | with_reducible apply chg_ite | simp only [chgMk_iff, id_eq] | (with_reducible apply chgMk_intro rfl <;> first | with_reducible exact .inl (Sub.mem (by assumption) (by decide)) | with_reducible exact .inr rfl | skip) | split

theorem chg_maltsterSet {s : State} (h : Chg F s0 s) (hF : Sub [.beat, .cfg, .rwiNew, .hub] F) (x1 : _) : Chg F s0 (State.maltsterSet s x1) := by
  unfold State.maltsterSet
  repeat' first | with_reducible exact Sub.trans (by assumption) (by decide) | intro _ | with_reducible assumption | with_reducible apply chg_foldl | with_reducible apply chg_foldl_fst | with_reducible apply chg_setShadow | with_reducible apply chg_keepRef | with_reducible apply chg_applyGroups | with_reducible exact chg_of_fst (by assumption) (by assumption) | with_reducible apply chg_ite | simp only [chgMk_iff, id_eq] | (with_reducible apply chgMk_intro rfl <;> first | with_reducible exact .inl (Sub.mem (by assumption) (by decide)) | with_reducible exact .inr rfl | skip) | split

theorem chg_doCfgStrobe {s : State} (h : Chg F s0 s) (hF : Sub [.cfg] F) (x0 : _) : Chg F s0 (doCfgStrobe x0 s) := by
  unfold doCfgStrobe
  repeat' first | with_reducible exact Sub.trans (by assumption) (by decide) | intro _ | with_reducible assumption | with_reducible exact chg_of_fst (by assumption) (by assumption) | with_reducible apply chg_ite | simp only [chgMk_iff, id_eq] | (with_reducible apply chgMk_intro rfl <;> first | with_reducible exact .inl (Sub.mem (by assumption) (by decide)) | with_reducible exact .inr rfl | skip) | split

theorem chg_arm {s : State} (h : Chg F s0 s) (hF : Sub [.cfg] F) (x1 : _) (x2 : _) (x3 : _) : Chg F s0 (State.arm s x1 x2 x3) := by
  unfold State.arm
  repeat' first | with_reducible exact Sub.trans (by assumption) (by decide) | intro _ | with_reducible assumption | with_reducible exact chg_of_fst (by assumption) (by assumption) | with_reducible apply chg_ite | simp only [chgMk_iff, id_eq] | (with_reducible apply chgMk_intro rfl <;> first | with_reducible exact .inl (Sub.mem (by assumption) (by decide)) | with_reducible exact .inr rfl | skip) | split

theorem chg_doCfgStrobeAt {s : State} (h : Chg F s0 s) (hF : Sub [.cfg] F) (x0 : _) (x1 : _) : Chg F s0 (doCfgStrobeAt x0 x1 s) := by
  unfold doCfgStrobeAt
  repeat' first | with_reducible exact Sub.trans (by assumption) (by decide) | intro _ | with_reducible assumption | with_reducible apply chg_arm | with_reducible exact chg_of_fst (by assumption) (by assumption) | with_reducible apply chg_ite | simp only [chgMk_iff, id_eq] | (with_reducible apply chgMk_intro rfl <;> first | with_reducible exact .inl (Sub.mem (by assumption) (by decide)) | with_reducible exact .inr rfl | skip) | split

theorem chg_armDue {s : State} (h : Chg F s0 s) (hF : Sub [.cfg] F) : Chg F s0 (State.armDue s) := by
  unfold State.armDue
  repeat' first | with_reducible exact Sub.trans (by assumption) (by decide) | intro _ | with_reducible assumption | with_reducible apply chg_foldl | with_reducible apply chg_foldl_fst | with_reducible exact chg_of_fst (by assumption) (by assumption) | with_reducible apply chg_ite | simp only [chgMk_iff, id_eq] | (with_reducible apply chgMk_intro rfl <;> first | with_reducible exact .inl (Sub.mem (by assumption) (by decide)) | with_reducible exact .inr rfl | skip) | split

theorem chg_doStrobeAtApply {s : State} (h : Chg F s0 s) (hF : Sub [.beat, .cfg, .rwiNew, .hub] F) : Chg F s0 (doStrobeAtApply s) := by
  unfold doStrobeAtApply
  repeat' first | with_reducible exact Sub.trans (by assumption) (by decide) | intro _ | with_reducible assumption | with_reducible apply chg_foldl | with_reducible apply chg_foldl_fst | with_reducible apply chg_applyGroups | with_reducible apply chg_keepRef | with_reducible exact chg_of_fst (by assumption) (by assumption) | with_reducible apply chg_ite | simp only [chgMk_iff, id_eq] | (with_reducible apply chgMk_intro rfl <;> first | with_reducible exact .inl (Sub.mem (by assumption) (by decide)) | with_reducible exact .inr rfl | skip) | split

theorem chg_draw {s : State} (h : Chg F s0 s) (hF : Sub [.arbs] F) (x1 : _) (x2 : _) (x3 : _) : Chg F s0 (State.draw s x1 x2 x3) := by
  unfold State.draw
  repeat' first | with_reducible exact Sub.trans (by assumption) (by decide) | intro _ | with_reducible assumption | with_reducible apply chg_modArb | with_reducible exact chg_of_fst (by assumption) (by assumption) | with_reducible apply chg_ite | simp only [chgMk_iff, id_eq] | (with_reducible apply chgMk_intro rfl <;> first | with_reducible exact .inl (Sub.mem (by assumption) (by decide)) | with_reducible exact .inr rfl | skip) | split

theorem chg_portDraw {s : State} (h : Chg F s0 s) (hF : Sub [.arbs] F) (x1 : _) (x2 : _) (x3 : _) : Chg F s0 (State.portDraw s x1 x2 x3) := by
  unfold State.portDraw
  repeat' first | with_reducible exact Sub.trans (by assumption) (by decide) | intro _ | with_reducible assumption | with_reducible apply chg_modArb | with_reducible apply chg_draw | with_reducible exact chg_of_fst (by assumption) (by assumption) | with_reducible apply chg_ite | simp only [chgMk_iff, id_eq] | (with_reducible apply chgMk_intro rfl <;> first | with_reducible exact .inl (Sub.mem (by assumption) (by decide)) | with_reducible exact .inr rfl | skip) | split

theorem chg_withdraw {s : State} (h : Chg F s0 s) (hF : Sub [.arbs] F) (x1 : _) : Chg F s0 (State.withdraw s x1) := by
  unfold State.withdraw
  repeat' first | with_reducible exact Sub.trans (by assumption) (by decide) | intro _ | with_reducible assumption | with_reducible exact chg_of_fst (by assumption) (by assumption) | with_reducible apply chg_ite | simp only [chgMk_iff, id_eq] | (with_reducible apply chgMk_intro rfl <;> first | with_reducible exact .inl (Sub.mem (by assumption) (by decide)) | with_reducible exact .inr rfl | skip) | split

theorem chg_doArbPreempt {s : State} (h : Chg F s0 s) (hF : Sub [.arbs] F) (x0 : _) (x1 : _) : Chg F s0 (doArbPreempt x0 x1 s) := by
  unfold doArbPreempt
  repeat' first | with_reducible exact Sub.trans (by assumption) (by decide) | intro _ | with_reducible assumption | with_reducible apply chg_draw | with_reducible apply chg_modArb | with_reducible exact chg_of_fst (by assumption) (by assumption) | with_reducible apply chg_ite | simp only [chgMk_iff, id_eq] | (with_reducible apply chgMk_intro rfl <;> first | with_reducible exact .inl (Sub.mem (by assumption) (by decide)) | with_reducible exact .inr rfl | skip) | split

theorem chg_compareGroup {s : State} (h : Chg F s0 s) (hF : Sub [.cfg, .ctxs, .fns, .evt, .outbox] F) (f : State → State) (n : Nat) (hf : ∀ s, Chg F s0 s → Chg F s0 (f s)) :
    Chg F s0 (compareGroup f s n) := by
  unfold compareGroup
  simp only []
  refine chg_ite (chg_up_cfg h (hF _ (by decide)) _) ?_
  refine chg_ite (hf _ ?_) ?_ <;>
    refine chg_ite (chg_abortAll ?_ (Sub.trans hF (by decide)) _ _) ?_ <;>
    exact chg_ite (chg_logEvent (chg_up_cfg (chg_up_cfg h (hF _ (by decide)) _) (hF _ (by decide)) _) (Sub.trans hF (by decide)) _ _ _ _ _ _ _) (chg_up_cfg h (hF _ (by decide)) _)

theorem chg_joinDraw {s : State} (h : Chg F s0 s) (hF : Sub [.arbs] F) (x1 : _) (x2 : _) (x3 : _) : Chg F s0 (State.joinDraw s x1 x2 x3) := by
  unfold State.joinDraw
  repeat' first | with_reducible exact Sub.trans (by assumption) (by decide) | intro _ | with_reducible assumption | with_reducible apply chg_modArb | with_reducible exact chg_of_fst (by assumption) (by assumption) | with_reducible apply chg_ite | simp only [chgMk_iff, id_eq] | (with_reducible apply chgMk_intro rfl <;> first | with_reducible exact .inl (Sub.mem (by assumption) (by decide)) | with_reducible exact .inr rfl | skip) | split

theorem chg_handReg {s : State} (h : Chg F s0 s) (hF : Sub [.mig, .xfers] F) (x1 : _) (x2 : _) (x3 : _) (x4 : _) (x5 : _) : Chg F s0 (State.handReg s x1 x2 x3 x4 x5).1 := by
  unfold State.handReg
  repeat' first | with_reducible exact Sub.trans (by assumption) (by decide) | intro _ | with_reducible assumption | with_reducible apply chg_register | with_reducible exact chg_of_fst (by assumption) (by assumption) | with_reducible apply chg_ite | simp only [chgMk_iff, id_eq] | (with_reducible apply chgMk_intro rfl <;> first | with_reducible exact .inl (Sub.mem (by assumption) (by decide)) | with_reducible exact .inr rfl | skip) | split

theorem chg_meWork {s : State} (h : Chg F s0 s) (hF : Sub [.tiles, .ctxs, .fns, .evt, .outbox] F) (x1 : _) (x2 : _) (x3 : _) (x4 : _) : Chg F s0 (State.meWork s x1 x2 x3 x4).1 := by
  unfold State.meWork
  repeat' first | with_reducible exact Sub.trans (by assumption) (by decide) | intro _ | with_reducible assumption | with_reducible apply chg_runMm | with_reducible exact chg_of_fst (by assumption) (by assumption) | with_reducible apply chg_ite | simp only [chgMk_iff, id_eq] | (with_reducible apply chgMk_intro rfl <;> first | with_reducible exact .inl (Sub.mem (by assumption) (by decide)) | with_reducible exact .inr rfl | skip) | split

theorem chg_vcWork {s : State} (h : Chg F s0 s) (hF : Sub [.tiles, .ctxs, .fns, .mem, .poison, .place, .mig, .xfers, .evt, .outbox] F) (x1 : _) (x2 : _) (x3 : _) (x4 : _) : Chg F s0 (State.vcWork s x1 x2 x3 x4).1 := by
  unfold State.vcWork
  repeat' first | with_reducible exact Sub.trans (by assumption) (by decide) | intro _ | with_reducible assumption | with_reducible apply chg_runChain | with_reducible apply chg_takeTag | with_reducible exact chg_of_fst (by assumption) (by assumption) | with_reducible apply chg_ite | simp only [chgMk_iff, id_eq] | (with_reducible apply chgMk_intro rfl <;> first | with_reducible exact .inl (Sub.mem (by assumption) (by decide)) | with_reducible exact .inr rfl | skip) | split

theorem chg_zeroWork {s : State} (h : Chg F s0 s) (hF : Sub [.tiles] F) (x1 : _) (x2 : _) : Chg F s0 (State.zeroWork s x1 x2).1 := by
  unfold State.zeroWork
  repeat' first | with_reducible exact Sub.trans (by assumption) (by decide) | intro _ | with_reducible assumption | with_reducible apply chg_modTile | with_reducible exact chg_of_fst (by assumption) (by assumption) | with_reducible apply chg_ite | simp only [chgMk_iff, id_eq] | (with_reducible apply chgMk_intro rfl <;> first | with_reducible exact .inl (Sub.mem (by assumption) (by decide)) | with_reducible exact .inr rfl | skip) | split

theorem chg_doWork {s : State} (h : Chg F s0 s) (hF : Sub [.old, .tiles, .mem] F) (t : Nat) (st : Stream) (x : InFlight) (f : State → State × InFlight)
    (hf : ∀ s, Chg F s0 s → Chg F s0 (f s).1) : Chg F s0 (s.doWork t st x f) := by
  unfold State.doWork
  exact chg_modSeq (chg_afterAll _ (hf _ (chg_asBefore h (Sub.trans hF (by decide)))) (Sub.trans hF (by decide)) _) (Sub.trans hF (by decide)) _ _ _

theorem chg_granted {s : State} (h : Chg F s0 s) (hF : Sub [.old, .arbs, .tiles, .ctxs, .fns, .mem, .poison, .place, .mig, .xfers, .evt, .outbox] F) (x1 : _) (x2 : _) (x3 : _) : Chg F s0 (State.granted s x1 x2 x3) := by
  unfold State.granted
  repeat' first | with_reducible exact Sub.trans (by assumption) (by decide) | intro _ | with_reducible assumption | with_reducible apply chg_modArb | with_reducible apply chg_doWork | with_reducible apply chg_meWork | with_reducible apply chg_vcWork | with_reducible apply chg_modSeq | with_reducible exact chg_of_fst (by assumption) (by assumption) | with_reducible apply chg_ite | simp only [chgMk_iff, id_eq] | (with_reducible apply chgMk_intro rfl <;> first | with_reducible exact .inl (Sub.mem (by assumption) (by decide)) | with_reducible exact .inr rfl | skip) | split

theorem chg_serveUnit {s : State} (h : Chg F s0 s) (hF : Sub [.old, .arbs, .tiles, .ctxs, .fns, .mem, .poison, .place, .mig, .xfers, .evt, .outbox] F) (x1 : _) (x2 : _) : Chg F s0 (State.serveUnit s x1 x2) := by
  unfold State.serveUnit
  repeat' first | with_reducible exact Sub.trans (by assumption) (by decide) | intro _ | with_reducible assumption | with_reducible apply chg_draw | with_reducible apply chg_granted | with_reducible exact chg_of_fst (by assumption) (by assumption) | with_reducible apply chg_ite | simp only [chgMk_iff, id_eq] | (with_reducible apply chgMk_intro rfl <;> first | with_reducible exact .inl (Sub.mem (by assumption) (by decide)) | with_reducible exact .inr rfl | skip) | split

theorem chg_serveBank {s : State} (h : Chg F s0 s) (hF : Sub [.old, .tiles, .mem] F) (x1 : _) (x2 : _) : Chg F s0 (State.serveBank s x1 x2) := by
  unfold State.serveBank
  repeat' first | with_reducible exact Sub.trans (by assumption) (by decide) | intro _ | with_reducible assumption | with_reducible apply chg_doWork | with_reducible apply chg_zeroWork | with_reducible apply chg_modSeq | with_reducible exact chg_of_fst (by assumption) (by assumption) | with_reducible apply chg_ite | simp only [chgMk_iff, id_eq] | (with_reducible apply chgMk_intro rfl <;> first | with_reducible exact .inl (Sub.mem (by assumption) (by decide)) | with_reducible exact .inr rfl | skip) | split

theorem chg_settle {s : State} (h : Chg F s0 s) (hF : Sub [.old, .arbs, .tiles, .ctxs, .fns, .mem, .poison, .place, .mig, .xfers, .evt, .outbox] F) (x1 : _) : Chg F s0 (State.settle s x1) := by
  unfold State.settle
  repeat' first | with_reducible exact Sub.trans (by assumption) (by decide) | intro _ | with_reducible assumption | with_reducible apply chg_serveUnit | with_reducible apply chg_serveBank | with_reducible exact chg_of_fst (by assumption) (by assumption) | with_reducible apply chg_ite | simp only [chgMk_iff, id_eq] | (with_reducible apply chgMk_intro rfl <;> first | with_reducible exact .inl (Sub.mem (by assumption) (by decide)) | with_reducible exact .inr rfl | skip) | split

theorem chg_endGrants {s : State} (h : Chg F s0 s) (hF : Sub [.arbs] F) (x1 : _) (x2 : _) (x3 : _) : Chg F s0 (State.endGrants s x1 x2 x3) := by
  unfold State.endGrants
  repeat' first | with_reducible exact Sub.trans (by assumption) (by decide) | intro _ | with_reducible assumption | with_reducible apply chg_modArb | with_reducible exact chg_of_fst (by assumption) (by assumption) | with_reducible apply chg_ite | simp only [chgMk_iff, id_eq] | (with_reducible apply chgMk_intro rfl <;> first | with_reducible exact .inl (Sub.mem (by assumption) (by decide)) | with_reducible exact .inr rfl | skip) | split

theorem chg_unitDraw {s : State} (h : Chg F s0 s) (hF : Sub [.old, .arbs, .tiles, .ctxs, .fns, .mem, .poison, .place, .mig, .xfers, .evt, .outbox] F) (x1 : _) (x2 : _) (x3 : _) : Chg F s0 (State.unitDraw s x1 x2 x3) := by
  unfold State.unitDraw
  repeat' first | with_reducible exact Sub.trans (by assumption) (by decide) | intro _ | with_reducible assumption | with_reducible apply chg_settle | with_reducible apply chg_modArb | with_reducible exact chg_of_fst (by assumption) (by assumption) | with_reducible apply chg_ite | simp only [chgMk_iff, id_eq] | (with_reducible apply chgMk_intro rfl <;> first | with_reducible exact .inl (Sub.mem (by assumption) (by decide)) | with_reducible exact .inr rfl | skip) | split

theorem chg_ask {s : State} (h : Chg F s0 s) (hF : Sub [.arbs] F) (x1 : _) (x2 : _) (x3 : _) (x4 : _) : Chg F s0 (State.ask s x1 x2 x3 x4).st := by
  unfold State.ask
  repeat' first | with_reducible exact Sub.trans (by assumption) (by decide) | intro _ | with_reducible assumption | with_reducible apply chg_joinDraw | with_reducible exact chg_of_fst (by assumption) (by assumption) | with_reducible apply chg_ite | simp only [chgMk_iff, id_eq] | (with_reducible apply chgMk_intro rfl <;> first | with_reducible exact .inl (Sub.mem (by assumption) (by decide)) | with_reducible exact .inr rfl | skip) | split

theorem chg_mmIssue {s : State} (h : Chg F s0 s) (hF : Sub [.old, .arbs, .tiles, .ctxs, .fns, .mem, .poison, .place, .mig, .xfers, .evt, .outbox] F) (x1 : _) (x2 : _) (x3 : _) (x4 : _) : Chg F s0 (State.mmIssue s x1 x2 x3 x4) := by
  unfold State.mmIssue
  repeat' first | with_reducible exact Sub.trans (by assumption) (by decide) | intro _ | with_reducible assumption | with_reducible apply chg_settle | with_reducible apply chg_issueDesc | with_reducible apply chg_ask | with_reducible exact chg_of_fst (by assumption) (by assumption) | with_reducible apply chg_ite | simp only [chgMk_iff, id_eq] | (with_reducible apply chgMk_intro rfl <;> first | with_reducible exact .inl (Sub.mem (by assumption) (by decide)) | with_reducible exact .inr rfl | skip) | split

theorem chg_chainAsk {s : State} (h : Chg F s0 s) (hF : Sub [.arbs, .mig, .xfers] F) (x1 : _) (x2 : _) (x3 : _) (x4 : _) (x5 : _) (x6 : _) : Chg F s0 (State.chainAsk s x1 x2 x3 x4 x5 x6).st := by
  unfold State.chainAsk
  repeat' first | with_reducible exact Sub.trans (by assumption) (by decide) | intro _ | with_reducible assumption | with_reducible apply chg_ask | with_reducible apply chg_handReg | with_reducible exact chg_of_fst (by assumption) (by assumption) | with_reducible apply chg_ite | simp only [chgMk_iff, id_eq] | (with_reducible apply chgMk_intro rfl <;> first | with_reducible exact .inl (Sub.mem (by assumption) (by decide)) | with_reducible exact .inr rfl | skip) | split

theorem chg_dmaGrant {s : State} (h : Chg F s0 s) (hF : Sub [.mig, .xfers] F) (x1 : _) (x2 : _) : Chg F s0 (State.dmaGrant s x1 x2) := by
  unfold State.dmaGrant
  repeat' first | with_reducible exact Sub.trans (by assumption) (by decide) | intro _ | with_reducible assumption | with_reducible apply chg_markHigh | with_reducible apply chg_modXfer | with_reducible apply chg_countWait | with_reducible exact chg_of_fst (by assumption) (by assumption) | with_reducible apply chg_ite | simp only [chgMk_iff, id_eq] | (with_reducible apply chgMk_intro rfl <;> first | with_reducible exact .inl (Sub.mem (by assumption) (by decide)) | with_reducible exact .inr rfl | skip) | split

theorem chg_dmaDraw {s : State} (h : Chg F s0 s) (hF : Sub [.arbs, .mig, .xfers] F) (x1 : _) (x2 : _) : Chg F s0 (State.dmaDraw s x1 x2) := by
  unfold State.dmaDraw
  repeat' first | with_reducible exact Sub.trans (by assumption) (by decide) | intro _ | with_reducible assumption | with_reducible apply chg_modArb | with_reducible apply chg_draw | with_reducible apply chg_dmaGrant | with_reducible exact chg_of_fst (by assumption) (by assumption) | with_reducible apply chg_ite | simp only [chgMk_iff, id_eq] | (with_reducible apply chgMk_intro rfl <;> first | with_reducible exact .inl (Sub.mem (by assumption) (by decide)) | with_reducible exact .inr rfl | skip) | split

theorem chg_doArbDraw {s : State} (h : Chg F s0 s) (hF : Sub [.old, .arbs, .tiles, .ctxs, .fns, .mem, .poison, .place, .mig, .xfers, .evt, .outbox] F) (x0 : _) (x1 : _) (x2 : _) : Chg F s0 (doArbDraw x0 x1 x2 s) := by
  unfold doArbDraw
  repeat' first | with_reducible exact Sub.trans (by assumption) (by decide) | intro _ | with_reducible assumption | with_reducible apply chg_portDraw | with_reducible apply chg_dmaDraw | with_reducible apply chg_unitDraw | with_reducible exact chg_of_fst (by assumption) (by assumption) | with_reducible apply chg_ite | simp only [chgMk_iff, id_eq] | (with_reducible apply chgMk_intro rfl <;> first | with_reducible exact .inl (Sub.mem (by assumption) (by decide)) | with_reducible exact .inr rfl | skip) | split

theorem chg_reply {s : State} (h : Chg F s0 s) (hF : Sub [.fns, .outbox] F) (x1 : _) (x2 : _) (x3 : _) (x4 : _) (x5 : _) : Chg F s0 (State.reply s x1 x2 x3 x4 x5) := by
  unfold State.reply
  repeat' first | with_reducible exact Sub.trans (by assumption) (by decide) | intro _ | with_reducible assumption | with_reducible apply chg_send | with_reducible apply chg_msix | with_reducible apply chg_modFn | with_reducible exact chg_of_fst (by assumption) (by assumption) | with_reducible apply chg_ite | simp only [chgMk_iff, id_eq] | (with_reducible apply chgMk_intro rfl <;> first | with_reducible exact .inl (Sub.mem (by assumption) (by decide)) | with_reducible exact .inr rfl | skip) | split

theorem chg_doneEntry {s : State} (h : Chg F s0 s) (hF : Sub [.fns, .evt, .outbox] F) (x1 : _) (x2 : _) (x3 : _) (x4 : _) : Chg F s0 (State.doneEntry s x1 x2 x3 x4) := by
  unfold State.doneEntry
  repeat' first | with_reducible exact Sub.trans (by assumption) (by decide) | intro _ | with_reducible assumption | with_reducible apply chg_modFn | with_reducible apply chg_logEvent | with_reducible exact chg_of_fst (by assumption) (by assumption) | with_reducible apply chg_ite | simp only [chgMk_iff, id_eq] | (with_reducible apply chgMk_intro rfl <;> first | with_reducible exact .inl (Sub.mem (by assumption) (by decide)) | with_reducible exact .inr rfl | skip) | split

theorem chg_lateReply {s : State} (h : Chg F s0 s) (hF : Sub [.fns, .outbox] F) (x1 : _) (x2 : _) (x3 : _) : Chg F s0 (State.lateReply s x1 x2 x3) := by
  unfold State.lateReply
  repeat' first | with_reducible exact Sub.trans (by assumption) (by decide) | intro _ | with_reducible assumption | with_reducible apply chg_reply | with_reducible exact chg_of_fst (by assumption) (by assumption) | with_reducible apply chg_ite | simp only [chgMk_iff, id_eq] | (with_reducible apply chgMk_intro rfl <;> first | with_reducible exact .inl (Sub.mem (by assumption) (by decide)) | with_reducible exact .inr rfl | skip) | split

theorem chg_freeCkpt {s : State} (h : Chg F s0 s) (hF : Sub [.poison, .cel] F) (x1 : _) (x2 : _) : Chg F s0 (State.freeCkpt s x1 x2) := by
  unfold State.freeCkpt
  repeat' first | with_reducible exact Sub.trans (by assumption) (by decide) | intro _ | with_reducible assumption | with_reducible apply chg_foldl | with_reducible apply chg_foldl_fst | with_reducible exact chg_of_fst (by assumption) (by assumption) | with_reducible apply chg_ite | simp only [chgMk_iff, id_eq] | (with_reducible apply chgMk_intro rfl <;> first | with_reducible exact .inl (Sub.mem (by assumption) (by decide)) | with_reducible exact .inr rfl | skip) | split

theorem chg_endDetached {s : State} (h : Chg F s0 s) (hF : Sub [.fns, .poison, .cel, .evt, .outbox] F) (x1 : _) : Chg F s0 (State.endDetached s x1) := by
  unfold State.endDetached
  repeat' first | with_reducible exact Sub.trans (by assumption) (by decide) | intro _ | with_reducible assumption | with_reducible apply chg_foldl | with_reducible apply chg_foldl_fst | with_reducible apply chg_freeCkpt | with_reducible apply chg_doneEntry | with_reducible exact chg_of_fst (by assumption) (by assumption) | with_reducible apply chg_ite | simp only [chgMk_iff, id_eq] | (with_reducible apply chgMk_intro rfl <;> first | with_reducible exact .inl (Sub.mem (by assumption) (by decide)) | with_reducible exact .inr rfl | skip) | split

theorem chg_accept {s : State} (h : Chg F s0 s) (hF : Sub [.fns] F) (x1 : _) (x2 : _) : Chg F s0 (State.accept s x1 x2) := by
  unfold State.accept
  repeat' first | with_reducible exact Sub.trans (by assumption) (by decide) | intro _ | with_reducible assumption | with_reducible apply chg_modFn | with_reducible exact chg_of_fst (by assumption) (by assumption) | with_reducible apply chg_ite | simp only [chgMk_iff, id_eq] | (with_reducible apply chgMk_intro rfl <;> first | with_reducible exact .inl (Sub.mem (by assumption) (by decide)) | with_reducible exact .inr rfl | skip) | split

theorem chg_lostPost {s : State} (h : Chg F s0 s) (hF : Sub [.fns] F) (x1 : _) : Chg F s0 (State.lostPost s x1) := by
  unfold State.lostPost
  repeat' first | with_reducible exact Sub.trans (by assumption) (by decide) | intro _ | with_reducible assumption | with_reducible apply chg_modFn | with_reducible exact chg_of_fst (by assumption) (by assumption) | with_reducible apply chg_ite | simp only [chgMk_iff, id_eq] | (with_reducible apply chgMk_intro rfl <;> first | with_reducible exact .inl (Sub.mem (by assumption) (by decide)) | with_reducible exact .inr rfl | skip) | split

theorem chg_answer {s : State} (h : Chg F s0 s) (hF : Sub [.fns, .outbox] F) (x1 : _) (x2 : _) (x3 : _) : Chg F s0 (State.answer s x1 x2 x3) := by
  unfold State.answer
  repeat' first | with_reducible exact Sub.trans (by assumption) (by decide) | intro _ | with_reducible assumption | with_reducible apply chg_reply | with_reducible apply chg_modFn | with_reducible exact chg_of_fst (by assumption) (by assumption) | with_reducible apply chg_ite | simp only [chgMk_iff, id_eq] | (with_reducible apply chgMk_intro rfl <;> first | with_reducible exact .inl (Sub.mem (by assumption) (by decide)) | with_reducible exact .inr rfl | skip) | split

theorem chg_serve {s : State} (h : Chg F s0 s) (hF : Sub [.fns, .outbox] F) (x : ReqHdr) (i : CmdInfo) (fs st : List (Option Nat))
    (act : State → State × Ans) (after : State → State) (ha : ∀ s, Chg F s0 s → Chg F s0 (act s).1)
    (hf : ∀ s, Chg F s0 s → Chg F s0 (after s)) : Chg F s0 (s.serve x i fs st act after) := by
  unfold State.serve
  simp only []
  split
  · exact chg_reply h (Sub.trans hF (by decide)) _ _ _ _ _
  · refine chg_ite (hf _ ?_) ?_ <;> exact chg_answer (ha _ h) (Sub.trans hF (by decide)) _ _ _

theorem chg_mgmtCommand {s : State} (h : Chg F s0 s) (hF : Sub [.fns, .evt, .outbox] F) (x : ReqHdr) (i : CmdInfo) (fs st : List (Option Nat))
    (act : State → State × Ans) (after : State → State) (ha : ∀ s, Chg F s0 s → Chg F s0 (act s).1)
    (hf : ∀ s, Chg F s0 s → Chg F s0 (after s)) : Chg F s0 (s.mgmtCommand x i fs st act after) := by
  unfold State.mgmtCommand
  simp only []
  refine chg_ite (chg_reply h (Sub.trans hF (by decide)) _ _ _ _ _) ?_
  have h1 : Chg F s0 (if (s.fn 16).mgmt.isSome then s.modFn 16 (fun x => { x with mgmt := none }) else s) :=
    chg_ite (chg_modFn h (Sub.trans hF (by decide)) _ _) h
  refine chg_ite (chg_reply (chg_logEvent h1 (Sub.trans hF (by decide)) _ _ _ _ _ _ _) (Sub.trans hF (by decide)) _ _ _ _ _)
    (chg_ite (chg_reply h1 (Sub.trans hF (by decide)) _ _ _ _ _) (chg_ite (chg_modFn h1 (Sub.trans hF (by decide)) _ _) ?_))
  exact chg_serve h1 (Sub.trans hF (by decide)) _ _ _ _ _ _ ha hf

theorem chg_command {s : State} (h : Chg F s0 s) (hF : Sub [.fns, .evt, .outbox] F) (x : ReqHdr) (i : CmdInfo) (fs st : List (Option Nat))
    (act : State → State × Ans) (after : State → State) (ha : ∀ s, Chg F s0 s → Chg F s0 (act s).1)
    (hf : ∀ s, Chg F s0 s → Chg F s0 (after s)) : Chg F s0 (s.command x i fs st act after) := by
  unfold State.command
  split
  · exact chg_mgmtCommand h (Sub.trans hF (by decide)) _ _ _ _ _ _ ha hf
  · refine chg_ite h ?_
    split
    · exact chg_lostPost h (Sub.trans hF (by decide)) _
    · refine chg_ite (chg_lostPost h (Sub.trans hF (by decide)) _) (chg_ite (chg_serve h (Sub.trans hF (by decide)) _ _ _ _ _ _ ha hf) h)
    · simp only []
      refine chg_ite (chg_serve (chg_accept h (Sub.trans hF (by decide)) _ _) (Sub.trans hF (by decide)) _ _ _ _ _ _ ha hf) ?_
      exact chg_modFn (chg_accept h (Sub.trans hF (by decide)) _ _) (Sub.trans hF (by decide)) _ _

theorem chg_setLed {s : State} (h : Chg F s0 s) (hF : Sub [.mem, .poison, .place] F) (x1 : _) (x2 : _) (x3 : _) (x4 : _) : Chg F s0 (State.setLed s x1 x2 x3 x4) := by
  unfold State.setLed
  repeat' first | with_reducible exact Sub.trans (by assumption) (by decide) | intro _ | with_reducible assumption | with_reducible apply chg_wrCa | with_reducible exact chg_of_fst (by assumption) (by assumption) | with_reducible apply chg_ite | simp only [chgMk_iff, id_eq] | (with_reducible apply chgMk_intro rfl <;> first | with_reducible exact .inl (Sub.mem (by assumption) (by decide)) | with_reducible exact .inr rfl | skip) | split

theorem chg_setLedState {s : State} (h : Chg F s0 s) (hF : Sub [.mem, .poison, .place] F) (x1 : _) (x2 : _) (x3 : _) (x4 : _) : Chg F s0 (State.setLedState s x1 x2 x3 x4) := by
  unfold State.setLedState
  repeat' first | with_reducible exact Sub.trans (by assumption) (by decide) | intro _ | with_reducible assumption | with_reducible apply chg_setLed | with_reducible exact chg_of_fst (by assumption) (by assumption) | with_reducible apply chg_ite | simp only [chgMk_iff, id_eq] | (with_reducible apply chgMk_intro rfl <;> first | with_reducible exact .inl (Sub.mem (by assumption) (by decide)) | with_reducible exact .inr rfl | skip) | split

theorem chg_sendMirror {s : State} (h : Chg F s0 s) (hF : Sub [.ports, .outbox] F) (x1 : _) (x2 : _) (x3 : _) : Chg F s0 (State.sendMirror s x1 x2 x3) := by
  unfold State.sendMirror
  repeat' first | with_reducible exact Sub.trans (by assumption) (by decide) | intro _ | with_reducible assumption | with_reducible apply chg_putTransfer | with_reducible exact chg_of_fst (by assumption) (by assumption) | with_reducible apply chg_ite | simp only [chgMk_iff, id_eq] | (with_reducible apply chgMk_intro rfl <;> first | with_reducible exact .inl (Sub.mem (by assumption) (by decide)) | with_reducible exact .inr rfl | skip) | split

theorem chg_sendUpdate {s : State} (h : Chg F s0 s) (hF : Sub [.ports, .outbox] F) (x1 : _) (x2 : _) (x3 : _) : Chg F s0 (State.sendUpdate s x1 x2 x3) := by
  unfold State.sendUpdate
  repeat' first | with_reducible exact Sub.trans (by assumption) (by decide) | intro _ | with_reducible assumption | with_reducible apply chg_putControl | with_reducible exact chg_of_fst (by assumption) (by assumption) | with_reducible apply chg_ite | simp only [chgMk_iff, id_eq] | (with_reducible apply chgMk_intro rfl <;> first | with_reducible exact .inl (Sub.mem (by assumption) (by decide)) | with_reducible exact .inr rfl | skip) | split

theorem chg_completeSlice {s : State} (h : Chg F s0 s) (hF : Sub [.mem, .poison, .place, .rsigs, .ports, .outbox] F) (x1 : _) (x2 : _) (x3 : _) : Chg F s0 (State.completeSlice s x1 x2 x3) := by
  unfold State.completeSlice
  repeat' first | with_reducible exact Sub.trans (by assumption) (by decide) | intro _ | with_reducible assumption | with_reducible apply chg_setLedState | with_reducible apply chg_sendMirror | with_reducible exact chg_of_fst (by assumption) (by assumption) | with_reducible apply chg_ite | simp only [chgMk_iff, id_eq] | (with_reducible apply chgMk_intro rfl <;> first | with_reducible exact .inl (Sub.mem (by assumption) (by decide)) | with_reducible exact .inr rfl | skip) | split

theorem chg_dropContrib {s : State} (h : Chg F s0 s) (hF : Sub [.contribs] F) (x1 : _) : Chg F s0 (State.dropContrib s x1) := by
  unfold State.dropContrib
  repeat' first | with_reducible exact Sub.trans (by assumption) (by decide) | intro _ | with_reducible assumption | with_reducible exact chg_of_fst (by assumption) (by assumption) | with_reducible apply chg_ite | simp only [chgMk_iff, id_eq] | (with_reducible apply chgMk_intro rfl <;> first | with_reducible exact .inl (Sub.mem (by assumption) (by decide)) | with_reducible exact .inr rfl | skip) | split

theorem chg_contribDone {s : State} (h : Chg F s0 s) (hF : Sub [.xfers] F) (x1 : _) (x2 : _) : Chg F s0 (State.contribDone s x1 x2) := by
  unfold State.contribDone
  repeat' first | with_reducible exact Sub.trans (by assumption) (by decide) | intro _ | with_reducible assumption | with_reducible apply chg_modXfer | with_reducible exact chg_of_fst (by assumption) (by assumption) | with_reducible apply chg_ite | simp only [chgMk_iff, id_eq] | (with_reducible apply chgMk_intro rfl <;> first | with_reducible exact .inl (Sub.mem (by assumption) (by decide)) | with_reducible exact .inr rfl | skip) | split

theorem chg_ledgerPoison {s : State} (h : Chg F s0 s) (hF : Sub [.ctxs, .fns, .evt, .outbox] F) (x1 : _) (x2 : _) (x3 : _) (x4 : _) : Chg F s0 (State.ledgerPoison s x1 x2 x3 x4) := by
  unfold State.ledgerPoison
  repeat' first | with_reducible exact Sub.trans (by assumption) (by decide) | intro _ | with_reducible assumption | with_reducible apply chg_requestAbort | with_reducible apply chg_logDev | with_reducible exact chg_of_fst (by assumption) (by assumption) | with_reducible apply chg_ite | simp only [chgMk_iff, id_eq] | (with_reducible apply chgMk_intro rfl <;> first | with_reducible exact .inl (Sub.mem (by assumption) (by decide)) | with_reducible exact .inr rfl | skip) | split

theorem chg_combine {s : State} (h : Chg F s0 s) (hF : Sub [.ctxs, .fns, .mem, .poison, .hdrs, .hdrPoison, .place, .mig, .xfers, .contribs, .rsigs, .ports, .evt, .outbox] F) (x1 : _) : Chg F s0 (State.combine s x1) := by
  unfold State.combine
  repeat' first | with_reducible exact Sub.trans (by assumption) (by decide) | intro _ | with_reducible assumption | with_reducible apply chg_ledgerPoison | with_reducible apply chg_contribDone | with_reducible apply chg_dropContrib | with_reducible apply chg_wrEngine | with_reducible apply chg_heatCa | with_reducible apply chg_setLed | with_reducible apply chg_completeSlice | with_reducible exact chg_of_fst (by assumption) (by assumption) | with_reducible apply chg_ite | simp only [chgMk_iff, id_eq] | (with_reducible apply chgMk_intro rfl <;> first | with_reducible exact .inl (Sub.mem (by assumption) (by decide)) | with_reducible exact .inr rfl | skip) | split

theorem chg_combineStaged {s : State} (h : Chg F s0 s) (hF : Sub [.ctxs, .fns, .mem, .poison, .hdrs, .hdrPoison, .place, .mig, .xfers, .contribs, .rsigs, .ports, .evt, .outbox] F) (n c k step : Nat) : Chg F s0 (combineStaged n c k step s) := by
  induction n generalizing s with
  | zero => exact h
  | succ n ih =>
    unfold combineStaged
    split
    · exact h
    · split
      · exact h
      · exact ih (chg_combine (chg_modCtx h (Sub.trans hF (by decide)) _ _) (Sub.trans hF (by decide)) _)

theorem chg_doLedgerContribution {s : State} (h : Chg F s0 s) (hF : Sub [.ctxs, .fns, .mem, .poison, .hdrs, .hdrPoison, .place, .mig, .xfers, .contribs, .rsigs, .ports, .evt, .outbox] F) (x0 : _) (x1 : _) (x2 : _) : Chg F s0 (doLedgerContribution x0 x1 x2 s) := by
  unfold doLedgerContribution
  repeat' first | with_reducible exact Sub.trans (by assumption) (by decide) | intro _ | with_reducible assumption | with_reducible apply chg_foldl | with_reducible apply chg_foldl_fst | with_reducible apply chg_ledgerPoison | with_reducible apply chg_contribDone | with_reducible apply chg_dropContrib | with_reducible apply chg_requestAbort | with_reducible apply chg_logDev | with_reducible apply chg_unblock | with_reducible apply chg_setLed | with_reducible apply chg_combineStaged | with_reducible apply chg_combine | with_reducible apply chg_modStep | with_reducible apply chg_modCtx | with_reducible exact chg_of_fst (by assumption) (by assumption) | with_reducible apply chg_ite | simp only [chgMk_iff, id_eq] | (with_reducible apply chgMk_intro rfl <;> first | with_reducible exact .inl (Sub.mem (by assumption) (by decide)) | with_reducible exact .inr rfl | skip) | split

theorem chg_modUpd {s : State} (h : Chg F s0 s) (hF : Sub [.upds] F) (x1 : _) (x2 : _) : Chg F s0 (State.modUpd s x1 x2) := by
  unfold State.modUpd
  repeat' first | with_reducible exact Sub.trans (by assumption) (by decide) | intro _ | with_reducible assumption | with_reducible exact chg_of_fst (by assumption) (by assumption) | with_reducible apply chg_ite | simp only [chgMk_iff, id_eq] | (with_reducible apply chgMk_intro rfl <;> first | with_reducible exact .inl (Sub.mem (by assumption) (by decide)) | with_reducible exact .inr rfl | skip) | split

theorem chg_pinFor {s : State} (h : Chg F s0 s) (hF : Sub [.place, .upds] F) (x1 : _) (x2 : _) : Chg F s0 (State.pinFor s x1 x2) := by
  unfold State.pinFor
  repeat' first | with_reducible exact Sub.trans (by assumption) (by decide) | intro _ | with_reducible assumption | with_reducible apply chg_modUpd | with_reducible apply chg_modPent | with_reducible exact chg_of_fst (by assumption) (by assumption) | with_reducible apply chg_ite | simp only [chgMk_iff, id_eq] | (with_reducible apply chgMk_intro rfl <;> first | with_reducible exact .inl (Sub.mem (by assumption) (by decide)) | with_reducible exact .inr rfl | skip) | split

theorem chg_updDone {s : State} (h : Chg F s0 s) (hF : Sub [.xfers] F) (x1 : _) (x2 : _) (x3 : _) : Chg F s0 (State.updDone s x1 x2 x3) := by
  unfold State.updDone
  repeat' first | with_reducible exact Sub.trans (by assumption) (by decide) | intro _ | with_reducible assumption | with_reducible apply chg_modXfer | with_reducible exact chg_of_fst (by assumption) (by assumption) | with_reducible apply chg_ite | simp only [chgMk_iff, id_eq] | (with_reducible apply chgMk_intro rfl <;> first | with_reducible exact .inl (Sub.mem (by assumption) (by decide)) | with_reducible exact .inr rfl | skip) | split

theorem chg_updResolve {s : State} (h : Chg F s0 s) (hF : Sub [.ctxs, .mem, .poison, .place, .mig, .xfers, .upds] F) (u : Upd) : ∀ t, s.updResolve u = some t → Chg F s0 t := by
  intro t e
  unfold State.updResolve at e
  simp only [] at e
  split at e
  · cases e
  · split at e
    · cases e
      exact chg_foldl (chg_modUpd h (Sub.trans hF (by decide)) _ _) fun _ _ hb => chg_pinFor hb (Sub.trans hF (by decide)) _ _
    · split at e
      · cases e
      · cases e
        refine chg_updDone (chg_ite (chg_setLedState ?_ (Sub.trans hF (by decide)) _ _ _ _) ?_) (Sub.trans hF (by decide)) _ _ _ <;>
          exact chg_modCtx (chg_foldl (chg_foldl (chg_wrCa (chg_modUpd h (Sub.trans hF (by decide)) _ _) (Sub.trans hF (by decide)) _ _ _ _) fun _ _ hb => chg_pinFor hb (Sub.trans hF (by decide)) _ _)
            fun _ _ hb => chg_requestMove hb (Sub.trans hF (by decide)) _ _ _ _ _) (Sub.trans hF (by decide)) _ _

theorem chg_logDeferFull {s : State} (h : Chg F s0 s) (hF : Sub [.ctxs, .fns, .evt, .outbox] F) (x1 : _) (x2 : _) : Chg F s0 (State.logDeferFull s x1 x2) := by
  unfold State.logDeferFull
  repeat' first | with_reducible exact Sub.trans (by assumption) (by decide) | intro _ | with_reducible assumption | with_reducible apply chg_modStep | with_reducible apply chg_logDev | with_reducible exact chg_of_fst (by assumption) (by assumption) | with_reducible apply chg_ite | simp only [chgMk_iff, id_eq] | (with_reducible apply chgMk_intro rfl <;> first | with_reducible exact .inl (Sub.mem (by assumption) (by decide)) | with_reducible exact .inr rfl | skip) | split

theorem chg_updGo {s : State} (h : Chg F s0 s) (hF : Sub [.ctxs, .fns, .mem, .poison, .place, .mig, .xfers, .upds, .evt, .outbox] F) (u : Upd) : Chg F s0 (s.updGo u).1 := by
  unfold State.updGo
  simp only []
  split
  · exact chg_updResolve (chg_modStep h (Sub.trans hF (by decide)) _ _) (Sub.trans hF (by decide)) _ _ (by assumption)
  · exact chg_logDeferFull (chg_modUpd (chg_modStep h (Sub.trans hF (by decide)) _ _) (Sub.trans hF (by decide)) _ _) (Sub.trans hF (by decide)) _ _

theorem chg_updIssue {s : State} (h : Chg F s0 s) (hF : Sub [.ctxs, .fns, .mem, .poison, .place, .mig, .xfers, .upds, .evt, .outbox] F) (t c : Nat) (st : Stream) (o d : Nat) (x : InFlight) :
    Chg F s0 (s.updIssue t c st o d x).st := by
  unfold State.updIssue
  simp only []
  have hg := fun u => chg_takeTag (F := F) (s0 := s0) (s := { (s.register t c st x o .kiln d).1 with upds := u })
    (chg_up_upds (chg_register h (Sub.trans hF (by decide)) _ _ _ _ _ _ _) (hF _ (by decide)) _) (Sub.trans hF (by decide))
  split
  · exact chg_updGo (hg _ _ _ _ _) (Sub.trans hF (by decide)) _
  · exact hg _ _ _ _ _

theorem chg_tagged {s : State} (h : Chg F s0 s) (hF : Sub [.old, .tiles, .ctxs, .fns, .mem, .poison, .place, .mig, .xfers, .upds, .evt, .outbox] F) (x1 : _) (x2 : _) (x3 : _) (x4 : _) : Chg F s0 (State.tagged s x1 x2 x3 x4) := by
  unfold State.tagged
  repeat' first | with_reducible exact Sub.trans (by assumption) (by decide) | intro _ | with_reducible assumption | with_reducible apply chg_modSeq | with_reducible apply chg_freeTags | with_reducible apply chg_progFault | with_reducible apply chg_updGo | with_reducible exact chg_of_fst (by assumption) (by assumption) | with_reducible apply chg_ite | simp only [chgMk_iff, id_eq] | (with_reducible apply chgMk_intro rfl <;> first | with_reducible exact .inl (Sub.mem (by assumption) (by decide)) | with_reducible exact .inr rfl | skip) | split

theorem chg_doTagGrant {s : State} (h : Chg F s0 s) (hF : Sub [.old, .arbs, .tiles, .ctxs, .fns, .mem, .poison, .place, .mig, .xfers, .upds, .evt, .outbox] F) (t : Nat) (st : Stream) (n : Nat) :
    Chg F s0 (doTagGrant t st n s) := by
  unfold doTagGrant
  split
  · exact chg_tagged (chg_tagGrant h (Sub.trans hF (by decide)) _ _ _ _ (by assumption)) (Sub.trans hF (by decide)) _ _ _ _
  · exact h

theorem chg_doDeferRecordTake {s : State} (h : Chg F s0 s) (hF : Sub [.tiles, .ctxs, .mem, .poison, .place, .mig, .xfers, .upds] F) (c : Nat) : Chg F s0 (doDeferRecordTake c s) := by
  unfold doDeferRecordTake
  split
  · exact h
  · split
    · exact h
    · have ht := chg_updResolve h (Sub.trans hF (by decide)) _ _ (by assumption)
      split
      · exact ht
      · exact chg_modSeq ht (Sub.trans hF (by decide)) _ _ _

theorem chg_noteArrival {s : State} (h : Chg F s0 s) (hF : Sub [.upds] F) (x1 : _) : Chg F s0 (State.noteArrival s x1) := by
  unfold State.noteArrival
  repeat' first | with_reducible exact Sub.trans (by assumption) (by decide) | intro _ | with_reducible assumption | with_reducible apply chg_modUpd | with_reducible exact chg_of_fst (by assumption) (by assumption) | with_reducible apply chg_ite | simp only [chgMk_iff, id_eq] | (with_reducible apply chgMk_intro rfl <;> first | with_reducible exact .inl (Sub.mem (by assumption) (by decide)) | with_reducible exact .inr rfl | skip) | split

theorem chg_deferArrive {s : State} (h : Chg F s0 s) (hF : Sub [.place, .mig, .upds] F) (x1 : _) : Chg F s0 (State.deferArrive s x1) := by
  unfold State.deferArrive
  repeat' first | with_reducible exact Sub.trans (by assumption) (by decide) | intro _ | with_reducible assumption | with_reducible apply chg_foldl | with_reducible apply chg_foldl_fst | with_reducible apply chg_noteArrival | with_reducible apply chg_pinFor | with_reducible apply chg_requestMove | with_reducible exact chg_of_fst (by assumption) (by assumption) | with_reducible apply chg_ite | simp only [chgMk_iff, id_eq] | (with_reducible apply chgMk_intro rfl <;> first | with_reducible exact .inl (Sub.mem (by assumption) (by decide)) | with_reducible exact .inr rfl | skip) | split

theorem chg_torn {s : State} (h : Chg F s0 s) (hF : Sub [.ctxs, .fns, .evt, .outbox] F) (x1 : _) (x2 : _) (x3 : _) : Chg F s0 (State.torn s x1 x2 x3) := by
  unfold State.torn
  repeat' first | with_reducible exact Sub.trans (by assumption) (by decide) | intro _ | with_reducible assumption | with_reducible apply chg_modCtx | with_reducible apply chg_logEvent | with_reducible apply chg_requestAbort | with_reducible exact chg_of_fst (by assumption) (by assumption) | with_reducible apply chg_ite | simp only [chgMk_iff, id_eq] | (with_reducible apply chgMk_intro rfl <;> first | with_reducible exact .inl (Sub.mem (by assumption) (by decide)) | with_reducible exact .inr rfl | skip) | split

theorem chg_slotPoison {s : State} (h : Chg F s0 s) (hF : Sub [.ctxs, .fns, .xfers, .upds, .evt, .outbox] F) (x1 : _) (x2 : _) (x3 : _) : Chg F s0 (State.slotPoison s x1 x2 x3) := by
  unfold State.slotPoison
  repeat' first | with_reducible exact Sub.trans (by assumption) (by decide) | intro _ | with_reducible assumption | with_reducible apply chg_logEvent | with_reducible apply chg_modXfer | with_reducible apply chg_torn | with_reducible apply chg_modUpd | with_reducible exact chg_of_fst (by assumption) (by assumption) | with_reducible apply chg_ite | simp only [chgMk_iff, id_eq] | (with_reducible apply chgMk_intro rfl <;> first | with_reducible exact .inl (Sub.mem (by assumption) (by decide)) | with_reducible exact .inr rfl | skip) | split

theorem chg_kilnPoison {s : State} (h : Chg F s0 s) (hF : Sub [.ctxs, .fns, .xfers, .upds, .evt, .outbox] F) (x1 : _) : Chg F s0 (State.kilnPoison s x1) := by
  unfold State.kilnPoison
  repeat' first | with_reducible exact Sub.trans (by assumption) (by decide) | intro _ | with_reducible assumption | with_reducible apply chg_logEvent | with_reducible apply chg_modXfer | with_reducible apply chg_requestAbort | with_reducible apply chg_modUpd | with_reducible exact chg_of_fst (by assumption) (by assumption) | with_reducible apply chg_ite | simp only [chgMk_iff, id_eq] | (with_reducible apply chgMk_intro rfl <;> first | with_reducible exact .inl (Sub.mem (by assumption) (by decide)) | with_reducible exact .inr rfl | skip) | split

theorem chg_kilnRun {s : State} (h : Chg F s0 s) (hF : Sub [.ctxs, .fns, .mem, .poison, .hdrs, .hdrPoison, .place, .mig, .xfers, .upds, .ports, .evt, .outbox] F) (x1 : _) : Chg F s0 (State.kilnRun s x1) := by
  unfold State.kilnRun
  repeat' first | with_reducible exact Sub.trans (by assumption) (by decide) | intro _ | with_reducible assumption | with_reducible apply chg_foldl | with_reducible apply chg_foldl_fst | with_reducible apply chg_heatCa | with_reducible apply chg_logEvent | with_reducible apply chg_requestAbort | with_reducible apply chg_modUpd | with_reducible apply chg_kilnPoison | with_reducible apply chg_slotPoison | with_reducible apply chg_setLedState | with_reducible apply chg_sendUpdate | with_reducible apply chg_modCtx | with_reducible apply chg_wrEngine | with_reducible exact chg_of_fst (by assumption) (by assumption) | with_reducible apply chg_ite | simp only [chgMk_iff, id_eq] | (with_reducible apply chgMk_intro rfl <;> first | with_reducible exact .inl (Sub.mem (by assumption) (by decide)) | with_reducible exact .inr rfl | skip) | split

theorem chg_doKilnStart {s : State} (h : Chg F s0 s) (hF : Sub [.ctxs, .fns, .mem, .poison, .hdrs, .hdrPoison, .place, .mig, .xfers, .upds, .ports, .evt, .outbox] F) (x0 : _) : Chg F s0 (doKilnStart x0 s) := by
  unfold doKilnStart
  repeat' first | with_reducible exact Sub.trans (by assumption) (by decide) | intro _ | with_reducible assumption | with_reducible apply chg_foldl | with_reducible apply chg_foldl_fst | with_reducible apply chg_kilnRun | with_reducible apply chg_unblock | with_reducible exact chg_of_fst (by assumption) (by assumption) | with_reducible apply chg_ite | simp only [chgMk_iff, id_eq] | (with_reducible apply chgMk_intro rfl <;> first | with_reducible exact .inl (Sub.mem (by assumption) (by decide)) | with_reducible exact .inr rfl | skip) | split

theorem chg_condPack {s : State} (h : Chg F s0 s) (hF : Sub [.fns, .mem, .poison, .hdrs, .hdrPoison, .place, .evt, .outbox] F) (x1 : _) (x2 : _) (x3 : _) (x4 : _) (x5 : _) : Chg F s0 (State.condPack s x1 x2 x3 x4 x5).1 := by
  unfold State.condPack
  repeat' first | with_reducible exact Sub.trans (by assumption) (by decide) | intro _ | with_reducible assumption | with_reducible apply chg_foldl | with_reducible apply chg_foldl_fst | with_reducible apply chg_putRow | with_reducible apply chg_wr | with_reducible apply chg_putBlks | with_reducible apply chg_wrEngine | with_reducible apply chg_putBitmap | with_reducible exact chg_of_fst (by assumption) (by assumption) | with_reducible apply chg_ite | simp only [chgMk_iff, id_eq] | (with_reducible apply chgMk_intro rfl <;> first | with_reducible exact .inl (Sub.mem (by assumption) (by decide)) | with_reducible exact .inr rfl | skip) | split

theorem chg_unpin {s : State} (h : Chg F s0 s) (hF : Sub [.place, .mig, .upds] F) (x1 : _) : Chg F s0 (State.unpin s x1) := by
  unfold State.unpin
  repeat' first | with_reducible exact Sub.trans (by assumption) (by decide) | intro _ | with_reducible assumption | with_reducible apply chg_foldl | with_reducible apply chg_foldl_fst | with_reducible apply chg_deferArrive | with_reducible apply chg_modPent | with_reducible exact chg_of_fst (by assumption) (by assumption) | with_reducible apply chg_ite | simp only [chgMk_iff, id_eq] | (with_reducible apply chgMk_intro rfl <;> first | with_reducible exact .inl (Sub.mem (by assumption) (by decide)) | with_reducible exact .inr rfl | skip) | split

theorem chg_countUpd {s : State} (h : Chg F s0 s) (hF : Sub [.tiles] F) (x1 : _) : Chg F s0 (State.countUpd s x1) := by
  unfold State.countUpd
  repeat' first | with_reducible exact Sub.trans (by assumption) (by decide) | intro _ | with_reducible assumption | with_reducible apply chg_modTile | with_reducible exact chg_of_fst (by assumption) (by assumption) | with_reducible apply chg_ite | simp only [chgMk_iff, id_eq] | (with_reducible apply chgMk_intro rfl <;> first | with_reducible exact .inl (Sub.mem (by assumption) (by decide)) | with_reducible exact .inr rfl | skip) | split

theorem chg_dropUpds {s : State} (h : Chg F s0 s) (hF : Sub [.tiles, .place, .mig, .upds] F) (x1 : _) : Chg F s0 (State.dropUpds s x1) := by
  unfold State.dropUpds
  repeat' first | with_reducible exact Sub.trans (by assumption) (by decide) | intro _ | with_reducible assumption | with_reducible apply chg_foldl | with_reducible apply chg_foldl_fst | with_reducible apply chg_countUpd | with_reducible apply chg_unpin | with_reducible exact chg_of_fst (by assumption) (by assumption) | with_reducible apply chg_ite | simp only [chgMk_iff, id_eq] | (with_reducible apply chgMk_intro rfl <;> first | with_reducible exact .inl (Sub.mem (by assumption) (by decide)) | with_reducible exact .inr rfl | skip) | split

theorem chg_updFinish {s : State} (h : Chg F s0 s) (hF : Sub [.tiles, .mem, .poison, .place, .mig, .xfers, .upds] F) (x1 : _) (x2 : _) : Chg F s0 (State.updFinish s x1 x2) := by
  unfold State.updFinish
  repeat' first | with_reducible exact Sub.trans (by assumption) (by decide) | intro _ | with_reducible assumption | with_reducible apply chg_setLedState | with_reducible apply chg_updDone | with_reducible apply chg_unpin | with_reducible apply chg_modTile | with_reducible apply chg_modUpd | with_reducible exact chg_of_fst (by assumption) (by assumption) | with_reducible apply chg_ite | simp only [chgMk_iff, id_eq] | (with_reducible apply chgMk_intro rfl <;> first | with_reducible exact .inl (Sub.mem (by assumption) (by decide)) | with_reducible exact .inr rfl | skip) | split

theorem chg_updSignal {s : State} (h : Chg F s0 s) (hF : Sub [.rsigs] F) (x1 : _) : Chg F s0 (State.updSignal s x1) := by
  unfold State.updSignal
  repeat' first | with_reducible exact Sub.trans (by assumption) (by decide) | intro _ | with_reducible assumption | with_reducible exact chg_of_fst (by assumption) (by assumption) | with_reducible apply chg_ite | simp only [chgMk_iff, id_eq] | (with_reducible apply chgMk_intro rfl <;> first | with_reducible exact .inl (Sub.mem (by assumption) (by decide)) | with_reducible exact .inr rfl | skip) | split

theorem chg_condRun {s : State} (h : Chg F s0 s) (hF : Sub [.tiles, .ctxs, .fns, .mem, .poison, .hdrs, .hdrPoison, .place, .mig, .xfers, .upds, .rsigs, .evt, .outbox] F) (x1 : _) : Chg F s0 (State.condRun s x1) := by
  unfold State.condRun
  repeat' first | with_reducible exact Sub.trans (by assumption) (by decide) | intro _ | with_reducible assumption | with_reducible apply chg_foldl | with_reducible apply chg_foldl_fst | with_reducible apply chg_heatCa | with_reducible apply chg_slotPoison | with_reducible apply chg_wrEngine | with_reducible apply chg_updFinish | with_reducible apply chg_updSignal | with_reducible apply chg_condPack | with_reducible apply chg_modStep | with_reducible apply chg_modUpd | with_reducible exact chg_of_fst (by assumption) (by assumption) | with_reducible apply chg_ite | simp only [chgMk_iff, id_eq] | (with_reducible apply chgMk_intro rfl <;> first | with_reducible exact .inl (Sub.mem (by assumption) (by decide)) | with_reducible exact .inr rfl | skip) | split

theorem chg_condGo {s : State} (h : Chg F s0 s) (hF : Sub [.tiles, .ctxs, .fns, .mem, .poison, .hdrs, .hdrPoison, .place, .mig, .xfers, .upds, .rsigs, .evt, .outbox] F) (x1 : _) : Chg F s0 (State.condGo s x1) := by
  unfold State.condGo
  repeat' first | with_reducible exact Sub.trans (by assumption) (by decide) | intro _ | with_reducible assumption | with_reducible apply chg_foldl | with_reducible apply chg_foldl_fst | with_reducible apply chg_condRun | with_reducible apply chg_unblock | with_reducible exact chg_of_fst (by assumption) (by assumption) | with_reducible apply chg_ite | simp only [chgMk_iff, id_eq] | (with_reducible apply chgMk_intro rfl <;> first | with_reducible exact .inl (Sub.mem (by assumption) (by decide)) | with_reducible exact .inr rfl | skip) | split

theorem chg_doConditioning {s : State} (h : Chg F s0 s) (hF : Sub [.tiles, .ctxs, .fns, .mem, .poison, .hdrs, .hdrPoison, .place, .mig, .xfers, .upds, .rsigs, .evt, .outbox] F) (x0 : _) : Chg F s0 (doConditioning x0 s) := by
  unfold doConditioning
  repeat' first | with_reducible exact Sub.trans (by assumption) (by decide) | intro _ | with_reducible assumption | with_reducible apply chg_condGo | with_reducible exact chg_of_fst (by assumption) (by assumption) | with_reducible apply chg_ite | simp only [chgMk_iff, id_eq] | (with_reducible apply chgMk_intro rfl <;> first | with_reducible exact .inl (Sub.mem (by assumption) (by decide)) | with_reducible exact .inr rfl | skip) | split

theorem chg_doDeferredRun {s : State} (h : Chg F s0 s) (hF : Sub [.tiles, .ctxs, .fns, .mem, .poison, .hdrs, .hdrPoison, .place, .mig, .xfers, .upds, .rsigs, .ports, .evt, .outbox] F) (x0 : _) : Chg F s0 (doDeferredRun x0 s) := by
  unfold doDeferredRun
  repeat' first | with_reducible exact Sub.trans (by assumption) (by decide) | intro _ | with_reducible assumption | with_reducible apply chg_foldl | with_reducible apply chg_foldl_fst | with_reducible apply chg_unblock | with_reducible apply chg_condRun | with_reducible apply chg_kilnRun | with_reducible exact chg_of_fst (by assumption) (by assumption) | with_reducible apply chg_ite | simp only [chgMk_iff, id_eq] | (with_reducible apply chgMk_intro rfl <;> first | with_reducible exact .inl (Sub.mem (by assumption) (by decide)) | with_reducible exact .inr rfl | skip) | split

theorem chg_doUpdateRerun {s : State} (h : Chg F s0 s) (hF : Sub [.tiles, .ctxs, .mem, .poison, .place, .upds] F) (x0 : _) : Chg F s0 (doUpdateRerun x0 s) := by
  unfold doUpdateRerun
  repeat' first | with_reducible exact Sub.trans (by assumption) (by decide) | intro _ | with_reducible assumption | with_reducible apply chg_requestAbort | with_reducible apply chg_modCtx | with_reducible apply chg_countUpd | with_reducible apply chg_setLedState | with_reducible apply chg_modUpd | with_reducible exact chg_of_fst (by assumption) (by assumption) | with_reducible apply chg_ite | simp only [chgMk_iff, id_eq] | (with_reducible apply chgMk_intro rfl <;> first | with_reducible exact .inl (Sub.mem (by assumption) (by decide)) | with_reducible exact .inr rfl | skip) | split

theorem chg_doLedgerTimeout {s : State} (h : Chg F s0 s) (hF : Sub [.ctxs, .fns, .evt, .outbox] F) (x0 : _) : Chg F s0 (doLedgerTimeout x0 s) := by
  unfold doLedgerTimeout
  repeat' first | with_reducible exact Sub.trans (by assumption) (by decide) | intro _ | with_reducible assumption | with_reducible apply chg_foldl | with_reducible apply chg_foldl_fst | with_reducible apply chg_requestAbort | with_reducible apply chg_logDev | with_reducible exact chg_of_fst (by assumption) (by assumption) | with_reducible apply chg_ite | simp only [chgMk_iff, id_eq] | (with_reducible apply chgMk_intro rfl <;> first | with_reducible exact .inl (Sub.mem (by assumption) (by decide)) | with_reducible exact .inr rfl | skip) | split

theorem chg_doShadowUpdate {s : State} (h : Chg F s0 s) (hF : Sub [.ctxs, .fns, .mem, .poison, .place, .mig, .xfers, .upds, .evt, .outbox] F) (c n d : Nat) : Chg F s0 (doShadowUpdate c n d s) := by
  unfold doShadowUpdate
  simp only []
  refine chg_ite h ?_
  split
  · exact chg_updResolve (chg_up_updsmig h (hF _ (by decide)) (hF _ (by decide)) _ _) (Sub.trans hF (by decide)) _ _ (by assumption)
  · exact chg_logDeferFull (chg_up_updsmig h (hF _ (by decide)) (hF _ (by decide)) _ _) (Sub.trans hF (by decide)) _ _

theorem chg_doMirrorSum {s : State} (h : Chg F s0 s) (hF : Sub [.ctxs, .fns, .mem, .poison, .hdrs, .hdrPoison, .place, .evt, .outbox] F) (x0 : _) (x1 : _) (x2 : _) (x3 : _) (x4 : _) : Chg F s0 (doMirrorSum x0 x1 x2 x3 x4 s) := by
  unfold doMirrorSum
  repeat' first | with_reducible exact Sub.trans (by assumption) (by decide) | intro _ | with_reducible assumption | with_reducible apply chg_requestAbort | with_reducible apply chg_logDev | with_reducible apply chg_wrEngine | with_reducible apply chg_setLed | with_reducible exact chg_of_fst (by assumption) (by assumption) | with_reducible apply chg_ite | simp only [chgMk_iff, id_eq] | (with_reducible apply chgMk_intro rfl <;> first | with_reducible exact .inl (Sub.mem (by assumption) (by decide)) | with_reducible exact .inr rfl | skip) | split

theorem chg_doWeightRebuild {s : State} (h : Chg F s0 s) (hF : Sub [.ctxs, .fns, .mem, .poison, .hdrs, .hdrPoison, .place, .mig, .xfers, .upds, .evt, .outbox] F) (x0 : _) : Chg F s0 (doWeightRebuild x0 s) := by
  unfold doWeightRebuild
  repeat' first | with_reducible exact Sub.trans (by assumption) (by decide) | intro _ | with_reducible assumption | with_reducible apply chg_foldl | with_reducible apply chg_foldl_fst | with_reducible apply chg_unblock | with_reducible apply chg_slotPoison | with_reducible apply chg_condPack | with_reducible apply chg_modStep | with_reducible exact chg_of_fst (by assumption) (by assumption) | with_reducible apply chg_ite | simp only [chgMk_iff, id_eq] | (with_reducible apply chgMk_intro rfl <;> first | with_reducible exact .inl (Sub.mem (by assumption) (by decide)) | with_reducible exact .inr rfl | skip) | split

theorem chg_requestWake {s : State} (h : Chg F s0 s) (hF : Sub [.units, .pwr] F) (x1 : _) : Chg F s0 (State.requestWake s x1) := by
  unfold State.requestWake
  repeat' first | with_reducible exact Sub.trans (by assumption) (by decide) | intro _ | with_reducible assumption | with_reducible apply chg_modUnit | with_reducible exact chg_of_fst (by assumption) (by assumption) | with_reducible apply chg_ite | simp only [chgMk_iff, id_eq] | (with_reducible apply chgMk_intro rfl <;> first | with_reducible exact .inl (Sub.mem (by assumption) (by decide)) | with_reducible exact .inr rfl | skip) | split

theorem chg_shutDown {s : State} (h : Chg F s0 s) (hF : Sub [.units, .pwr] F) (x1 : _) : Chg F s0 (State.shutDown s x1) := by
  unfold State.shutDown
  repeat' first | with_reducible exact Sub.trans (by assumption) (by decide) | intro _ | with_reducible assumption | with_reducible apply chg_modUnit | with_reducible exact chg_of_fst (by assumption) (by assumption) | with_reducible apply chg_ite | simp only [chgMk_iff, id_eq] | (with_reducible apply chgMk_intro rfl <;> first | with_reducible exact .inl (Sub.mem (by assumption) (by decide)) | with_reducible exact .inr rfl | skip) | split

theorem chg_syncPorts {s : State} (h : Chg F s0 s) (hF : Sub [.units, .pwr] F) : Chg F s0 (State.syncPorts s) := by
  unfold State.syncPorts
  repeat' first | with_reducible exact Sub.trans (by assumption) (by decide) | intro _ | with_reducible assumption | with_reducible apply chg_foldl | with_reducible apply chg_foldl_fst | with_reducible apply chg_requestWake | with_reducible apply chg_shutDown | with_reducible exact chg_of_fst (by assumption) (by assumption) | with_reducible apply chg_ite | simp only [chgMk_iff, id_eq] | (with_reducible apply chgMk_intro rfl <;> first | with_reducible exact .inl (Sub.mem (by assumption) (by decide)) | with_reducible exact .inr rfl | skip) | split

theorem chg_grantWakes {s : State} (h : Chg F s0 s) (hF : Sub [.units, .pwr] F) : Chg F s0 (State.grantWakes s) := by
  unfold State.grantWakes
  repeat' first | with_reducible exact Sub.trans (by assumption) (by decide) | intro _ | with_reducible assumption | with_reducible apply chg_foldl | with_reducible apply chg_foldl_fst | with_reducible apply chg_modUnit | with_reducible exact chg_of_fst (by assumption) (by assumption) | with_reducible apply chg_ite | simp only [chgMk_iff, id_eq] | (with_reducible apply chgMk_intro rfl <;> first | with_reducible exact .inl (Sub.mem (by assumption) (by decide)) | with_reducible exact .inr rfl | skip) | split

theorem chg_logUnit {s : State} (h : Chg F s0 s) (hF : Sub [.fns, .evt, .outbox] F) (x1 : _) (x2 : _) : Chg F s0 (State.logUnit s x1 x2) := by
  unfold State.logUnit
  repeat' first | with_reducible exact Sub.trans (by assumption) (by decide) | intro _ | with_reducible assumption | with_reducible apply chg_logEvent | with_reducible exact chg_of_fst (by assumption) (by assumption) | with_reducible apply chg_ite | simp only [chgMk_iff, id_eq] | (with_reducible apply chgMk_intro rfl <;> first | with_reducible exact .inl (Sub.mem (by assumption) (by decide)) | with_reducible exact .inr rfl | skip) | split

theorem chg_inService {s : State} (h : Chg F s0 s) (hF : Sub [.units, .ports] F) (x1 : _) : Chg F s0 (State.inService s x1) := by
  unfold State.inService
  repeat' first | with_reducible exact Sub.trans (by assumption) (by decide) | intro _ | with_reducible assumption | with_reducible apply chg_modUnit | with_reducible apply chg_modPort | with_reducible exact chg_of_fst (by assumption) (by assumption) | with_reducible apply chg_ite | simp only [chgMk_iff, id_eq] | (with_reducible apply chgMk_intro rfl <;> first | with_reducible exact .inl (Sub.mem (by assumption) (by decide)) | with_reducible exact .inr rfl | skip) | split

theorem chg_zeroTile {s : State} (h : Chg F s0 s) (hF : Sub [.mem, .poison] F) (x1 : _) : Chg F s0 (State.zeroTile s x1) := by
  unfold State.zeroTile
  repeat' first | with_reducible exact Sub.trans (by assumption) (by decide) | intro _ | with_reducible assumption | with_reducible apply chg_zero | with_reducible exact chg_of_fst (by assumption) (by assumption) | with_reducible apply chg_ite | simp only [chgMk_iff, id_eq] | (with_reducible apply chgMk_intro rfl <;> first | with_reducible exact .inl (Sub.mem (by assumption) (by decide)) | with_reducible exact .inr rfl | skip) | split

theorem chg_coldTile {s : State} (h : Chg F s0 s) (hF : Sub [.tiles] F) (x1 : _) : Chg F s0 (State.coldTile s x1) := by
  unfold State.coldTile
  repeat' first | with_reducible exact Sub.trans (by assumption) (by decide) | intro _ | with_reducible assumption | with_reducible apply chg_modTile | with_reducible exact chg_of_fst (by assumption) (by assumption) | with_reducible apply chg_ite | simp only [chgMk_iff, id_eq] | (with_reducible apply chgMk_intro rfl <;> first | with_reducible exact .inl (Sub.mem (by assumption) (by decide)) | with_reducible exact .inr rfl | skip) | split

theorem chg_reloadTile {s : State} (h : Chg F s0 s) (hF : Sub [.tiles, .fns, .units, .mem, .poison, .evt, .outbox] F) (x1 : _) : Chg F s0 (State.reloadTile s x1) := by
  unfold State.reloadTile
  repeat' first | with_reducible exact Sub.trans (by assumption) (by decide) | intro _ | with_reducible assumption | with_reducible apply chg_coldTile | with_reducible apply chg_zeroTile | with_reducible apply chg_logUnit | with_reducible apply chg_modUnit | with_reducible exact chg_of_fst (by assumption) (by assumption) | with_reducible apply chg_ite | simp only [chgMk_iff, id_eq] | (with_reducible apply chgMk_intro rfl <;> first | with_reducible exact .inl (Sub.mem (by assumption) (by decide)) | with_reducible exact .inr rfl | skip) | split

theorem chg_poisonFrames {s : State} (h : Chg F s0 s) (hF : Sub [.poison, .place] F) (x1 : _) (x2 : _) : Chg F s0 (State.poisonFrames s x1 x2) := by
  unfold State.poisonFrames
  repeat' first | with_reducible exact Sub.trans (by assumption) (by decide) | intro _ | with_reducible assumption | with_reducible apply chg_foldl | with_reducible apply chg_foldl_fst | with_reducible apply chg_modPent | with_reducible apply chg_markPoison | with_reducible exact chg_of_fst (by assumption) (by assumption) | with_reducible apply chg_ite | simp only [chgMk_iff, id_eq] | (with_reducible apply chgMk_intro rfl <;> first | with_reducible exact .inl (Sub.mem (by assumption) (by decide)) | with_reducible exact .inr rfl | skip) | split

theorem chg_rewritePort {s : State} (h : Chg F s0 s) (hF : Sub [.cfg] F) (x1 : _) : Chg F s0 (State.rewritePort s x1) := by
  unfold State.rewritePort
  repeat' first | with_reducible exact Sub.trans (by assumption) (by decide) | intro _ | with_reducible assumption | with_reducible apply chg_foldl | with_reducible apply chg_foldl_fst | with_reducible apply chg_arm | with_reducible apply chg_setShadow | with_reducible exact chg_of_fst (by assumption) (by assumption) | with_reducible apply chg_ite | simp only [chgMk_iff, id_eq] | (with_reducible apply chgMk_intro rfl <;> first | with_reducible exact .inl (Sub.mem (by assumption) (by decide)) | with_reducible exact .inr rfl | skip) | split

theorem chg_reloadUnit {s : State} (h : Chg F s0 s) (hF : Sub [.cfg, .fns, .units, .poison, .place, .ports, .evt, .outbox] F) (x1 : _) : Chg F s0 (State.reloadUnit s x1) := by
  unfold State.reloadUnit
  repeat' first | with_reducible exact Sub.trans (by assumption) (by decide) | intro _ | with_reducible assumption | with_reducible apply chg_poisonFrames | with_reducible apply chg_rewritePort | with_reducible apply chg_logUnit | with_reducible apply chg_modUnit | with_reducible apply chg_inService | with_reducible exact chg_of_fst (by assumption) (by assumption) | with_reducible apply chg_ite | simp only [chgMk_iff, id_eq] | (with_reducible apply chgMk_intro rfl <;> first | with_reducible exact .inl (Sub.mem (by assumption) (by decide)) | with_reducible exact .inr rfl | skip) | split

theorem chg_wakeKept {s : State} (h : Chg F s0 s) (hF : Sub [.cfg, .fns, .units, .poison, .place, .ports, .evt, .outbox] F) (x1 : _) : Chg F s0 (State.wakeKept s x1) := by
  unfold State.wakeKept
  repeat' first | with_reducible exact Sub.trans (by assumption) (by decide) | intro _ | with_reducible assumption | with_reducible apply chg_inService | with_reducible apply chg_modUnit | with_reducible apply chg_reloadUnit | with_reducible apply chg_advanceEpoch | with_reducible apply chg_logUnit | with_reducible exact chg_of_fst (by assumption) (by assumption) | with_reducible apply chg_ite | simp only [chgMk_iff, id_eq] | (with_reducible apply chgMk_intro rfl <;> first | with_reducible exact .inl (Sub.mem (by assumption) (by decide)) | with_reducible exact .inr rfl | skip) | split

theorem chg_wakeFresh {s : State} (h : Chg F s0 s) (hF : Sub [.units, .ports] F) (x1 : _) : Chg F s0 (State.wakeFresh s x1) := by
  unfold State.wakeFresh
  repeat' first | with_reducible exact Sub.trans (by assumption) (by decide) | intro _ | with_reducible assumption | with_reducible apply chg_modUnit | with_reducible apply chg_inService | with_reducible exact chg_of_fst (by assumption) (by assumption) | with_reducible apply chg_ite | simp only [chgMk_iff, id_eq] | (with_reducible apply chgMk_intro rfl <;> first | with_reducible exact .inl (Sub.mem (by assumption) (by decide)) | with_reducible exact .inr rfl | skip) | split

theorem chg_reachIdle {s : State} (h : Chg F s0 s) (hF : Sub [.units, .mem, .poison, .ports, .pwr] F) (x1 : _) : Chg F s0 (State.reachIdle s x1) := by
  unfold State.reachIdle
  repeat' first | with_reducible exact Sub.trans (by assumption) (by decide) | intro _ | with_reducible assumption | with_reducible apply chg_zeroTile | with_reducible apply chg_modPort | with_reducible apply chg_modUnit | with_reducible apply chg_requestWake | with_reducible exact chg_of_fst (by assumption) (by assumption) | with_reducible apply chg_ite | simp only [chgMk_iff, id_eq] | (with_reducible apply chgMk_intro rfl <;> first | with_reducible exact .inl (Sub.mem (by assumption) (by decide)) | with_reducible exact .inr rfl | skip) | split

theorem chg_doPendingEnable {s : State} (h : Chg F s0 s) (hF : Sub [.ctxs, .fns, .units, .mem, .poison, .ports, .pwr] F) (x0 : _) : Chg F s0 (doPendingEnable x0 s) := by
  unfold doPendingEnable
  repeat' first | with_reducible exact Sub.trans (by assumption) (by decide) | intro _ | with_reducible assumption | with_reducible apply chg_foldl | with_reducible apply chg_foldl_fst | with_reducible apply chg_modCtx | with_reducible apply chg_modFn | with_reducible apply chg_reachIdle | with_reducible exact chg_of_fst (by assumption) (by assumption) | with_reducible apply chg_ite | simp only [chgMk_iff, id_eq] | (with_reducible apply chgMk_intro rfl <;> first | with_reducible exact .inl (Sub.mem (by assumption) (by decide)) | with_reducible exact .inr rfl | skip) | split

theorem chg_setCask {s : State} (h : Chg F s0 s) (hF : Sub [.old, .tiles, .mem, .poison] F) (x1 : _) (x2 : _) : Chg F s0 (State.setCask s x1 x2) := by
  unfold State.setCask
  repeat' first | with_reducible exact Sub.trans (by assumption) (by decide) | intro _ | with_reducible assumption | with_reducible apply chg_foldl | with_reducible apply chg_foldl_fst | with_reducible apply chg_modTile | with_reducible apply chg_wrClk | with_reducible exact chg_of_fst (by assumption) (by assumption) | with_reducible apply chg_ite | simp only [chgMk_iff, id_eq] | (with_reducible apply chgMk_intro rfl <;> first | with_reducible exact .inl (Sub.mem (by assumption) (by decide)) | with_reducible exact .inr rfl | skip) | split

theorem chg_caskStore {s : State} (h : Chg F s0 s) (hF : Sub [.fns, .mem, .poison, .hdrs, .hdrPoison, .place, .mig, .rsigs, .evt, .outbox] F) (x1 : _) (x2 : _) (x3 : _) (x4 : _) (x5 : _) : Chg F s0 (State.caskStore s x1 x2 x3 x4 x5) := by
  unfold State.caskStore
  repeat' first | with_reducible exact Sub.trans (by assumption) (by decide) | intro _ | with_reducible assumption | with_reducible apply chg_foldl | with_reducible apply chg_foldl_fst | with_reducible apply chg_heatCa | with_reducible apply chg_putBlock | with_reducible apply chg_putRowCa | with_reducible exact chg_of_fst (by assumption) (by assumption) | with_reducible apply chg_ite | simp only [chgMk_iff, id_eq] | (with_reducible apply chgMk_intro rfl <;> first | with_reducible exact .inl (Sub.mem (by assumption) (by decide)) | with_reducible exact .inr rfl | skip) | split

theorem chg_caskLoad {s : State} (h : Chg F s0 s) (hF : Sub [.fns, .mem, .poison, .hdrs, .hdrPoison, .place, .mig, .rsigs, .evt, .outbox] F) (x1 : _) (x2 : _) (x3 : _) (x4 : _) (x5 : _) : Chg F s0 (State.caskLoad s x1 x2 x3 x4 x5).1 := by
  unfold State.caskLoad
  repeat' first | with_reducible exact Sub.trans (by assumption) (by decide) | intro _ | with_reducible assumption | with_reducible apply chg_heatCa | with_reducible apply chg_putRowCa | with_reducible apply chg_logTile | with_reducible exact chg_of_fst (by assumption) (by assumption) | with_reducible apply chg_ite | simp only [chgMk_iff, id_eq] | (with_reducible apply chgMk_intro rfl <;> first | with_reducible exact .inl (Sub.mem (by assumption) (by decide)) | with_reducible exact .inr rfl | skip) | split

theorem chg_caskIssue {s : State} (h : Chg F s0 s) (hF : Sub [.old, .tiles, .ctxs, .fns, .mem, .poison, .evt, .outbox] F) (t : Nat) (st : Stream) (k : OpInfo) (w : Insn)
    (body : Nat → Nat → InFlight → State → Ran) (hb : ∀ a b x s, Chg F s0 s → Chg F s0 (body a b x s).st) :
    Chg F s0 (s.caskIssue t st k w body) := by
  unfold State.caskIssue
  refine chg_issue h (Sub.trans hF (by decide)) _ _ _ _ _ _ _ ?_
  intro c x s hs
  split
  · exact hs
  · simp only []
    split
    · exact hs
    · exact hb _ _ _ _ hs

theorem chg_caskPlace {s : State} (h : Chg F s0 s) (hF : Sub [.old, .tiles, .fns, .mem, .poison, .hdrs, .hdrPoison, .place, .mig, .rsigs, .evt, .outbox] F) (x1 : _) (x2 : _) (x3 : _) (x4 : _) (x5 : _) : Chg F s0 (State.caskPlace s x1 x2 x3 x4 x5).1 := by
  unfold State.caskPlace
  repeat' first | with_reducible exact Sub.trans (by assumption) (by decide) | intro _ | with_reducible assumption | with_reducible apply chg_modTile | with_reducible apply chg_setCask | with_reducible apply chg_caskStore | with_reducible exact chg_of_fst (by assumption) (by assumption) | with_reducible apply chg_ite | simp only [chgMk_iff, id_eq] | (with_reducible apply chgMk_intro rfl <;> first | with_reducible exact .inl (Sub.mem (by assumption) (by decide)) | with_reducible exact .inr rfl | skip) | split

theorem chg_endStall {s : State} (h : Chg F s0 s) (hF : Sub [.tiles] F) (x1 : _) (x2 : _) (x3 : _) (x4 : _) : Chg F s0 (State.endStall s x1 x2 x3 x4) := by
  unfold State.endStall
  repeat' first | with_reducible exact Sub.trans (by assumption) (by decide) | intro _ | with_reducible assumption | with_reducible apply chg_modSeq | with_reducible apply chg_modTile | with_reducible exact chg_of_fst (by assumption) (by assumption) | with_reducible apply chg_ite | simp only [chgMk_iff, id_eq] | (with_reducible apply chgMk_intro rfl <;> first | with_reducible exact .inl (Sub.mem (by assumption) (by decide)) | with_reducible exact .inr rfl | skip) | split

theorem chg_doCaskPutRetry {s : State} (h : Chg F s0 s) (hF : Sub [.old, .tiles, .fns, .mem, .poison, .hdrs, .hdrPoison, .place, .mig, .rsigs, .evt, .outbox] F) (x0 : _) (x1 : _) : Chg F s0 (doCaskPutRetry x0 x1 s) := by
  unfold doCaskPutRetry
  repeat' first | with_reducible exact Sub.trans (by assumption) (by decide) | intro _ | with_reducible assumption | with_reducible apply chg_caskPlace | with_reducible apply chg_asBefore | with_reducible apply chg_afterAll | with_reducible apply chg_endStall | with_reducible exact chg_of_fst (by assumption) (by assumption) | with_reducible apply chg_ite | simp only [chgMk_iff, id_eq] | (with_reducible apply chgMk_intro rfl <;> first | with_reducible exact .inl (Sub.mem (by assumption) (by decide)) | with_reducible exact .inr rfl | skip) | split

theorem chg_doCaskFull {s : State} (h : Chg F s0 s) (hF : Sub [.old, .tiles, .ctxs, .fns, .mem, .poison, .evt, .outbox] F) (x0 : _) (x1 : _) : Chg F s0 (doCaskFull x0 x1 s) := by
  unfold doCaskFull
  repeat' first | with_reducible exact Sub.trans (by assumption) (by decide) | intro _ | with_reducible assumption | with_reducible apply chg_endStall | with_reducible apply chg_retire | with_reducible apply chg_logTile | with_reducible apply chg_requestAbort | with_reducible exact chg_of_fst (by assumption) (by assumption) | with_reducible apply chg_ite | simp only [chgMk_iff, id_eq] | (with_reducible apply chgMk_intro rfl <;> first | with_reducible exact .inl (Sub.mem (by assumption) (by decide)) | with_reducible exact .inr rfl | skip) | split

theorem chg_caskAbort {s : State} (h : Chg F s0 s) (hF : Sub [.old, .tiles, .mem, .poison] F) (x1 : _) (x2 : _) : Chg F s0 (State.caskAbort s x1 x2) := by
  unfold State.caskAbort
  repeat' first | with_reducible exact Sub.trans (by assumption) (by decide) | intro _ | with_reducible assumption | with_reducible apply chg_foldl | with_reducible apply chg_foldl_fst | with_reducible apply chg_retire | with_reducible apply chg_endStall | with_reducible apply chg_setCask | with_reducible exact chg_of_fst (by assumption) (by assumption) | with_reducible apply chg_ite | simp only [chgMk_iff, id_eq] | (with_reducible apply chgMk_intro rfl <;> first | with_reducible exact .inl (Sub.mem (by assumption) (by decide)) | with_reducible exact .inr rfl | skip) | split

theorem chg_repin {s : State} (h : Chg F s0 s) (hF : Sub [.place] F) (x1 : _) : Chg F s0 (State.repin s x1) := by
  unfold State.repin
  repeat' first | with_reducible exact Sub.trans (by assumption) (by decide) | intro _ | with_reducible assumption | with_reducible apply chg_foldl | with_reducible apply chg_foldl_fst | with_reducible apply chg_modPent | with_reducible exact chg_of_fst (by assumption) (by assumption) | with_reducible apply chg_ite | simp only [chgMk_iff, id_eq] | (with_reducible apply chgMk_intro rfl <;> first | with_reducible exact .inl (Sub.mem (by assumption) (by decide)) | with_reducible exact .inr rfl | skip) | split

theorem chg_unloadProg {s : State} (h : Chg F s0 s) (hF : Sub [.arbs, .tiles, .ctxs, .place] F) (x1 : _) : Chg F s0 (State.unloadProg s x1) := by
  unfold State.unloadProg
  repeat' first | with_reducible exact Sub.trans (by assumption) (by decide) | intro _ | with_reducible assumption | with_reducible apply chg_foldl | with_reducible apply chg_foldl_fst | with_reducible apply chg_freeUnits | with_reducible apply chg_modTile | with_reducible apply chg_repin | with_reducible apply chg_modCtx | with_reducible exact chg_of_fst (by assumption) (by assumption) | with_reducible apply chg_ite | simp only [chgMk_iff, id_eq] | (with_reducible apply chgMk_intro rfl <;> first | with_reducible exact .inl (Sub.mem (by assumption) (by decide)) | with_reducible exact .inr rfl | skip) | split

theorem chg_keepCounts {s : State} (h : Chg F s0 s) (hF : Sub [.tiles] F) (x1 : _) : Chg F s0 (State.keepCounts s x1) := by
  unfold State.keepCounts
  repeat' first | with_reducible exact Sub.trans (by assumption) (by decide) | intro _ | with_reducible assumption | with_reducible apply chg_foldl | with_reducible apply chg_foldl_fst | with_reducible apply chg_modTile | with_reducible exact chg_of_fst (by assumption) (by assumption) | with_reducible apply chg_ite | simp only [chgMk_iff, id_eq] | (with_reducible apply chgMk_intro rfl <;> first | with_reducible exact .inl (Sub.mem (by assumption) (by decide)) | with_reducible exact .inr rfl | skip) | split

theorem chg_cancelXfers {s : State} (h : Chg F s0 s) (hF : Sub [.arbs, .tiles, .mig, .xfers] F) (x1 : _) : Chg F s0 (State.cancelXfers s x1) := by
  unfold State.cancelXfers
  repeat' first | with_reducible exact Sub.trans (by assumption) (by decide) | intro _ | with_reducible assumption | with_reducible apply chg_freeTags | with_reducible apply chg_withdraw | with_reducible apply chg_keepCounts | with_reducible exact chg_of_fst (by assumption) (by assumption) | with_reducible apply chg_ite | simp only [chgMk_iff, id_eq] | (with_reducible apply chgMk_intro rfl <;> first | with_reducible exact .inl (Sub.mem (by assumption) (by decide)) | with_reducible exact .inr rfl | skip) | split

theorem chg_dropWork {s : State} (h : Chg F s0 s) (hF : Sub [.arbs, .tiles, .place, .mig, .xfers, .upds, .contribs, .rsigs, .heldWrites, .board] F) (x1 : _) : Chg F s0 (State.dropWork s x1) := by
  unfold State.dropWork
  repeat' first | with_reducible exact Sub.trans (by assumption) (by decide) | intro _ | with_reducible assumption | with_reducible apply chg_cancelXfers | with_reducible apply chg_dropUpds | with_reducible exact chg_of_fst (by assumption) (by assumption) | with_reducible apply chg_ite | simp only [chgMk_iff, id_eq] | (with_reducible apply chgMk_intro rfl <;> first | with_reducible exact .inl (Sub.mem (by assumption) (by decide)) | with_reducible exact .inr rfl | skip) | split

theorem chg_unmapRegion {s : State} (h : Chg F s0 s) (hF : Sub [.ctxs, .place, .mig, .cel] F) (x1 : _) (x2 : _) : Chg F s0 (State.unmapRegion s x1 x2) := by
  unfold State.unmapRegion
  repeat' first | with_reducible exact Sub.trans (by assumption) (by decide) | intro _ | with_reducible assumption | with_reducible apply chg_foldl | with_reducible apply chg_foldl_fst | with_reducible apply chg_cancelMoves | with_reducible apply chg_modPent | with_reducible apply chg_modCtx | with_reducible exact chg_of_fst (by assumption) (by assumption) | with_reducible apply chg_ite | simp only [chgMk_iff, id_eq] | (with_reducible apply chgMk_intro rfl <;> first | with_reducible exact .inl (Sub.mem (by assumption) (by decide)) | with_reducible exact .inr rfl | skip) | split

theorem chg_closeCtx {s : State} (h : Chg F s0 s) (hF : Sub [.beat, .arbs, .tiles, .ctxs, .units, .place, .mig, .xfers, .upds, .contribs, .rsigs, .heldWrites, .board, .cel, .pwr] F) (x1 : _) : Chg F s0 (State.closeCtx s x1) := by
  unfold State.closeCtx
  repeat' first | with_reducible exact Sub.trans (by assumption) (by decide) | intro _ | with_reducible assumption | with_reducible apply chg_foldl | with_reducible apply chg_foldl_fst | with_reducible apply chg_dropWork | with_reducible apply chg_unloadProg | with_reducible apply chg_unmapRegion | with_reducible apply chg_modPent | with_reducible apply chg_shutDown | with_reducible apply chg_modTile | with_reducible apply chg_modCtx | with_reducible exact chg_of_fst (by assumption) (by assumption) | with_reducible apply chg_ite | simp only [chgMk_iff, id_eq] | (with_reducible apply chgMk_intro rfl <;> first | with_reducible exact .inl (Sub.mem (by assumption) (by decide)) | with_reducible exact .inr rfl | skip) | split

theorem chg_fnReset {s : State} (h : Chg F s0 s) (hF : Sub [.rwi, .rwiNew, .fns] F) (x1 : _) (x2 : _) : Chg F s0 (State.fnReset s x1 x2) := by
  unfold State.fnReset
  repeat' first | with_reducible exact Sub.trans (by assumption) (by decide) | intro _ | with_reducible assumption | with_reducible apply chg_modFn | with_reducible exact chg_of_fst (by assumption) (by assumption) | with_reducible apply chg_ite | simp only [chgMk_iff, id_eq] | (with_reducible apply chgMk_intro rfl <;> first | with_reducible exact .inl (Sub.mem (by assumption) (by decide)) | with_reducible exact .inr rfl | skip) | split

theorem chg_zeroPools {s : State} (h : Chg F s0 s) (hF : Sub [.mem, .poison] F) (x1 : _) : Chg F s0 (State.zeroPools s x1) := by
  unfold State.zeroPools
  repeat' first | with_reducible exact Sub.trans (by assumption) (by decide) | intro _ | with_reducible assumption | with_reducible apply chg_foldl | with_reducible apply chg_foldl_fst | with_reducible apply chg_zero | with_reducible exact chg_of_fst (by assumption) (by assumption) | with_reducible apply chg_ite | simp only [chgMk_iff, id_eq] | (with_reducible apply chgMk_intro rfl <;> first | with_reducible exact .inl (Sub.mem (by assumption) (by decide)) | with_reducible exact .inr rfl | skip) | split

theorem chg_l2Body {s : State} (h : Chg F s0 s) (hF : Sub [.beat, .rwi, .rwiNew, .arbs, .tiles, .ctxs, .fns, .mem, .poison, .place, .mig, .xfers, .upds, .contribs, .rsigs, .heldWrites, .board, .cel, .evt, .outbox] F) (x1 : _) (x2 : _) (x3 : _) : Chg F s0 (State.l2Body s x1 x2 x3) := by
  unfold State.l2Body
  repeat' first | with_reducible exact Sub.trans (by assumption) (by decide) | intro _ | with_reducible assumption | with_reducible apply chg_foldl | with_reducible apply chg_foldl_fst | with_reducible apply chg_unloadProg | with_reducible apply chg_endDetached | with_reducible apply chg_dropWork | with_reducible apply chg_modTile | with_reducible apply chg_coldTile | with_reducible apply chg_zeroTile | with_reducible apply chg_zeroPools | with_reducible apply chg_modStep | with_reducible apply chg_fnReset | with_reducible apply chg_modFn | with_reducible exact chg_of_fst (by assumption) (by assumption) | with_reducible apply chg_ite | simp only [chgMk_iff, id_eq] | (with_reducible apply chgMk_intro rfl <;> first | with_reducible exact .inl (Sub.mem (by assumption) (by decide)) | with_reducible exact .inr rfl | skip) | split

theorem chg_hostAbort {s : State} (h : Chg F s0 s) (hF : Sub [.ctxs] F) (x1 : _) : Chg F s0 (State.hostAbort s x1) := by
  unfold State.hostAbort
  repeat' first | with_reducible exact Sub.trans (by assumption) (by decide) | intro _ | with_reducible assumption | with_reducible apply chg_modStep | with_reducible apply chg_requestAbort | with_reducible exact chg_of_fst (by assumption) (by assumption) | with_reducible apply chg_ite | simp only [chgMk_iff, id_eq] | (with_reducible apply chgMk_intro rfl <;> first | with_reducible exact .inl (Sub.mem (by assumption) (by decide)) | with_reducible exact .inr rfl | skip) | split

theorem chg_startL2 {s : State} (h : Chg F s0 s) (hF : Sub [.beat, .rwi, .rwiNew, .arbs, .tiles, .ctxs, .fns, .units, .mem, .poison, .place, .mig, .xfers, .upds, .contribs, .rsigs, .heldWrites, .board, .cel, .evt, .outbox] F) (x1 : _) (x2 : _) : Chg F s0 (State.startL2 s x1 x2) := by
  unfold State.startL2
  repeat' first | with_reducible exact Sub.trans (by assumption) (by decide) | intro _ | with_reducible assumption | with_reducible apply chg_logEvent | with_reducible apply chg_advanceEpoch | with_reducible apply chg_logLevel | with_reducible apply chg_modFn | with_reducible apply chg_fnReset | with_reducible apply chg_modCtx | with_reducible apply chg_l2Body | with_reducible apply chg_hostAbort | with_reducible exact chg_of_fst (by assumption) (by assumption) | with_reducible apply chg_ite | simp only [chgMk_iff, id_eq] | (with_reducible apply chgMk_intro rfl <;> first | with_reducible exact .inl (Sub.mem (by assumption) (by decide)) | with_reducible exact .inr rfl | skip) | split

theorem chg_requestL4 {s : State} (h : Chg F s0 s) (hF : Sub [.fns, .evt, .outbox] F) (x1 : _) : Chg F s0 (State.requestL4 s x1) := by
  unfold State.requestL4
  repeat' first | with_reducible exact Sub.trans (by assumption) (by decide) | intro _ | with_reducible assumption | with_reducible apply chg_logDev | with_reducible exact chg_of_fst (by assumption) (by assumption) | with_reducible apply chg_ite | simp only [chgMk_iff, id_eq] | (with_reducible apply chgMk_intro rfl <;> first | with_reducible exact .inl (Sub.mem (by assumption) (by decide)) | with_reducible exact .inr rfl | skip) | split

theorem chg_slotFail {s : State} (h : Chg F s0 s) (hF : Sub [.fns, .evt, .outbox] F) (x1 : _) (x2 : _) : Chg F s0 (State.slotFail s x1 x2) := by
  unfold State.slotFail
  repeat' first | with_reducible exact Sub.trans (by assumption) (by decide) | intro _ | with_reducible assumption | with_reducible apply chg_logDev | with_reducible exact chg_of_fst (by assumption) (by assumption) | with_reducible apply chg_ite | simp only [chgMk_iff, id_eq] | (with_reducible apply chgMk_intro rfl <;> first | with_reducible exact .inl (Sub.mem (by assumption) (by decide)) | with_reducible exact .inr rfl | skip) | split

theorem chg_enterRecovery {s : State} (h : Chg F s0 s) (hF : Sub [.boot] F) : Chg F s0 (State.enterRecovery s) := by
  unfold State.enterRecovery
  repeat' first | with_reducible exact Sub.trans (by assumption) (by decide) | intro _ | with_reducible assumption | with_reducible exact chg_of_fst (by assumption) (by assumption) | with_reducible apply chg_ite | simp only [chgMk_iff, id_eq] | (with_reducible apply chgMk_intro rfl <;> first | with_reducible exact .inl (Sub.mem (by assumption) (by decide)) | with_reducible exact .inr rfl | skip) | split

theorem chg_revert {s : State} (h : Chg F s0 s) (hF : Sub [.fns, .evt, .boot, .outbox] F) : Chg F s0 (State.revert s) := by
  unfold State.revert
  repeat' first | with_reducible exact Sub.trans (by assumption) (by decide) | intro _ | with_reducible assumption | with_reducible apply chg_logDev | with_reducible exact chg_of_fst (by assumption) (by assumption) | with_reducible apply chg_ite | simp only [chgMk_iff, id_eq] | (with_reducible apply chgMk_intro rfl <;> first | with_reducible exact .inl (Sub.mem (by assumption) (by decide)) | with_reducible exact .inr rfl | skip) | split

theorem chg_pickBundle {s : State} (h : Chg F s0 s) (hF : Sub [.fns, .evt, .boot, .outbox] F) : Chg F s0 (State.pickBundle s) := by
  unfold State.pickBundle
  repeat' first | with_reducible exact Sub.trans (by assumption) (by decide) | intro _ | with_reducible assumption | with_reducible apply chg_enterRecovery | with_reducible apply chg_logDev | with_reducible apply chg_slotFail | with_reducible apply chg_revert | with_reducible exact chg_of_fst (by assumption) (by assumption) | with_reducible apply chg_ite | simp only [chgMk_iff, id_eq] | (with_reducible apply chgMk_intro rfl <;> first | with_reducible exact .inl (Sub.mem (by assumption) (by decide)) | with_reducible exact .inr rfl | skip) | split

theorem chg_setMode {s : State} (h : Chg F s0 s) (hF : Sub [.hub] F) (x1 : _) : Chg F s0 (State.setMode s x1) := by
  unfold State.setMode
  repeat' first | with_reducible exact Sub.trans (by assumption) (by decide) | intro _ | with_reducible assumption | with_reducible exact chg_of_fst (by assumption) (by assumption) | with_reducible apply chg_ite | simp only [chgMk_iff, id_eq] | (with_reducible apply chgMk_intro rfl <;> first | with_reducible exact .inl (Sub.mem (by assumption) (by decide)) | with_reducible exact .inr rfl | skip) | split

theorem chg_bootRegs {s : State} (h : Chg F s0 s) (hF : Sub [.beat, .cfg, .rwiNew, .hub, .pwr] F) : Chg F s0 (State.bootRegs s) := by
  unfold State.bootRegs
  repeat' first | with_reducible exact Sub.trans (by assumption) (by decide) | intro _ | with_reducible assumption | with_reducible apply chg_foldl | with_reducible apply chg_foldl_fst | with_reducible apply chg_maltsterSet | with_reducible apply chg_keepRef | with_reducible exact chg_of_fst (by assumption) (by assumption) | with_reducible apply chg_ite | simp only [chgMk_iff, id_eq] | (with_reducible apply chgMk_intro rfl <;> first | with_reducible exact .inl (Sub.mem (by assumption) (by decide)) | with_reducible exact .inr rfl | skip) | split

theorem chg_measure {s : State} (h : Chg F s0 s) (hF : Sub [.boot] F) : Chg F s0 (State.measure s) := by
  unfold State.measure
  repeat' first | with_reducible exact Sub.trans (by assumption) (by decide) | intro _ | with_reducible assumption | with_reducible exact chg_of_fst (by assumption) (by assumption) | with_reducible apply chg_ite | simp only [chgMk_iff, id_eq] | (with_reducible apply chgMk_intro rfl <;> first | with_reducible exact .inl (Sub.mem (by assumption) (by decide)) | with_reducible exact .inr rfl | skip) | split

theorem chg_bootUp {s : State} (h : Chg F s0 s) (hF : Sub [.beat, .cfg, .rwiNew, .hub, .fns, .evt, .boot, .pwr, .outbox] F) : Chg F s0 (State.bootUp s) := by
  have h1 := chg_up_evt (chg_pickBundle h (Sub.trans hF (by decide))) (hF _ (by decide)) { s.pickBundle.evt with since := s.pickBundle.beat.now }
  have h2 := chg_bootRegs (chg_measure h1 (Sub.trans hF (by decide))) (Sub.trans hF (by decide))
  unfold State.bootUp
  refine chg_ite h1 ?_
  exact chg_setMode (chg_up_hub (chg_up_pwr h2 (hF _ (by decide)) _) (hF _ (by decide)) _) (Sub.trans hF (by decide)) _

theorem chg_l3Mem {s : State} (h : Chg F s0 s) (hF : Sub [.mem, .poison, .hdrs, .hdrPoison] F) (x1 : _) : Chg F s0 (State.l3Mem s x1) := by
  unfold State.l3Mem
  repeat' first | with_reducible exact Sub.trans (by assumption) (by decide) | intro _ | with_reducible assumption | with_reducible exact chg_of_fst (by assumption) (by assumption) | with_reducible apply chg_ite | simp only [chgMk_iff, id_eq] | (with_reducible apply chgMk_intro rfl <;> first | with_reducible exact .inl (Sub.mem (by assumption) (by decide)) | with_reducible exact .inr rfl | skip) | split

theorem chg_dropSeals {s : State} (h : Chg F s0 s) (hF : Sub [.poison, .cel] F) : Chg F s0 (State.dropSeals s) := by
  unfold State.dropSeals
  repeat' first | with_reducible exact Sub.trans (by assumption) (by decide) | intro _ | with_reducible assumption | with_reducible apply chg_foldl | with_reducible apply chg_foldl_fst | with_reducible apply chg_freeCkpt | with_reducible exact chg_of_fst (by assumption) (by assumption) | with_reducible apply chg_ite | simp only [chgMk_iff, id_eq] | (with_reducible apply chgMk_intro rfl <;> first | with_reducible exact .inl (Sub.mem (by assumption) (by decide)) | with_reducible exact .inr rfl | skip) | split

theorem chg_wipeL3 {s : State} (h : Chg F s0 s) (hF : Sub [.beat, .cfg, .rwi, .rwiNew, .old, .hub, .arbs, .tiles, .ctxs, .fns, .hports, .units, .mem, .poison, .hdrs, .hdrPoison, .place, .mig, .ras, .xfers, .upds, .contribs, .rsigs, .heldWrites, .ports, .board, .cel, .evt, .boot, .pwr, .outbox] F) (x1 : _) (x2 : _) : Chg F s0 (State.wipeL3 s x1 x2) := by
  unfold State.wipeL3
  repeat' first | with_reducible exact Sub.trans (by assumption) (by decide) | intro _ | with_reducible assumption | with_reducible apply chg_foldl | with_reducible apply chg_foldl_fst | with_reducible apply chg_dropSeals | with_reducible apply chg_cancelMoves | with_reducible apply chg_unloadProg | with_reducible apply chg_freeGranules | with_reducible apply chg_l3Mem | with_reducible apply chg_advanceEpoch | with_reducible exact chg_of_fst (by assumption) (by assumption) | with_reducible apply chg_ite | simp only [chgMk_iff, id_eq] | (with_reducible apply chgMk_intro rfl <;> first | with_reducible exact .inl (Sub.mem (by assumption) (by decide)) | with_reducible exact .inr rfl | skip) | split

theorem chg_endL3 {s : State} (h : Chg F s0 s) (hF : Sub [.beat, .cfg, .rwiNew, .hub, .fns, .evt, .boot, .pwr, .outbox] F) : Chg F s0 (State.endL3 s) := by
  unfold State.endL3
  repeat' first | with_reducible exact Sub.trans (by assumption) (by decide) | intro _ | with_reducible assumption | with_reducible apply chg_bootUp | with_reducible exact chg_of_fst (by assumption) (by assumption) | with_reducible apply chg_ite | simp only [chgMk_iff, id_eq] | (with_reducible apply chgMk_intro rfl <;> first | with_reducible exact .inl (Sub.mem (by assumption) (by decide)) | with_reducible exact .inr rfl | skip) | split

theorem chg_startL3 {s : State} (h : Chg F s0 s) (hF : Sub [.beat, .cfg, .rwi, .rwiNew, .old, .hub, .arbs, .tiles, .ctxs, .fns, .hports, .units, .mem, .poison, .hdrs, .hdrPoison, .place, .mig, .ras, .xfers, .upds, .contribs, .rsigs, .heldWrites, .ports, .board, .cel, .evt, .boot, .pwr, .outbox] F) (x1 : _) (x2 : _) (x3 : _) : Chg F s0 (State.startL3 s x1 x2 x3) := by
  unfold State.startL3
  repeat' first | with_reducible exact Sub.trans (by assumption) (by decide) | intro _ | with_reducible assumption | with_reducible apply chg_logLevel | with_reducible apply chg_revert | with_reducible apply chg_wipeL3 | with_reducible apply chg_requestL4 | with_reducible apply chg_endL3 | with_reducible exact chg_of_fst (by assumption) (by assumption) | with_reducible apply chg_ite | simp only [chgMk_iff, id_eq] | (with_reducible apply chgMk_intro rfl <;> first | with_reducible exact .inl (Sub.mem (by assumption) (by decide)) | with_reducible exact .inr rfl | skip) | split

theorem chg_takeL3 {s : State} (h : Chg F s0 s) (hF : Sub [.beat, .cfg, .rwi, .rwiNew, .old, .hub, .arbs, .tiles, .ctxs, .fns, .hports, .units, .mem, .poison, .hdrs, .hdrPoison, .place, .mig, .ras, .xfers, .upds, .contribs, .rsigs, .heldWrites, .ports, .board, .cel, .evt, .boot, .pwr, .outbox] F) (x1 : _) : Chg F s0 (State.takeL3 s x1) := by
  unfold State.takeL3
  repeat' first | with_reducible exact Sub.trans (by assumption) (by decide) | intro _ | with_reducible assumption | with_reducible apply chg_startL3 | with_reducible exact chg_of_fst (by assumption) (by assumption) | with_reducible apply chg_ite | simp only [chgMk_iff, id_eq] | (with_reducible apply chgMk_intro rfl <;> first | with_reducible exact .inl (Sub.mem (by assumption) (by decide)) | with_reducible exact .inr rfl | skip) | split

theorem chg_doWatchdog {s : State} (h : Chg F s0 s) (hF : Sub [.fns, .board, .evt, .outbox] F) : Chg F s0 (doWatchdog s) := by
  unfold doWatchdog
  repeat' first | with_reducible exact Sub.trans (by assumption) (by decide) | intro _ | with_reducible assumption | with_reducible apply chg_logDev | with_reducible exact chg_of_fst (by assumption) (by assumption) | with_reducible apply chg_ite | simp only [chgMk_iff, id_eq] | (with_reducible apply chgMk_intro rfl <;> first | with_reducible exact .inl (Sub.mem (by assumption) (by decide)) | with_reducible exact .inr rfl | skip) | split

theorem chg_doLevelL3 {s : State} (h : Chg F s0 s) (hF : Sub [.beat, .cfg, .rwi, .rwiNew, .old, .hub, .arbs, .tiles, .ctxs, .fns, .hports, .units, .mem, .poison, .hdrs, .hdrPoison, .place, .mig, .ras, .xfers, .upds, .contribs, .rsigs, .heldWrites, .ports, .board, .cel, .evt, .boot, .pwr, .outbox] F) (x0 : _) : Chg F s0 (doLevelL3 x0 s) := by
  unfold doLevelL3
  repeat' first | with_reducible exact Sub.trans (by assumption) (by decide) | intro _ | with_reducible assumption | with_reducible apply chg_whenLive | with_reducible apply chg_takeL3 | with_reducible apply chg_logEvent | with_reducible exact chg_of_fst (by assumption) (by assumption) | with_reducible apply chg_ite | simp only [chgMk_iff, id_eq] | (with_reducible apply chgMk_intro rfl <;> first | with_reducible exact .inl (Sub.mem (by assumption) (by decide)) | with_reducible exact .inr rfl | skip) | split

theorem chg_acted {s : State} (h : Chg F s0 s) (hF : Sub [.board] F) (x1 : _) (x2 : _) (x3 : _) (x4 : _) : Chg F s0 (State.acted s x1 x2 x3 x4) := by
  unfold State.acted
  repeat' first | with_reducible exact Sub.trans (by assumption) (by decide) | intro _ | with_reducible assumption | with_reducible exact chg_of_fst (by assumption) (by assumption) | with_reducible apply chg_ite | simp only [chgMk_iff, id_eq] | (with_reducible apply chgMk_intro rfl <;> first | with_reducible exact .inl (Sub.mem (by assumption) (by decide)) | with_reducible exact .inr rfl | skip) | split

theorem chg_openStep {s : State} (h : Chg F s0 s) (hF : Sub [.tiles, .ctxs] F) (x1 : _) : Chg F s0 (State.openStep s x1) := by
  unfold State.openStep
  repeat' first | with_reducible exact Sub.trans (by assumption) (by decide) | intro _ | with_reducible assumption | with_reducible apply chg_foldl | with_reducible apply chg_foldl_fst | with_reducible apply chg_modStep | with_reducible apply chg_modTile | with_reducible exact chg_of_fst (by assumption) (by assumption) | with_reducible apply chg_ite | simp only [chgMk_iff, id_eq] | (with_reducible apply chgMk_intro rfl <;> first | with_reducible exact .inl (Sub.mem (by assumption) (by decide)) | with_reducible exact .inr rfl | skip) | split

theorem chg_doStepOpen {s : State} (h : Chg F s0 s) (hF : Sub [.tiles, .ctxs, .board] F) (x0 : _) : Chg F s0 (doStepOpen x0 s) := by
  unfold doStepOpen
  repeat' first | with_reducible exact Sub.trans (by assumption) (by decide) | intro _ | with_reducible assumption | with_reducible apply chg_acted | with_reducible apply chg_openStep | with_reducible exact chg_of_fst (by assumption) (by assumption) | with_reducible apply chg_ite | simp only [chgMk_iff, id_eq] | (with_reducible apply chgMk_intro rfl <;> first | with_reducible exact .inl (Sub.mem (by assumption) (by decide)) | with_reducible exact .inr rfl | skip) | split

theorem chg_emptyLedger {s : State} (h : Chg F s0 s) (hF : Sub [.mem, .poison, .place] F) (x1 : _) (x2 : _) : Chg F s0 (State.emptyLedger s x1 x2) := by
  unfold State.emptyLedger
  repeat' first | with_reducible exact Sub.trans (by assumption) (by decide) | intro _ | with_reducible assumption | with_reducible apply chg_foldl | with_reducible apply chg_foldl_fst | with_reducible apply chg_setLedState | with_reducible exact chg_of_fst (by assumption) (by assumption) | with_reducible apply chg_ite | simp only [chgMk_iff, id_eq] | (with_reducible apply chgMk_intro rfl <;> first | with_reducible exact .inl (Sub.mem (by assumption) (by decide)) | with_reducible exact .inr rfl | skip) | split

theorem chg_releaseXfers {s : State} (h : Chg F s0 s) (hF : Sub [.arbs, .tiles, .mig, .xfers] F) (x1 : _) (x2 : _) : Chg F s0 (State.releaseXfers s x1 x2) := by
  unfold State.releaseXfers
  repeat' first | with_reducible exact Sub.trans (by assumption) (by decide) | intro _ | with_reducible assumption | with_reducible apply chg_cancelXfers | with_reducible apply chg_freeTags | with_reducible exact chg_of_fst (by assumption) (by assumption) | with_reducible apply chg_ite | simp only [chgMk_iff, id_eq] | (with_reducible apply chgMk_intro rfl <;> first | with_reducible exact .inl (Sub.mem (by assumption) (by decide)) | with_reducible exact .inr rfl | skip) | split

theorem chg_commitStep {s : State} (h : Chg F s0 s) (hF : Sub [.beat, .old, .arbs, .tiles, .ctxs, .fns, .units, .mem, .poison, .place, .mig, .xfers, .upds, .evt, .boot, .outbox] F) (x1 : _) (x2 : _) : Chg F s0 (State.commitStep s x1 x2) := by
  unfold State.commitStep
  repeat' first | with_reducible exact Sub.trans (by assumption) (by decide) | intro _ | with_reducible assumption | with_reducible apply chg_foldl | with_reducible apply chg_foldl_fst | with_reducible apply chg_emptyLedger | with_reducible apply chg_modCtx | with_reducible apply chg_modTile | with_reducible apply chg_setCask | with_reducible apply chg_releaseXfers | with_reducible apply chg_advanceEpoch | with_reducible apply chg_msix | with_reducible exact chg_of_fst (by assumption) (by assumption) | with_reducible apply chg_ite | simp only [chgMk_iff, id_eq] | (with_reducible apply chgMk_intro rfl <;> first | with_reducible exact .inl (Sub.mem (by assumption) (by decide)) | with_reducible exact .inr rfl | skip) | split

theorem chg_doStepCommit {s : State} (h : Chg F s0 s) (hF : Sub [.beat, .old, .arbs, .tiles, .ctxs, .fns, .units, .mem, .poison, .place, .mig, .xfers, .upds, .board, .evt, .boot, .outbox] F) (x0 : _) : Chg F s0 (doStepCommit x0 s) := by
  unfold doStepCommit
  repeat' first | with_reducible exact Sub.trans (by assumption) (by decide) | intro _ | with_reducible assumption | with_reducible apply chg_acted | with_reducible apply chg_commitStep | with_reducible exact chg_of_fst (by assumption) (by assumption) | with_reducible apply chg_ite | simp only [chgMk_iff, id_eq] | (with_reducible apply chgMk_intro rfl <;> first | with_reducible exact .inl (Sub.mem (by assumption) (by decide)) | with_reducible exact .inr rfl | skip) | split

theorem chg_logTorn {s : State} (h : Chg F s0 s) (hF : Sub [.ctxs, .fns, .evt, .outbox] F) (x1 : _) : Chg F s0 (State.logTorn s x1) := by
  unfold State.logTorn
  repeat' first | with_reducible exact Sub.trans (by assumption) (by decide) | intro _ | with_reducible assumption | with_reducible apply chg_modCtx | with_reducible apply chg_logEvent | with_reducible exact chg_of_fst (by assumption) (by assumption) | with_reducible apply chg_ite | simp only [chgMk_iff, id_eq] | (with_reducible apply chgMk_intro rfl <;> first | with_reducible exact .inl (Sub.mem (by assumption) (by decide)) | with_reducible exact .inr rfl | skip) | split

theorem chg_endWaits {s : State} (h : Chg F s0 s) (hF : Sub [.old, .arbs, .tiles, .mem, .poison] F) (x1 : _) (x2 : _) : Chg F s0 (State.endWaits s x1 x2) := by
  unfold State.endWaits
  repeat' first | with_reducible exact Sub.trans (by assumption) (by decide) | intro _ | with_reducible assumption | with_reducible apply chg_foldl | with_reducible apply chg_foldl_fst | with_reducible apply chg_endGrants | with_reducible apply chg_retire | with_reducible exact chg_of_fst (by assumption) (by assumption) | with_reducible apply chg_ite | simp only [chgMk_iff, id_eq] | (with_reducible apply chgMk_intro rfl <;> first | with_reducible exact .inl (Sub.mem (by assumption) (by decide)) | with_reducible exact .inr rfl | skip) | split

theorem chg_abortTile {s : State} (h : Chg F s0 s) (hF : Sub [.old, .arbs, .tiles, .ctxs, .fns, .mem, .poison, .place, .mig, .xfers, .evt, .outbox] F) (x1 : _) (x2 : _) (x3 : _) : Chg F s0 (State.abortTile s x1 x2 x3) := by
  unfold State.abortTile
  repeat' first | with_reducible exact Sub.trans (by assumption) (by decide) | intro _ | with_reducible assumption | with_reducible apply chg_modTile | with_reducible apply chg_caskAbort | with_reducible apply chg_endWaits | with_reducible apply chg_settle | with_reducible exact chg_of_fst (by assumption) (by assumption) | with_reducible apply chg_ite | simp only [chgMk_iff, id_eq] | (with_reducible apply chgMk_intro rfl <;> first | with_reducible exact .inl (Sub.mem (by assumption) (by decide)) | with_reducible exact .inr rfl | skip) | split

theorem chg_abortWork {s : State} (h : Chg F s0 s) (hF : Sub [.arbs, .tiles, .place, .mig, .xfers, .upds, .contribs, .rsigs, .ports, .board] F) (x1 : _) (x2 : _) : Chg F s0 (State.abortWork s x1 x2) := by
  unfold State.abortWork
  repeat' first | with_reducible exact Sub.trans (by assumption) (by decide) | intro _ | with_reducible assumption | with_reducible apply chg_cancelXfers | with_reducible apply chg_dropUpds | with_reducible exact chg_of_fst (by assumption) (by assumption) | with_reducible apply chg_ite | simp only [chgMk_iff, id_eq] | (with_reducible apply chgMk_intro rfl <;> first | with_reducible exact .inl (Sub.mem (by assumption) (by decide)) | with_reducible exact .inr rfl | skip) | split

theorem chg_abortReplies {s : State} (h : Chg F s0 s) (hF : Sub [.beat, .rwi, .rwiNew, .arbs, .tiles, .ctxs, .fns, .units, .mem, .poison, .place, .mig, .xfers, .upds, .contribs, .rsigs, .heldWrites, .board, .cel, .evt, .pwr, .outbox] F) (x1 : _) (x2 : _) : Chg F s0 (State.abortReplies s x1 x2) := by
  unfold State.abortReplies
  repeat' first | with_reducible exact Sub.trans (by assumption) (by decide) | intro _ | with_reducible assumption | with_reducible apply chg_foldl | with_reducible apply chg_foldl_fst | with_reducible apply chg_lateReply | with_reducible apply chg_closeCtx | with_reducible apply chg_l2Body | with_reducible exact chg_of_fst (by assumption) (by assumption) | with_reducible apply chg_ite | simp only [chgMk_iff, id_eq] | (with_reducible apply chgMk_intro rfl <;> first | with_reducible exact .inl (Sub.mem (by assumption) (by decide)) | with_reducible exact .inr rfl | skip) | split

theorem chg_abortAnswer {s : State} (h : Chg F s0 s) (hF : Sub [.ctxs, .fns, .evt, .outbox] F) (x1 : _) (x2 : _) (x3 : _) (x4 : _) (x5 : _) : Chg F s0 (State.abortAnswer s x1 x2 x3 x4 x5) := by
  unfold State.abortAnswer
  repeat' first | with_reducible exact Sub.trans (by assumption) (by decide) | intro _ | with_reducible assumption | with_reducible apply chg_modCtx | with_reducible apply chg_logLevel | with_reducible apply chg_logDev | with_reducible apply chg_msix | with_reducible exact chg_of_fst (by assumption) (by assumption) | with_reducible apply chg_ite | simp only [chgMk_iff, id_eq] | (with_reducible apply chgMk_intro rfl <;> first | with_reducible exact .inl (Sub.mem (by assumption) (by decide)) | with_reducible exact .inr rfl | skip) | split

theorem chg_abortCtx {s : State} (h : Chg F s0 s) (hF : Sub [.beat, .rwi, .rwiNew, .old, .arbs, .tiles, .ctxs, .fns, .units, .mem, .poison, .place, .mig, .xfers, .upds, .contribs, .rsigs, .heldWrites, .ports, .board, .cel, .evt, .pwr, .outbox] F) (x1 : _) (x2 : _) (x3 : _) : Chg F s0 (State.abortCtx s x1 x2 x3) := by
  unfold State.abortCtx
  repeat' first | with_reducible exact Sub.trans (by assumption) (by decide) | intro _ | with_reducible assumption | with_reducible apply chg_foldl | with_reducible apply chg_foldl_fst | with_reducible apply chg_abortTile | with_reducible apply chg_logTorn | with_reducible apply chg_abortWork | with_reducible apply chg_emptyLedger | with_reducible apply chg_modStep | with_reducible apply chg_abortReplies | with_reducible apply chg_abortAnswer | with_reducible exact chg_of_fst (by assumption) (by assumption) | with_reducible apply chg_ite | simp only [chgMk_iff, id_eq] | (with_reducible apply chgMk_intro rfl <;> first | with_reducible exact .inl (Sub.mem (by assumption) (by decide)) | with_reducible exact .inr rfl | skip) | split

theorem chg_doAbortTick {s : State} (h : Chg F s0 s) (hF : Sub [.beat, .rwi, .rwiNew, .old, .arbs, .tiles, .ctxs, .fns, .units, .mem, .poison, .place, .mig, .xfers, .upds, .contribs, .rsigs, .heldWrites, .ports, .board, .cel, .evt, .pwr, .outbox] F) (x0 : _) (x1 : _) : Chg F s0 (doAbortTick x0 x1 s) := by
  unfold doAbortTick
  repeat' first | with_reducible exact Sub.trans (by assumption) (by decide) | intro _ | with_reducible assumption | with_reducible apply chg_acted | with_reducible apply chg_modStep | with_reducible apply chg_abortCtx | with_reducible exact chg_of_fst (by assumption) (by assumption) | with_reducible apply chg_ite | simp only [chgMk_iff, id_eq] | (with_reducible apply chgMk_intro rfl <;> first | with_reducible exact .inl (Sub.mem (by assumption) (by decide)) | with_reducible exact .inr rfl | skip) | split

theorem chg_finishVerdict {s : State} (h : Chg F s0 s) (hF : Sub [.beat, .rwi, .rwiNew, .old, .arbs, .tiles, .ctxs, .fns, .units, .mem, .poison, .place, .mig, .xfers, .upds, .contribs, .rsigs, .heldWrites, .ports, .board, .cel, .evt, .boot, .pwr, .outbox] F) : Chg F s0 (State.finishVerdict s) := by
  unfold State.finishVerdict
  repeat' first | with_reducible exact Sub.trans (by assumption) (by decide) | intro _ | with_reducible assumption | with_reducible apply chg_foldl | with_reducible apply chg_foldl_fst | with_reducible apply chg_doAbortTick | with_reducible apply chg_doStepCommit | with_reducible apply chg_doStepOpen | with_reducible exact chg_of_fst (by assumption) (by assumption) | with_reducible apply chg_ite | simp only [chgMk_iff, id_eq] | (with_reducible apply chgMk_intro rfl <;> first | with_reducible exact .inl (Sub.mem (by assumption) (by decide)) | with_reducible exact .inr rfl | skip) | split

theorem chg_setQstate {s : State} (h : Chg F s0 s) (hF : Sub [.hub] F) (x1 : _) (x2 : _) : Chg F s0 (State.setQstate s x1 x2) := by
  unfold State.setQstate
  repeat' first | with_reducible exact Sub.trans (by assumption) (by decide) | intro _ | with_reducible assumption | with_reducible apply chg_setMode | with_reducible exact chg_of_fst (by assumption) (by assumption) | with_reducible apply chg_ite | simp only [chgMk_iff, id_eq] | (with_reducible apply chgMk_intro rfl <;> first | with_reducible exact .inl (Sub.mem (by assumption) (by decide)) | with_reducible exact .inr rfl | skip) | split

theorem chg_setSides {s : State} (h : Chg F s0 s) (hF : Sub [.hub] F) (x1 : _) : Chg F s0 (State.setSides s x1) := by
  unfold State.setSides
  repeat' first | with_reducible exact Sub.trans (by assumption) (by decide) | intro _ | with_reducible assumption | with_reducible apply chg_foldl | with_reducible apply chg_foldl_fst | with_reducible exact chg_of_fst (by assumption) (by assumption) | with_reducible apply chg_ite | simp only [chgMk_iff, id_eq] | (with_reducible apply chgMk_intro rfl <;> first | with_reducible exact .inl (Sub.mem (by assumption) (by decide)) | with_reducible exact .inr rfl | skip) | split

theorem chg_dropSides {s : State} (h : Chg F s0 s) (hF : Sub [.hub] F) : Chg F s0 (State.dropSides s) := by
  unfold State.dropSides
  repeat' first | with_reducible exact Sub.trans (by assumption) (by decide) | intro _ | with_reducible assumption | with_reducible apply chg_setSides | with_reducible exact chg_of_fst (by assumption) (by assumption) | with_reducible apply chg_ite | simp only [chgMk_iff, id_eq] | (with_reducible apply chgMk_intro rfl <;> first | with_reducible exact .inl (Sub.mem (by assumption) (by decide)) | with_reducible exact .inr rfl | skip) | split

theorem chg_tickRing {s : State} (h : Chg F s0 s) (hF : Sub [.hub] F) : Chg F s0 (State.tickRing s) := by
  unfold State.tickRing
  repeat' first | with_reducible exact Sub.trans (by assumption) (by decide) | intro _ | with_reducible assumption | with_reducible apply chg_foldl | with_reducible apply chg_foldl_fst | with_reducible apply chg_setSides | with_reducible apply chg_setQstate | with_reducible exact chg_of_fst (by assumption) (by assumption) | with_reducible apply chg_ite | simp only [chgMk_iff, id_eq] | (with_reducible apply chgMk_intro rfl <;> first | with_reducible exact .inl (Sub.mem (by assumption) (by decide)) | with_reducible exact .inr rfl | skip) | split

theorem chg_dieStacksOut {s : State} (h : Chg F s0 s) (hF : Sub [.units] F) (x1 : _) : Chg F s0 (State.dieStacksOut s x1) := by
  unfold State.dieStacksOut
  repeat' first | with_reducible exact Sub.trans (by assumption) (by decide) | intro _ | with_reducible assumption | with_reducible apply chg_foldl | with_reducible apply chg_foldl_fst | with_reducible apply chg_modUnit | with_reducible exact chg_of_fst (by assumption) (by assumption) | with_reducible apply chg_ite | simp only [chgMk_iff, id_eq] | (with_reducible apply chgMk_intro rfl <;> first | with_reducible exact .inl (Sub.mem (by assumption) (by decide)) | with_reducible exact .inr rfl | skip) | split

theorem chg_dieOff {s : State} (h : Chg F s0 s) (hF : Sub [.beat, .cfg, .rwi, .rwiNew, .old, .hub, .arbs, .tiles, .ctxs, .fns, .hports, .units, .mem, .poison, .hdrs, .hdrPoison, .place, .mig, .ras, .xfers, .upds, .contribs, .rsigs, .heldWrites, .ports, .board, .cel, .evt, .boot, .pwr, .outbox] F) (x1 : _) : Chg F s0 (State.dieOff s x1) := by
  unfold State.dieOff
  repeat' first | with_reducible exact Sub.trans (by assumption) (by decide) | intro _ | with_reducible assumption | with_reducible apply chg_foldl | with_reducible apply chg_foldl_fst | with_reducible apply chg_logEvent | with_reducible apply chg_dropSides | with_reducible apply chg_setQstate | with_reducible apply chg_dieStacksOut | with_reducible apply chg_requestAbort | with_reducible apply chg_takeL3 | with_reducible exact chg_of_fst (by assumption) (by assumption) | with_reducible apply chg_ite | simp only [chgMk_iff, id_eq] | (with_reducible apply chgMk_intro rfl <;> first | with_reducible exact .inl (Sub.mem (by assumption) (by decide)) | with_reducible exact .inr rfl | skip) | split

theorem chg_checkDies {s : State} (h : Chg F s0 s) (hF : Sub [.beat, .cfg, .rwi, .rwiNew, .old, .hub, .arbs, .tiles, .ctxs, .fns, .hports, .units, .mem, .poison, .hdrs, .hdrPoison, .place, .mig, .ras, .xfers, .upds, .contribs, .rsigs, .heldWrites, .ports, .board, .cel, .evt, .boot, .pwr, .outbox] F) : Chg F s0 (State.checkDies s) := by
  unfold State.checkDies
  repeat' first | with_reducible exact Sub.trans (by assumption) (by decide) | intro _ | with_reducible assumption | with_reducible apply chg_foldl | with_reducible apply chg_foldl_fst | with_reducible apply chg_dieOff | with_reducible apply chg_dropSides | with_reducible exact chg_of_fst (by assumption) (by assumption) | with_reducible apply chg_ite | simp only [chgMk_iff, id_eq] | (with_reducible apply chgMk_intro rfl <;> first | with_reducible exact .inl (Sub.mem (by assumption) (by decide)) | with_reducible exact .inr rfl | skip) | split

theorem chg_quadOut {s : State} (h : Chg F s0 s) (hF : Sub [.beat, .cfg, .rwi, .rwiNew, .old, .hub, .arbs, .tiles, .ctxs, .fns, .hports, .units, .mem, .poison, .hdrs, .hdrPoison, .place, .mig, .ras, .xfers, .upds, .contribs, .rsigs, .heldWrites, .ports, .board, .cel, .evt, .boot, .pwr, .outbox] F) (x1 : _) : Chg F s0 (State.quadOut s x1) := by
  unfold State.quadOut
  repeat' first | with_reducible exact Sub.trans (by assumption) (by decide) | intro _ | with_reducible assumption | with_reducible apply chg_checkDies | with_reducible apply chg_logEvent | with_reducible apply chg_setQstate | with_reducible exact chg_of_fst (by assumption) (by assumption) | with_reducible apply chg_ite | simp only [chgMk_iff, id_eq] | (with_reducible apply chgMk_intro rfl <;> first | with_reducible exact .inl (Sub.mem (by assumption) (by decide)) | with_reducible exact .inr rfl | skip) | split

theorem chg_doBridgeRetrain {s : State} (h : Chg F s0 s) (hF : Sub [.beat, .cfg, .rwi, .rwiNew, .old, .hub, .arbs, .tiles, .ctxs, .fns, .hports, .units, .mem, .poison, .hdrs, .hdrPoison, .place, .mig, .ras, .xfers, .upds, .contribs, .rsigs, .heldWrites, .ports, .board, .cel, .evt, .boot, .pwr, .outbox] F) (x0 : _) : Chg F s0 (doBridgeRetrain x0 s) := by
  unfold doBridgeRetrain
  repeat' first | with_reducible exact Sub.trans (by assumption) (by decide) | intro _ | with_reducible assumption | with_reducible apply chg_logEvent | with_reducible apply chg_setQstate | with_reducible apply chg_quadOut | with_reducible apply chg_checkDies | with_reducible exact chg_of_fst (by assumption) (by assumption) | with_reducible apply chg_ite | simp only [chgMk_iff, id_eq] | (with_reducible apply chgMk_intro rfl <;> first | with_reducible exact .inl (Sub.mem (by assumption) (by decide)) | with_reducible exact .inr rfl | skip) | split

theorem chg_doBridgeTrainDone {s : State} (h : Chg F s0 s) (hF : Sub [.beat, .cfg, .rwi, .rwiNew, .old, .hub, .arbs, .tiles, .ctxs, .fns, .hports, .units, .mem, .poison, .hdrs, .hdrPoison, .place, .mig, .ras, .xfers, .upds, .contribs, .rsigs, .heldWrites, .ports, .board, .cel, .evt, .boot, .pwr, .outbox] F) (x0 : _) (x1 : _) : Chg F s0 (doBridgeTrainDone x0 x1 s) := by
  unfold doBridgeTrainDone
  repeat' first | with_reducible exact Sub.trans (by assumption) (by decide) | intro _ | with_reducible assumption | with_reducible apply chg_quadOut | with_reducible exact chg_of_fst (by assumption) (by assumption) | with_reducible apply chg_ite | simp only [chgMk_iff, id_eq] | (with_reducible apply chgMk_intro rfl <;> first | with_reducible exact .inl (Sub.mem (by assumption) (by decide)) | with_reducible exact .inr rfl | skip) | split

theorem chg_doQuadSelfCheckFault {s : State} (h : Chg F s0 s) (hF : Sub [.beat, .cfg, .rwi, .rwiNew, .old, .hub, .arbs, .tiles, .ctxs, .fns, .hports, .units, .mem, .poison, .hdrs, .hdrPoison, .place, .mig, .ras, .xfers, .upds, .contribs, .rsigs, .heldWrites, .ports, .board, .cel, .evt, .boot, .pwr, .outbox] F) (x0 : _) : Chg F s0 (doQuadSelfCheckFault x0 s) := by
  unfold doQuadSelfCheckFault
  repeat' first | with_reducible exact Sub.trans (by assumption) (by decide) | intro _ | with_reducible assumption | with_reducible apply chg_quadOut | with_reducible exact chg_of_fst (by assumption) (by assumption) | with_reducible apply chg_ite | simp only [chgMk_iff, id_eq] | (with_reducible apply chgMk_intro rfl <;> first | with_reducible exact .inl (Sub.mem (by assumption) (by decide)) | with_reducible exact .inr rfl | skip) | split

theorem chg_syncUnits {s : State} (h : Chg F s0 s) (hF : Sub [.beat, .cfg, .rwi, .rwiNew, .old, .hub, .arbs, .tiles, .ctxs, .fns, .hports, .units, .mem, .poison, .hdrs, .hdrPoison, .place, .mig, .ras, .xfers, .upds, .contribs, .rsigs, .heldWrites, .ports, .board, .cel, .evt, .boot, .pwr, .outbox] F) : Chg F s0 (State.syncUnits s) := by
  unfold State.syncUnits
  repeat' first | with_reducible exact Sub.trans (by assumption) (by decide) | intro _ | with_reducible assumption | with_reducible apply chg_checkDies | with_reducible apply chg_syncPorts | with_reducible exact chg_of_fst (by assumption) (by assumption) | with_reducible apply chg_ite | simp only [chgMk_iff, id_eq] | (with_reducible apply chgMk_intro rfl <;> first | with_reducible exact .inl (Sub.mem (by assumption) (by decide)) | with_reducible exact .inr rfl | skip) | split

theorem chg_nextClk {s : State} (h : Chg F s0 s) (hF : Sub [.beat, .cfg, .rwi, .rwiNew, .old, .hub, .arbs, .tiles, .ctxs, .fns, .hports, .units, .mem, .poison, .hdrs, .hdrPoison, .place, .mig, .ras, .xfers, .upds, .contribs, .rsigs, .heldWrites, .ports, .board, .cel, .evt, .boot, .pwr, .outbox] F) (x1 : _) : Chg F s0 (State.nextClk s x1) := by
  unfold State.nextClk
  repeat' first | with_reducible exact Sub.trans (by assumption) (by decide) | intro _ | with_reducible assumption | with_reducible apply chg_foldl | with_reducible apply chg_foldl_fst | with_reducible apply chg_syncUnits | with_reducible apply chg_applyGroups | with_reducible apply chg_rwiTake | with_reducible apply chg_shadowTake | with_reducible apply chg_flushPba | with_reducible exact chg_of_fst (by assumption) (by assumption) | with_reducible apply chg_ite | simp only [chgMk_iff, id_eq] | (with_reducible apply chgMk_intro rfl <;> first | with_reducible exact .inl (Sub.mem (by assumption) (by decide)) | with_reducible exact .inr rfl | skip) | split

theorem chg_endClk0 {s : State} (h : Chg F s0 s) (hF : Sub [.beat, .cfg, .rwi, .rwiNew, .old, .hub, .arbs, .tiles, .ctxs, .fns, .hports, .units, .mem, .poison, .hdrs, .hdrPoison, .place, .mig, .ras, .xfers, .upds, .contribs, .rsigs, .heldWrites, .ports, .board, .cel, .evt, .boot, .pwr, .outbox] F) : Chg F s0 (State.endClk0 s) := by
  unfold State.endClk0
  repeat' first | with_reducible exact Sub.trans (by assumption) (by decide) | intro _ | with_reducible assumption | with_reducible apply chg_grantWakes | with_reducible apply chg_syncUnits | with_reducible apply chg_doStrobeAtApply | with_reducible exact chg_of_fst (by assumption) (by assumption) | with_reducible apply chg_ite | simp only [chgMk_iff, id_eq] | (with_reducible apply chgMk_intro rfl <;> first | with_reducible exact .inl (Sub.mem (by assumption) (by decide)) | with_reducible exact .inr rfl | skip) | split

theorem chg_idleClk {s : State} (h : Chg F s0 s) (hF : Sub [.beat, .cfg, .rwi, .rwiNew, .old, .hub, .arbs, .tiles, .ctxs, .fns, .hports, .units, .mem, .poison, .hdrs, .hdrPoison, .place, .mig, .ras, .xfers, .upds, .contribs, .rsigs, .heldWrites, .ports, .board, .cel, .evt, .boot, .pwr, .outbox] F) : Chg F s0 (idleClk s) := by
  unfold idleClk
  repeat' first | with_reducible exact Sub.trans (by assumption) (by decide) | intro _ | with_reducible assumption | with_reducible apply chg_endClk0 | with_reducible apply chg_nextClk | with_reducible exact chg_of_fst (by assumption) (by assumption) | with_reducible apply chg_ite | simp only [chgMk_iff, id_eq] | (with_reducible apply chgMk_intro rfl <;> first | with_reducible exact .inl (Sub.mem (by assumption) (by decide)) | with_reducible exact .inr rfl | skip) | split

theorem chg_giveVerdict {s : State} (h : Chg F s0 s) (hF : Sub [.board, .outbox] F) : Chg F s0 (State.giveVerdict s) := by
  unfold State.giveVerdict
  repeat' first | with_reducible exact Sub.trans (by assumption) (by decide) | intro _ | with_reducible assumption | with_reducible apply chg_send | with_reducible exact chg_of_fst (by assumption) (by assumption) | with_reducible apply chg_ite | simp only [chgMk_iff, id_eq] | (with_reducible apply chgMk_intro rfl <;> first | with_reducible exact .inl (Sub.mem (by assumption) (by decide)) | with_reducible exact .inr rfl | skip) | split

theorem chg_doVerdictForm {s : State} (h : Chg F s0 s) (hF : Sub [.board, .outbox] F) : Chg F s0 (doVerdictForm s) := by
  unfold doVerdictForm
  repeat' first | with_reducible exact Sub.trans (by assumption) (by decide) | intro _ | with_reducible assumption | with_reducible apply chg_giveVerdict | with_reducible exact chg_of_fst (by assumption) (by assumption) | with_reducible apply chg_ite | simp only [chgMk_iff, id_eq] | (with_reducible apply chgMk_intro rfl <;> first | with_reducible exact .inl (Sub.mem (by assumption) (by decide)) | with_reducible exact .inr rfl | skip) | split

theorem chg_askAgain {s : State} (h : Chg F s0 s) (hF : Sub [.board, .outbox] F) (x1 : _) : Chg F s0 (State.askAgain s x1) := by
  unfold State.askAgain
  repeat' first | with_reducible exact Sub.trans (by assumption) (by decide) | intro _ | with_reducible assumption | with_reducible apply chg_send | with_reducible exact chg_of_fst (by assumption) (by assumption) | with_reducible apply chg_ite | simp only [chgMk_iff, id_eq] | (with_reducible apply chgMk_intro rfl <;> first | with_reducible exact .inl (Sub.mem (by assumption) (by decide)) | with_reducible exact .inr rfl | skip) | split

theorem chg_doVerdictReceive {s : State} (h : Chg F s0 s) (hF : Sub [.board, .outbox] F) (x0 : _) (x1 : _) : Chg F s0 (doVerdictReceive x0 x1 s) := by
  unfold doVerdictReceive
  repeat' first | with_reducible exact Sub.trans (by assumption) (by decide) | intro _ | with_reducible assumption | with_reducible apply chg_askAgain | with_reducible exact chg_of_fst (by assumption) (by assumption) | with_reducible apply chg_ite | simp only [chgMk_iff, id_eq] | (with_reducible apply chgMk_intro rfl <;> first | with_reducible exact .inl (Sub.mem (by assumption) (by decide)) | with_reducible exact .inr rfl | skip) | split

theorem chg_doVerdictReply {s : State} (h : Chg F s0 s) (hF : Sub [.board] F) (x0 : _) : Chg F s0 (doVerdictReply x0 s) := by
  unfold doVerdictReply
  repeat' first | with_reducible exact Sub.trans (by assumption) (by decide) | intro _ | with_reducible assumption | with_reducible exact chg_of_fst (by assumption) (by assumption) | with_reducible apply chg_ite | simp only [chgMk_iff, id_eq] | (with_reducible apply chgMk_intro rfl <;> first | with_reducible exact .inl (Sub.mem (by assumption) (by decide)) | with_reducible exact .inr rfl | skip) | split

theorem chg_doVerdictTimeout {s : State} (h : Chg F s0 s) (hF : Sub [.board] F) : Chg F s0 (doVerdictTimeout s) := by
  unfold doVerdictTimeout
  repeat' first | with_reducible exact Sub.trans (by assumption) (by decide) | intro _ | with_reducible assumption | with_reducible exact chg_of_fst (by assumption) (by assumption) | with_reducible apply chg_ite | simp only [chgMk_iff, id_eq] | (with_reducible apply chgMk_intro rfl <;> first | with_reducible exact .inl (Sub.mem (by assumption) (by decide)) | with_reducible exact .inr rfl | skip) | split

theorem chg_doVerdictRequest {s : State} (h : Chg F s0 s) (hF : Sub [.ports, .outbox] F) (x0 : _) (x1 : _) : Chg F s0 (doVerdictRequest x0 x1 s) := by
  unfold doVerdictRequest
  repeat' first | with_reducible exact Sub.trans (by assumption) (by decide) | intro _ | with_reducible assumption | with_reducible apply chg_putControl | with_reducible exact chg_of_fst (by assumption) (by assumption) | with_reducible apply chg_ite | simp only [chgMk_iff, id_eq] | (with_reducible apply chgMk_intro rfl <;> first | with_reducible exact .inl (Sub.mem (by assumption) (by decide)) | with_reducible exact .inr rfl | skip) | split

theorem chg_countMarkers {s : State} (h : Chg F s0 s) (hF : Sub [.ports, .board] F) : Chg F s0 (State.countMarkers s) := by
  unfold State.countMarkers
  repeat' first | with_reducible exact Sub.trans (by assumption) (by decide) | intro _ | with_reducible assumption | with_reducible apply chg_foldl | with_reducible apply chg_foldl_fst | with_reducible apply chg_modPort | with_reducible exact chg_of_fst (by assumption) (by assumption) | with_reducible apply chg_ite | simp only [chgMk_iff, id_eq] | (with_reducible apply chgMk_intro rfl <;> first | with_reducible exact .inl (Sub.mem (by assumption) (by decide)) | with_reducible exact .inr rfl | skip) | split

theorem chg_sendMarker {s : State} (h : Chg F s0 s) (hF : Sub [.board, .outbox] F) (x1 : _) : Chg F s0 (State.sendMarker s x1) := by
  unfold State.sendMarker
  repeat' first | with_reducible exact Sub.trans (by assumption) (by decide) | intro _ | with_reducible assumption | with_reducible apply chg_send | with_reducible exact chg_of_fst (by assumption) (by assumption) | with_reducible apply chg_ite | simp only [chgMk_iff, id_eq] | (with_reducible apply chgMk_intro rfl <;> first | with_reducible exact .inl (Sub.mem (by assumption) (by decide)) | with_reducible exact .inr rfl | skip) | split

theorem chg_newBeat {s : State} (h : Chg F s0 s) (hF : Sub [.beat] F) : Chg F s0 (State.newBeat s) := by
  unfold State.newBeat
  repeat' first | with_reducible exact Sub.trans (by assumption) (by decide) | intro _ | with_reducible assumption | with_reducible exact chg_of_fst (by assumption) (by assumption) | with_reducible apply chg_ite | simp only [chgMk_iff, id_eq] | (with_reducible apply chgMk_intro rfl <;> first | with_reducible exact .inl (Sub.mem (by assumption) (by decide)) | with_reducible exact .inr rfl | skip) | split

theorem chg_overrunStream {s : State} (h : Chg F s0 s) (hF : Sub [.tiles, .ctxs, .fns, .evt, .outbox] F) (x1 : _) (x2 : _) : Chg F s0 (State.overrunStream s x1 x2) := by
  unfold State.overrunStream
  repeat' first | with_reducible exact Sub.trans (by assumption) (by decide) | intro _ | with_reducible assumption | with_reducible apply chg_foldl | with_reducible apply chg_foldl_fst | with_reducible apply chg_modTile | with_reducible apply chg_modStep | with_reducible apply chg_logTile | with_reducible apply chg_modSeq | with_reducible exact chg_of_fst (by assumption) (by assumption) | with_reducible apply chg_ite | simp only [chgMk_iff, id_eq] | (with_reducible apply chgMk_intro rfl <;> first | with_reducible exact .inl (Sub.mem (by assumption) (by decide)) | with_reducible exact .inr rfl | skip) | split

theorem chg_passBeat {s : State} (h : Chg F s0 s) (hF : Sub [.old, .tiles, .mem, .poison] F) (x1 : _) (x2 : _) : Chg F s0 (State.passBeat s x1 x2) := by
  unfold State.passBeat
  repeat' first | with_reducible exact Sub.trans (by assumption) (by decide) | intro _ | with_reducible assumption | with_reducible apply chg_passSync | with_reducible exact chg_of_fst (by assumption) (by assumption) | with_reducible apply chg_ite | simp only [chgMk_iff, id_eq] | (with_reducible apply chgMk_intro rfl <;> first | with_reducible exact .inl (Sub.mem (by assumption) (by decide)) | with_reducible exact .inr rfl | skip) | split

theorem chg_tickTiles {s : State} (h : Chg F s0 s) (hF : Sub [.old, .tiles, .ctxs, .fns, .mem, .poison, .evt, .outbox] F) : Chg F s0 (State.tickTiles s) := by
  unfold State.tickTiles
  repeat' first | with_reducible exact Sub.trans (by assumption) (by decide) | intro _ | with_reducible assumption | with_reducible apply chg_foldl | with_reducible apply chg_foldl_fst | with_reducible apply chg_passBeat | with_reducible apply chg_overrunStream | with_reducible exact chg_of_fst (by assumption) (by assumption) | with_reducible apply chg_ite | simp only [chgMk_iff, id_eq] | (with_reducible apply chgMk_intro rfl <;> first | with_reducible exact .inl (Sub.mem (by assumption) (by decide)) | with_reducible exact .inr rfl | skip) | split

theorem chg_tickSteps {s : State} (h : Chg F s0 s) (hF : Sub [.ctxs] F) : Chg F s0 (State.tickSteps s) := by
  unfold State.tickSteps
  repeat' first | with_reducible exact Sub.trans (by assumption) (by decide) | intro _ | with_reducible assumption | with_reducible apply chg_foldl | with_reducible apply chg_foldl_fst | with_reducible apply chg_modStep | with_reducible exact chg_of_fst (by assumption) (by assumption) | with_reducible apply chg_ite | simp only [chgMk_iff, id_eq] | (with_reducible apply chgMk_intro rfl <;> first | with_reducible exact .inl (Sub.mem (by assumption) (by decide)) | with_reducible exact .inr rfl | skip) | split

theorem chg_loseVerdict {s : State} (h : Chg F s0 s) (hF : Sub [.fns, .ports, .board, .evt, .outbox] F) : Chg F s0 (State.loseVerdict s) := by
  unfold State.loseVerdict
  repeat' first | with_reducible exact Sub.trans (by assumption) (by decide) | intro _ | with_reducible assumption | with_reducible apply chg_logDev | with_reducible apply chg_putControl | with_reducible exact chg_of_fst (by assumption) (by assumption) | with_reducible apply chg_ite | simp only [chgMk_iff, id_eq] | (with_reducible apply chgMk_intro rfl <;> first | with_reducible exact .inl (Sub.mem (by assumption) (by decide)) | with_reducible exact .inr rfl | skip) | split

theorem chg_takeVerdict {s : State} (h : Chg F s0 s) (hF : Sub [.fns, .ports, .board, .evt, .outbox] F) : Chg F s0 (State.takeVerdict s) := by
  unfold State.takeVerdict
  repeat' first | with_reducible exact Sub.trans (by assumption) (by decide) | intro _ | with_reducible assumption | with_reducible apply chg_loseVerdict | with_reducible exact chg_of_fst (by assumption) (by assumption) | with_reducible apply chg_ite | simp only [chgMk_iff, id_eq] | (with_reducible apply chgMk_intro rfl <;> first | with_reducible exact .inl (Sub.mem (by assumption) (by decide)) | with_reducible exact .inr rfl | skip) | split

theorem chg_tickCounts {s : State} (h : Chg F s0 s) (hF : Sub [.hub, .fns, .mig, .board, .cel, .evt, .pwr, .outbox] F) (x1 : _) : Chg F s0 (State.tickCounts s x1) := by
  unfold State.tickCounts
  repeat' first | with_reducible exact Sub.trans (by assumption) (by decide) | intro _ | with_reducible assumption | with_reducible apply chg_tickRing | with_reducible apply chg_celRefill | with_reducible exact chg_of_fst (by assumption) (by assumption) | with_reducible apply chg_ite | simp only [chgMk_iff, id_eq] | (with_reducible apply chgMk_intro rfl <;> first | with_reducible exact .inl (Sub.mem (by assumption) (by decide)) | with_reducible exact .inr rfl | skip) | split

theorem chg_tickTakeover {s : State} (h : Chg F s0 s) (hF : Sub [.board] F) : Chg F s0 (State.tickTakeover s) := by
  unfold State.tickTakeover
  repeat' first | with_reducible exact Sub.trans (by assumption) (by decide) | intro _ | with_reducible assumption | with_reducible exact chg_of_fst (by assumption) (by assumption) | with_reducible apply chg_ite | simp only [chgMk_iff, id_eq] | (with_reducible apply chgMk_intro rfl <;> first | with_reducible exact .inl (Sub.mem (by assumption) (by decide)) | with_reducible exact .inr rfl | skip) | split

theorem chg_tickWatchdog {s : State} (h : Chg F s0 s) (hF : Sub [.beat, .cfg, .rwi, .rwiNew, .old, .hub, .arbs, .tiles, .ctxs, .fns, .hports, .units, .mem, .poison, .hdrs, .hdrPoison, .place, .mig, .ras, .xfers, .upds, .contribs, .rsigs, .heldWrites, .ports, .board, .cel, .evt, .boot, .pwr, .outbox] F) : Chg F s0 (State.tickWatchdog s) := by
  unfold State.tickWatchdog
  repeat' first | with_reducible exact Sub.trans (by assumption) (by decide) | intro _ | with_reducible assumption | with_reducible apply chg_takeL3 | with_reducible exact chg_of_fst (by assumption) (by assumption) | with_reducible apply chg_ite | simp only [chgMk_iff, id_eq] | (with_reducible apply chgMk_intro rfl <;> first | with_reducible exact .inl (Sub.mem (by assumption) (by decide)) | with_reducible exact .inr rfl | skip) | split

theorem chg_doTick {s : State} (h : Chg F s0 s) (hF : Sub [.beat, .cfg, .rwi, .rwiNew, .old, .hub, .arbs, .tiles, .ctxs, .fns, .hports, .units, .mem, .poison, .hdrs, .hdrPoison, .place, .mig, .ras, .xfers, .upds, .contribs, .rsigs, .heldWrites, .ports, .board, .cel, .evt, .boot, .pwr, .outbox] F) : Chg F s0 (doTick s) := by
  unfold doTick
  repeat' first | with_reducible exact Sub.trans (by assumption) (by decide) | intro _ | with_reducible assumption | with_reducible apply chg_syncUnits | with_reducible apply chg_doStrobeAtApply | with_reducible apply chg_endClk0 | with_reducible apply chg_finishVerdict | with_reducible apply chg_giveVerdict | with_reducible apply chg_takeVerdict | with_reducible apply chg_armDue | with_reducible apply chg_newBeat | with_reducible apply chg_nextClk | with_reducible apply chg_sendMarker | with_reducible apply chg_countMarkers | with_reducible apply chg_tickTiles | with_reducible apply chg_tickSteps | with_reducible apply chg_tickWatchdog | with_reducible apply chg_tickTakeover | with_reducible apply chg_tickCounts | with_reducible exact chg_of_fst (by assumption) (by assumption) | with_reducible apply chg_ite | simp only [chgMk_iff, id_eq] | (with_reducible apply chgMk_intro rfl <;> first | with_reducible exact .inl (Sub.mem (by assumption) (by decide)) | with_reducible exact .inr rfl | skip) | split

theorem chg_measureTick {s : State} (h : Chg F s0 s) (hF : Sub [.beat] F) (x1 : _) (x2 : _) : Chg F s0 (State.measureTick s x1 x2) := by
  unfold State.measureTick
  repeat' first | with_reducible exact Sub.trans (by assumption) (by decide) | intro _ | with_reducible assumption | with_reducible exact chg_of_fst (by assumption) (by assumption) | with_reducible apply chg_ite | simp only [chgMk_iff, id_eq] | (with_reducible apply chgMk_intro rfl <;> first | with_reducible exact .inl (Sub.mem (by assumption) (by decide)) | with_reducible exact .inr rfl | skip) | split

theorem chg_takeMarker {s : State} (h : Chg F s0 s) (hF : Sub [.beat, .ports, .board] F) (x1 : _) (x2 : _) : Chg F s0 (State.takeMarker s x1 x2) := by
  unfold State.takeMarker
  repeat' first | with_reducible exact Sub.trans (by assumption) (by decide) | intro _ | with_reducible assumption | with_reducible apply chg_modPort | with_reducible apply chg_measureTick | with_reducible exact chg_of_fst (by assumption) (by assumption) | with_reducible apply chg_ite | simp only [chgMk_iff, id_eq] | (with_reducible apply chgMk_intro rfl <;> first | with_reducible exact .inl (Sub.mem (by assumption) (by decide)) | with_reducible exact .inr rfl | skip) | split

theorem chg_doMarkerReceive {s : State} (h : Chg F s0 s) (hF : Sub [.beat, .ports, .board, .outbox] F) (x0 : _) (x1 : _) : Chg F s0 (doMarkerReceive x0 x1 s) := by
  unfold doMarkerReceive
  repeat' first | with_reducible exact Sub.trans (by assumption) (by decide) | intro _ | with_reducible assumption | with_reducible apply chg_askAgain | with_reducible apply chg_modPort | with_reducible apply chg_takeMarker | with_reducible exact chg_of_fst (by assumption) (by assumption) | with_reducible apply chg_ite | simp only [chgMk_iff, id_eq] | (with_reducible apply chgMk_intro rfl <;> first | with_reducible exact .inl (Sub.mem (by assumption) (by decide)) | with_reducible exact .inr rfl | skip) | split

theorem chg_doHoldover {s : State} (h : Chg F s0 s) (hF : Sub [.beat, .ctxs, .fns, .evt, .outbox] F) : Chg F s0 (doHoldover s) := by
  unfold doHoldover
  repeat' first | with_reducible exact Sub.trans (by assumption) (by decide) | intro _ | with_reducible assumption | with_reducible apply chg_abortAll | with_reducible apply chg_logDev | with_reducible exact chg_of_fst (by assumption) (by assumption) | with_reducible apply chg_ite | simp only [chgMk_iff, id_eq] | (with_reducible apply chgMk_intro rfl <;> first | with_reducible exact .inl (Sub.mem (by assumption) (by decide)) | with_reducible exact .inr rfl | skip) | split

theorem chg_doHoldoverClear {s : State} (h : Chg F s0 s) (hF : Sub [.beat] F) : Chg F s0 (doHoldoverClear s) := by
  unfold doHoldoverClear
  repeat' first | with_reducible exact Sub.trans (by assumption) (by decide) | intro _ | with_reducible assumption | with_reducible exact chg_of_fst (by assumption) (by assumption) | with_reducible apply chg_ite | simp only [chgMk_iff, id_eq] | (with_reducible apply chgMk_intro rfl <;> first | with_reducible exact .inl (Sub.mem (by assumption) (by decide)) | with_reducible exact .inr rfl | skip) | split

theorem chg_beatInBad {s : State} (h : Chg F s0 s) (hF : Sub [.beat, .fns, .evt, .outbox] F) (x1 : _) : Chg F s0 (State.beatInBad s x1) := by
  unfold State.beatInBad
  repeat' first | with_reducible exact Sub.trans (by assumption) (by decide) | intro _ | with_reducible assumption | with_reducible apply chg_logDev | with_reducible exact chg_of_fst (by assumption) (by assumption) | with_reducible apply chg_ite | simp only [chgMk_iff, id_eq] | (with_reducible apply chgMk_intro rfl <;> first | with_reducible exact .inl (Sub.mem (by assumption) (by decide)) | with_reducible exact .inr rfl | skip) | split

theorem chg_doBeatInPulse {s : State} (h : Chg F s0 s) (hF : Sub [.beat, .fns, .evt, .outbox] F) (x0 : _) : Chg F s0 (doBeatInPulse x0 s) := by
  unfold doBeatInPulse
  repeat' first | with_reducible exact Sub.trans (by assumption) (by decide) | intro _ | with_reducible assumption | with_reducible apply chg_beatInBad | with_reducible exact chg_of_fst (by assumption) (by assumption) | with_reducible apply chg_ite | simp only [chgMk_iff, id_eq] | (with_reducible apply chgMk_intro rfl <;> first | with_reducible exact .inl (Sub.mem (by assumption) (by decide)) | with_reducible exact .inr rfl | skip) | split

theorem chg_doBeatInErr {s : State} (h : Chg F s0 s) (hF : Sub [.beat, .fns, .evt, .outbox] F) : Chg F s0 (doBeatInErr s) := by
  unfold doBeatInErr
  repeat' first | with_reducible exact Sub.trans (by assumption) (by decide) | intro _ | with_reducible assumption | with_reducible apply chg_beatInBad | with_reducible exact chg_of_fst (by assumption) (by assumption) | with_reducible apply chg_ite | simp only [chgMk_iff, id_eq] | (with_reducible apply chgMk_intro rfl <;> first | with_reducible exact .inl (Sub.mem (by assumption) (by decide)) | with_reducible exact .inr rfl | skip) | split

theorem chg_abortHalt {s : State} (h : Chg F s0 s) (hF : Sub [.ctxs, .fns, .outbox] F) (x1 : _) (x2 : _) : Chg F s0 (State.abortHalt s x1 x2) := by
  unfold State.abortHalt
  repeat' first | with_reducible exact Sub.trans (by assumption) (by decide) | intro _ | with_reducible assumption | with_reducible apply chg_requestAbort | with_reducible apply chg_modStep | with_reducible apply chg_msix | with_reducible exact chg_of_fst (by assumption) (by assumption) | with_reducible apply chg_ite | simp only [chgMk_iff, id_eq] | (with_reducible apply chgMk_intro rfl <;> first | with_reducible exact .inl (Sub.mem (by assumption) (by decide)) | with_reducible exact .inr rfl | skip) | split

theorem chg_logPort {s : State} (h : Chg F s0 s) (hF : Sub [.fns, .evt, .outbox] F) (x1 : _) (x2 : _) (x3 : _) : Chg F s0 (State.logPort s x1 x2 x3) := by
  unfold State.logPort
  repeat' first | with_reducible exact Sub.trans (by assumption) (by decide) | intro _ | with_reducible assumption | with_reducible apply chg_logEvent | with_reducible exact chg_of_fst (by assumption) (by assumption) | with_reducible apply chg_ite | simp only [chgMk_iff, id_eq] | (with_reducible apply chgMk_intro rfl <;> first | with_reducible exact .inl (Sub.mem (by assumption) (by decide)) | with_reducible exact .inr rfl | skip) | split

theorem chg_portGoesDown {s : State} (h : Chg F s0 s) (hF : Sub [.ctxs, .fns, .ports, .evt, .outbox] F) (x1 : _) : Chg F s0 (State.portGoesDown s x1) := by
  unfold State.portGoesDown
  repeat' first | with_reducible exact Sub.trans (by assumption) (by decide) | intro _ | with_reducible assumption | with_reducible apply chg_foldl | with_reducible apply chg_foldl_fst | with_reducible apply chg_modPort | with_reducible apply chg_abortHalt | with_reducible apply chg_logPort | with_reducible exact chg_of_fst (by assumption) (by assumption) | with_reducible apply chg_ite | simp only [chgMk_iff, id_eq] | (with_reducible apply chgMk_intro rfl <;> first | with_reducible exact .inl (Sub.mem (by assumption) (by decide)) | with_reducible exact .inr rfl | skip) | split

theorem chg_degrade {s : State} (h : Chg F s0 s) (hF : Sub [.ctxs, .fns, .ports, .evt, .outbox] F) (x1 : _) (x2 : _) : Chg F s0 (State.degrade s x1 x2) := by
  unfold State.degrade
  repeat' first | with_reducible exact Sub.trans (by assumption) (by decide) | intro _ | with_reducible assumption | with_reducible apply chg_logPort | with_reducible apply chg_modPort | with_reducible apply chg_portGoesDown | with_reducible exact chg_of_fst (by assumption) (by assumption) | with_reducible apply chg_ite | simp only [chgMk_iff, id_eq] | (with_reducible apply chgMk_intro rfl <;> first | with_reducible exact .inl (Sub.mem (by assumption) (by decide)) | with_reducible exact .inr rfl | skip) | split

theorem chg_doLaneDegraded {s : State} (h : Chg F s0 s) (hF : Sub [.ctxs, .fns, .ports, .evt, .outbox] F) (x0 : _) (x1 : _) : Chg F s0 (doLaneDegraded x0 x1 s) := by
  unfold doLaneDegraded
  repeat' first | with_reducible exact Sub.trans (by assumption) (by decide) | intro _ | with_reducible assumption | with_reducible apply chg_degrade | with_reducible exact chg_of_fst (by assumption) (by assumption) | with_reducible apply chg_ite | simp only [chgMk_iff, id_eq] | (with_reducible apply chgMk_intro rfl <;> first | with_reducible exact .inl (Sub.mem (by assumption) (by decide)) | with_reducible exact .inr rfl | skip) | split

theorem chg_doLinkTrainingDone {s : State} (h : Chg F s0 s) (hF : Sub [.ctxs, .fns, .ports, .evt, .outbox] F) (x0 : _) (x1 : _) : Chg F s0 (doLinkTrainingDone x0 x1 s) := by
  unfold doLinkTrainingDone
  repeat' first | with_reducible exact Sub.trans (by assumption) (by decide) | intro _ | with_reducible assumption | with_reducible apply chg_logPort | with_reducible apply chg_modPort | with_reducible apply chg_portGoesDown | with_reducible apply chg_degrade | with_reducible exact chg_of_fst (by assumption) (by assumption) | with_reducible apply chg_ite | simp only [chgMk_iff, id_eq] | (with_reducible apply chgMk_intro rfl <;> first | with_reducible exact .inl (Sub.mem (by assumption) (by decide)) | with_reducible exact .inr rfl | skip) | split

theorem chg_becomeMaster {s : State} (h : Chg F s0 s) (hF : Sub [.beat, .cfg, .rwiNew, .hub, .pwr] F) : Chg F s0 (State.becomeMaster s) := by
  unfold State.becomeMaster
  repeat' first | with_reducible exact Sub.trans (by assumption) (by decide) | intro _ | with_reducible assumption | with_reducible apply chg_maltsterSet | with_reducible exact chg_of_fst (by assumption) (by assumption) | with_reducible apply chg_ite | simp only [chgMk_iff, id_eq] | (with_reducible apply chgMk_intro rfl <;> first | with_reducible exact .inl (Sub.mem (by assumption) (by decide)) | with_reducible exact .inr rfl | skip) | split

theorem chg_becomeFollower {s : State} (h : Chg F s0 s) (hF : Sub [.beat, .cfg, .rwiNew, .hub] F) : Chg F s0 (State.becomeFollower s) := by
  unfold State.becomeFollower
  repeat' first | with_reducible exact Sub.trans (by assumption) (by decide) | intro _ | with_reducible assumption | with_reducible apply chg_maltsterSet | with_reducible exact chg_of_fst (by assumption) (by assumption) | with_reducible apply chg_ite | simp only [chgMk_iff, id_eq] | (with_reducible apply chgMk_intro rfl <;> first | with_reducible exact .inl (Sub.mem (by assumption) (by decide)) | with_reducible exact .inr rfl | skip) | split

theorem chg_applyMap {s : State} (h : Chg F s0 s) (hF : Sub [.beat, .cfg, .rwiNew, .hub, .units, .board, .evt, .pwr] F) (x1 : _) (x2 : _) : Chg F s0 (State.applyMap s x1 x2) := by
  unfold State.applyMap
  repeat' first | with_reducible exact Sub.trans (by assumption) (by decide) | intro _ | with_reducible assumption | with_reducible apply chg_maltsterSet | with_reducible apply chg_advanceEpoch | with_reducible apply chg_becomeMaster | with_reducible apply chg_becomeFollower | with_reducible exact chg_of_fst (by assumption) (by assumption) | with_reducible apply chg_ite | simp only [chgMk_iff, id_eq] | (with_reducible apply chgMk_intro rfl <;> first | with_reducible exact .inl (Sub.mem (by assumption) (by decide)) | with_reducible exact .inr rfl | skip) | split

theorem chg_streamRecords {s : State} (h : Chg F s0 s) (hF : Sub [.ports, .outbox] F) (x1 : _) (x2 : _) (x3 : _) : Chg F s0 (State.streamRecords s x1 x2 x3) := by
  unfold State.streamRecords
  repeat' first | with_reducible exact Sub.trans (by assumption) (by decide) | intro _ | with_reducible assumption | with_reducible apply chg_foldl | with_reducible apply chg_foldl_fst | with_reducible apply chg_putTransfer | with_reducible exact chg_of_fst (by assumption) (by assumption) | with_reducible apply chg_ite | simp only [chgMk_iff, id_eq] | (with_reducible apply chgMk_intro rfl <;> first | with_reducible exact .inl (Sub.mem (by assumption) (by decide)) | with_reducible exact .inr rfl | skip) | split

theorem chg_tkoStreams {s : State} (h : Chg F s0 s) (hF : Sub [.ports, .outbox] F) : Chg F s0 (State.tkoStreams s) := by
  unfold State.tkoStreams
  repeat' first | with_reducible exact Sub.trans (by assumption) (by decide) | intro _ | with_reducible assumption | with_reducible apply chg_foldl | with_reducible apply chg_foldl_fst | with_reducible apply chg_streamRecords | with_reducible exact chg_of_fst (by assumption) (by assumption) | with_reducible apply chg_ite | simp only [chgMk_iff, id_eq] | (with_reducible apply chgMk_intro rfl <;> first | with_reducible exact .inl (Sub.mem (by assumption) (by decide)) | with_reducible exact .inr rfl | skip) | split

theorem chg_remapTakeover {s : State} (h : Chg F s0 s) (hF : Sub [.ctxs, .ports, .board, .outbox] F) : Chg F s0 (State.remapTakeover s) := by
  unfold State.remapTakeover
  repeat' first | with_reducible exact Sub.trans (by assumption) (by decide) | intro _ | with_reducible assumption | with_reducible apply chg_foldl | with_reducible apply chg_foldl_fst | with_reducible apply chg_modCtx | with_reducible apply chg_tkoStreams | with_reducible exact chg_of_fst (by assumption) (by assumption) | with_reducible apply chg_ite | simp only [chgMk_iff, id_eq] | (with_reducible apply chgMk_intro rfl <;> first | with_reducible exact .inl (Sub.mem (by assumption) (by decide)) | with_reducible exact .inr rfl | skip) | split

theorem chg_remapReplies {s : State} (h : Chg F s0 s) (hF : Sub [.fns, .outbox] F) : Chg F s0 (State.remapReplies s) := by
  unfold State.remapReplies
  repeat' first | with_reducible exact Sub.trans (by assumption) (by decide) | intro _ | with_reducible assumption | with_reducible apply chg_foldl | with_reducible apply chg_foldl_fst | with_reducible apply chg_lateReply | with_reducible exact chg_of_fst (by assumption) (by assumption) | with_reducible apply chg_ite | simp only [chgMk_iff, id_eq] | (with_reducible apply chgMk_intro rfl <;> first | with_reducible exact .inl (Sub.mem (by assumption) (by decide)) | with_reducible exact .inr rfl | skip) | split

theorem chg_doRemapApply {s : State} (h : Chg F s0 s) (hF : Sub [.beat, .cfg, .rwiNew, .hub, .ctxs, .fns, .units, .ports, .board, .evt, .pwr, .outbox] F) : Chg F s0 (doRemapApply s) := by
  unfold doRemapApply
  repeat' first | with_reducible exact Sub.trans (by assumption) (by decide) | intro _ | with_reducible assumption | with_reducible apply chg_remapReplies | with_reducible apply chg_remapTakeover | with_reducible apply chg_applyMap | with_reducible exact chg_of_fst (by assumption) (by assumption) | with_reducible apply chg_ite | simp only [chgMk_iff, id_eq] | (with_reducible apply chgMk_intro rfl <;> first | with_reducible exact .inl (Sub.mem (by assumption) (by decide)) | with_reducible exact .inr rfl | skip) | split

theorem chg_takeoverFails {s : State} (h : Chg F s0 s) (hF : Sub [.ctxs, .fns, .board, .evt, .outbox] F) : Chg F s0 (State.takeoverFails s) := by
  unfold State.takeoverFails
  repeat' first | with_reducible exact Sub.trans (by assumption) (by decide) | intro _ | with_reducible assumption | with_reducible apply chg_foldl | with_reducible apply chg_foldl_fst | with_reducible apply chg_logDev | with_reducible apply chg_abortHalt | with_reducible exact chg_of_fst (by assumption) (by assumption) | with_reducible apply chg_ite | simp only [chgMk_iff, id_eq] | (with_reducible apply chgMk_intro rfl <;> first | with_reducible exact .inl (Sub.mem (by assumption) (by decide)) | with_reducible exact .inr rfl | skip) | split

theorem chg_sendRemap {s : State} (h : Chg F s0 s) (hF : Sub [.ports, .outbox] F) (x1 : _) (x2 : _) (x3 : _) : Chg F s0 (State.sendRemap s x1 x2 x3) := by
  unfold State.sendRemap
  repeat' first | with_reducible exact Sub.trans (by assumption) (by decide) | intro _ | with_reducible assumption | with_reducible apply chg_foldl | with_reducible apply chg_foldl_fst | with_reducible apply chg_putControl | with_reducible exact chg_of_fst (by assumption) (by assumption) | with_reducible apply chg_ite | simp only [chgMk_iff, id_eq] | (with_reducible apply chgMk_intro rfl <;> first | with_reducible exact .inl (Sub.mem (by assumption) (by decide)) | with_reducible exact .inr rfl | skip) | split

theorem chg_startTakeover {s : State} (h : Chg F s0 s) (hF : Sub [.ctxs, .fns, .ports, .board, .evt, .outbox] F) (x1 : _) : Chg F s0 (State.startTakeover s x1) := by
  unfold State.startTakeover
  repeat' first | with_reducible exact Sub.trans (by assumption) (by decide) | intro _ | with_reducible assumption | with_reducible apply chg_foldl | with_reducible apply chg_foldl_fst | with_reducible apply chg_takeoverFails | with_reducible apply chg_requestAbort | with_reducible apply chg_logDev | with_reducible apply chg_sendRemap | with_reducible exact chg_of_fst (by assumption) (by assumption) | with_reducible apply chg_ite | simp only [chgMk_iff, id_eq] | (with_reducible apply chgMk_intro rfl <;> first | with_reducible exact .inl (Sub.mem (by assumption) (by decide)) | with_reducible exact .inr rfl | skip) | split

theorem chg_doPeerFailed {s : State} (h : Chg F s0 s) (hF : Sub [.ctxs, .fns, .ports, .board, .evt, .outbox] F) (x0 : _) : Chg F s0 (doPeerFailed x0 s) := by
  unfold doPeerFailed
  repeat' first | with_reducible exact Sub.trans (by assumption) (by decide) | intro _ | with_reducible assumption | with_reducible apply chg_foldl | with_reducible apply chg_foldl_fst | with_reducible apply chg_logEvent | with_reducible apply chg_takeoverFails | with_reducible apply chg_startTakeover | with_reducible apply chg_abortHalt | with_reducible exact chg_of_fst (by assumption) (by assumption) | with_reducible apply chg_ite | simp only [chgMk_iff, id_eq] | (with_reducible apply chgMk_intro rfl <;> first | with_reducible exact .inl (Sub.mem (by assumption) (by decide)) | with_reducible exact .inr rfl | skip) | split

theorem chg_tkoPromote {s : State} (h : Chg F s0 s) (hF : Sub [.mig] F) (x1 : _) : Chg F s0 (State.tkoPromote s x1) := by
  unfold State.tkoPromote
  repeat' first | with_reducible exact Sub.trans (by assumption) (by decide) | intro _ | with_reducible assumption | with_reducible apply chg_foldl | with_reducible apply chg_foldl_fst | with_reducible apply chg_requestMove | with_reducible exact chg_of_fst (by assumption) (by assumption) | with_reducible apply chg_ite | simp only [chgMk_iff, id_eq] | (with_reducible apply chgMk_intro rfl <;> first | with_reducible exact .inl (Sub.mem (by assumption) (by decide)) | with_reducible exact .inr rfl | skip) | split

theorem chg_tkoBuild {s : State} (h : Chg F s0 s) (hF : Sub [.ctxs, .mig, .board] F) : Chg F s0 (State.tkoBuild s) := by
  unfold State.tkoBuild
  repeat' first | with_reducible exact Sub.trans (by assumption) (by decide) | intro _ | with_reducible assumption | with_reducible apply chg_foldl | with_reducible apply chg_foldl_fst | with_reducible apply chg_tkoPromote | with_reducible apply chg_modCtx | with_reducible exact chg_of_fst (by assumption) (by assumption) | with_reducible apply chg_ite | simp only [chgMk_iff, id_eq] | (with_reducible apply chgMk_intro rfl <;> first | with_reducible exact .inl (Sub.mem (by assumption) (by decide)) | with_reducible exact .inr rfl | skip) | split

theorem chg_tkoCheck {s : State} (h : Chg F s0 s) (hF : Sub [.ctxs, .fns, .mig, .board, .evt, .outbox] F) : Chg F s0 (State.tkoCheck s) := by
  unfold State.tkoCheck
  repeat' first | with_reducible exact Sub.trans (by assumption) (by decide) | intro _ | with_reducible assumption | with_reducible apply chg_foldl | with_reducible apply chg_foldl_fst | with_reducible apply chg_logDev | with_reducible apply chg_modStep | with_reducible apply chg_msix | with_reducible apply chg_tkoBuild | with_reducible exact chg_of_fst (by assumption) (by assumption) | with_reducible apply chg_ite | simp only [chgMk_iff, id_eq] | (with_reducible apply chgMk_intro rfl <;> first | with_reducible exact .inl (Sub.mem (by assumption) (by decide)) | with_reducible exact .inr rfl | skip) | split

theorem chg_doTakeoverStreamDone {s : State} (h : Chg F s0 s) (hF : Sub [.ctxs, .fns, .mig, .board, .evt, .outbox] F) (x0 : _) : Chg F s0 (doTakeoverStreamDone x0 s) := by
  unfold doTakeoverStreamDone
  repeat' first | with_reducible exact Sub.trans (by assumption) (by decide) | intro _ | with_reducible assumption | with_reducible apply chg_tkoCheck | with_reducible exact chg_of_fst (by assumption) (by assumption) | with_reducible apply chg_ite | simp only [chgMk_iff, id_eq] | (with_reducible apply chgMk_intro rfl <;> first | with_reducible exact .inl (Sub.mem (by assumption) (by decide)) | with_reducible exact .inr rfl | skip) | split

theorem chg_doTakeoverDone {s : State} (h : Chg F s0 s) (hF : Sub [.fns, .board, .evt, .outbox] F) : Chg F s0 (doTakeoverDone s) := by
  unfold doTakeoverDone
  repeat' first | with_reducible exact Sub.trans (by assumption) (by decide) | intro _ | with_reducible assumption | with_reducible apply chg_logDev | with_reducible exact chg_of_fst (by assumption) (by assumption) | with_reducible apply chg_ite | simp only [chgMk_iff, id_eq] | (with_reducible apply chgMk_intro rfl <;> first | with_reducible exact .inl (Sub.mem (by assumption) (by decide)) | with_reducible exact .inr rfl | skip) | split

theorem chg_doSpareLost {s : State} (h : Chg F s0 s) (hF : Sub [.ctxs, .fns, .board, .evt, .outbox] F) : Chg F s0 (doSpareLost s) := by
  unfold doSpareLost
  repeat' first | with_reducible exact Sub.trans (by assumption) (by decide) | intro _ | with_reducible assumption | with_reducible apply chg_takeoverFails | with_reducible apply chg_logDev | with_reducible exact chg_of_fst (by assumption) (by assumption) | with_reducible apply chg_ite | simp only [chgMk_iff, id_eq] | (with_reducible apply chgMk_intro rfl <;> first | with_reducible exact .inl (Sub.mem (by assumption) (by decide)) | with_reducible exact .inr rfl | skip) | split

theorem chg_applyStretch {s : State} (h : Chg F s0 s) (hF : Sub [.cfg] F) : Chg F s0 (State.applyStretch s) := by
  unfold State.applyStretch
  repeat' first | with_reducible exact Sub.trans (by assumption) (by decide) | intro _ | with_reducible assumption | with_reducible apply chg_arm | with_reducible apply chg_setShadow | with_reducible exact chg_of_fst (by assumption) (by assumption) | with_reducible apply chg_ite | simp only [chgMk_iff, id_eq] | (with_reducible apply chgMk_intro rfl <;> first | with_reducible exact .inl (Sub.mem (by assumption) (by decide)) | with_reducible exact .inr rfl | skip) | split

theorem chg_doStretchReport {s : State} (h : Chg F s0 s) (hF : Sub [.cfg, .board] F) (x0 : _) (x1 : _) : Chg F s0 (doStretchReport x0 x1 s) := by
  unfold doStretchReport
  repeat' first | with_reducible exact Sub.trans (by assumption) (by decide) | intro _ | with_reducible assumption | with_reducible apply chg_applyStretch | with_reducible exact chg_of_fst (by assumption) (by assumption) | with_reducible apply chg_ite | simp only [chgMk_iff, id_eq] | (with_reducible apply chgMk_intro rfl <;> first | with_reducible exact .inl (Sub.mem (by assumption) (by decide)) | with_reducible exact .inr rfl | skip) | split

theorem chg_joinKey {s : State} (h : Chg F s0 s) (hF : Sub [.fns, .evt, .boot, .outbox] F) (x1 : _) (x2 : _) : Chg F s0 (State.joinKey s x1 x2) := by
  unfold State.joinKey
  repeat' first | with_reducible exact Sub.trans (by assumption) (by decide) | intro _ | with_reducible assumption | with_reducible apply chg_logDev | with_reducible exact chg_of_fst (by assumption) (by assumption) | with_reducible apply chg_ite | simp only [chgMk_iff, id_eq] | (with_reducible apply chgMk_intro rfl <;> first | with_reducible exact .inl (Sub.mem (by assumption) (by decide)) | with_reducible exact .inr rfl | skip) | split

theorem chg_join {s : State} (h : Chg F s0 s) (hF : Sub [.beat, .cfg, .rwiNew, .hub, .fns, .board, .evt, .boot, .outbox] F) (x1 : _) (x2 : _) (x3 : _) (x4 : _) : Chg F s0 (State.join s x1 x2 x3 x4) := by
  unfold State.join
  repeat' first | with_reducible exact Sub.trans (by assumption) (by decide) | intro _ | with_reducible assumption | with_reducible apply chg_joinKey | with_reducible apply chg_arm | with_reducible apply chg_setShadow | with_reducible apply chg_becomeFollower | with_reducible exact chg_of_fst (by assumption) (by assumption) | with_reducible apply chg_ite | simp only [chgMk_iff, id_eq] | (with_reducible apply chgMk_intro rfl <;> first | with_reducible exact .inl (Sub.mem (by assumption) (by decide)) | with_reducible exact .inr rfl | skip) | split

theorem chg_doBoardJoin {s : State} (h : Chg F s0 s) (hF : Sub [.beat, .cfg, .rwiNew, .hub, .fns, .board, .evt, .boot, .outbox] F) (x0 : _) (x1 : _) (x2 : _) (x3 : _) (x4 : _) (x5 : _) : Chg F s0 (doBoardJoin x0 x1 x2 x3 x4 x5 s) := by
  unfold doBoardJoin
  repeat' first | with_reducible exact Sub.trans (by assumption) (by decide) | intro _ | with_reducible assumption | with_reducible apply chg_command | with_reducible apply chg_logEvent | with_reducible apply chg_join | with_reducible exact chg_of_fst (by assumption) (by assumption) | with_reducible apply chg_ite | simp only [chgMk_iff, id_eq] | (with_reducible apply chgMk_intro rfl <;> first | with_reducible exact .inl (Sub.mem (by assumption) (by decide)) | with_reducible exact .inr rfl | skip) | split

theorem chg_doBoardRemap {s : State} (h : Chg F s0 s) (hF : Sub [.fns, .ports, .board, .evt, .outbox] F) (x0 : _) (x1 : _) (x2 : _) (x3 : _) : Chg F s0 (doBoardRemap x0 x1 x2 x3 s) := by
  unfold doBoardRemap
  repeat' first | with_reducible exact Sub.trans (by assumption) (by decide) | intro _ | with_reducible assumption | with_reducible apply chg_command | with_reducible apply chg_sendRemap | with_reducible exact chg_of_fst (by assumption) (by assumption) | with_reducible apply chg_ite | simp only [chgMk_iff, id_eq] | (with_reducible apply chgMk_intro rfl <;> first | with_reducible exact .inl (Sub.mem (by assumption) (by decide)) | with_reducible exact .inr rfl | skip) | split

theorem chg_tellFail {s : State} (h : Chg F s0 s) (hF : Sub [.fns, .ports, .board, .evt, .outbox] F) (x1 : _) : Chg F s0 (State.tellFail s x1) := by
  unfold State.tellFail
  repeat' first | with_reducible exact Sub.trans (by assumption) (by decide) | intro _ | with_reducible assumption | with_reducible apply chg_putControl | with_reducible apply chg_logEvent | with_reducible exact chg_of_fst (by assumption) (by assumption) | with_reducible apply chg_ite | simp only [chgMk_iff, id_eq] | (with_reducible apply chgMk_intro rfl <;> first | with_reducible exact .inl (Sub.mem (by assumption) (by decide)) | with_reducible exact .inr rfl | skip) | split

theorem chg_doSpareTakeover {s : State} (h : Chg F s0 s) (hF : Sub [.ctxs, .fns, .ports, .board, .evt, .outbox] F) (x0 : _) (x1 : _) : Chg F s0 (doSpareTakeover x0 x1 s) := by
  unfold doSpareTakeover
  repeat' first | with_reducible exact Sub.trans (by assumption) (by decide) | intro _ | with_reducible assumption | with_reducible apply chg_command | with_reducible apply chg_startTakeover | with_reducible apply chg_tellFail | with_reducible exact chg_of_fst (by assumption) (by assumption) | with_reducible apply chg_ite | simp only [chgMk_iff, id_eq] | (with_reducible apply chgMk_intro rfl <;> first | with_reducible exact .inl (Sub.mem (by assumption) (by decide)) | with_reducible exact .inr rfl | skip) | split

theorem chg_doMirrorSet {s : State} (h : Chg F s0 s) (hF : Sub [.ctxs, .fns, .board, .evt, .outbox] F) (x0 : _) (x1 : _) (x2 : _) (x3 : _) (x4 : _) (x5 : _) : Chg F s0 (doMirrorSet x0 x1 x2 x3 x4 x5 s) := by
  unfold doMirrorSet
  repeat' first | with_reducible exact Sub.trans (by assumption) (by decide) | intro _ | with_reducible assumption | with_reducible apply chg_command | with_reducible apply chg_modCtx | with_reducible exact chg_of_fst (by assumption) (by assumption) | with_reducible apply chg_ite | simp only [chgMk_iff, id_eq] | (with_reducible apply chgMk_intro rfl <;> first | with_reducible exact .inl (Sub.mem (by assumption) (by decide)) | with_reducible exact .inr rfl | skip) | split

theorem chg_doHello {s : State} (h : Chg F s0 s) (hF : Sub [.fns, .evt, .outbox] F) (x0 : _) : Chg F s0 (doHello x0 s) := by
  unfold doHello
  repeat' first | with_reducible exact Sub.trans (by assumption) (by decide) | intro _ | with_reducible assumption | with_reducible apply chg_command | with_reducible apply chg_modFn | with_reducible exact chg_of_fst (by assumption) (by assumption) | with_reducible apply chg_ite | simp only [chgMk_iff, id_eq] | (with_reducible apply chgMk_intro rfl <;> first | with_reducible exact .inl (Sub.mem (by assumption) (by decide)) | with_reducible exact .inr rfl | skip) | split

theorem chg_openPart {s : State} (h : Chg F s0 s) (hF : Sub [.board] F) (x1 : _) : Chg F s0 (State.openPart s x1) := by
  unfold State.openPart
  repeat' first | with_reducible exact Sub.trans (by assumption) (by decide) | intro _ | with_reducible assumption | with_reducible exact chg_of_fst (by assumption) (by assumption) | with_reducible apply chg_ite | simp only [chgMk_iff, id_eq] | (with_reducible apply chgMk_intro rfl <;> first | with_reducible exact .inl (Sub.mem (by assumption) (by decide)) | with_reducible exact .inr rfl | skip) | split

theorem chg_openCtx {s : State} (h : Chg F s0 s) (hF : Sub [.tiles, .ctxs, .units, .board, .pwr] F) (x1 : _) (x2 : _) (x3 : _) : Chg F s0 (State.openCtx s x1 x2 x3) := by
  unfold State.openCtx
  repeat' first | with_reducible exact Sub.trans (by assumption) (by decide) | intro _ | with_reducible assumption | with_reducible apply chg_foldl | with_reducible apply chg_foldl_fst | with_reducible apply chg_modCtx | with_reducible apply chg_requestWake | with_reducible apply chg_modTile | with_reducible apply chg_openPart | with_reducible exact chg_of_fst (by assumption) (by assumption) | with_reducible apply chg_ite | simp only [chgMk_iff, id_eq] | (with_reducible apply chgMk_intro rfl <;> first | with_reducible exact .inl (Sub.mem (by assumption) (by decide)) | with_reducible exact .inr rfl | skip) | split

theorem chg_doCtxOpen {s : State} (h : Chg F s0 s) (hF : Sub [.tiles, .ctxs, .fns, .units, .board, .evt, .pwr, .outbox] F) (x0 : _) (x1 : _) : Chg F s0 (doCtxOpen x0 x1 s) := by
  unfold doCtxOpen
  repeat' first | with_reducible exact Sub.trans (by assumption) (by decide) | intro _ | with_reducible assumption | with_reducible apply chg_command | with_reducible apply chg_openCtx | with_reducible exact chg_of_fst (by assumption) (by assumption) | with_reducible apply chg_ite | simp only [chgMk_iff, id_eq] | (with_reducible apply chgMk_intro rfl <;> first | with_reducible exact .inl (Sub.mem (by assumption) (by decide)) | with_reducible exact .inr rfl | skip) | split

theorem chg_doCtxClose {s : State} (h : Chg F s0 s) (hF : Sub [.beat, .arbs, .tiles, .ctxs, .fns, .units, .poison, .place, .mig, .xfers, .upds, .contribs, .rsigs, .heldWrites, .board, .cel, .evt, .pwr, .outbox] F) (x0 : _) : Chg F s0 (doCtxClose x0 s) := by
  unfold doCtxClose
  repeat' first | with_reducible exact Sub.trans (by assumption) (by decide) | intro _ | with_reducible assumption | with_reducible apply chg_command | with_reducible apply chg_endDetached | with_reducible apply chg_closeCtx | with_reducible apply chg_hostAbort | with_reducible exact chg_of_fst (by assumption) (by assumption) | with_reducible apply chg_ite | simp only [chgMk_iff, id_eq] | (with_reducible apply chgMk_intro rfl <;> first | with_reducible exact .inl (Sub.mem (by assumption) (by decide)) | with_reducible exact .inr rfl | skip) | split

theorem chg_setSpills {s : State} (h : Chg F s0 s) (hF : Sub [.tiles] F) (x1 : _) : Chg F s0 (State.setSpills s x1) := by
  unfold State.setSpills
  repeat' first | with_reducible exact Sub.trans (by assumption) (by decide) | intro _ | with_reducible assumption | with_reducible apply chg_foldl | with_reducible apply chg_foldl_fst | with_reducible apply chg_modTile | with_reducible exact chg_of_fst (by assumption) (by assumption) | with_reducible apply chg_ite | simp only [chgMk_iff, id_eq] | (with_reducible apply chgMk_intro rfl <;> first | with_reducible exact .inl (Sub.mem (by assumption) (by decide)) | with_reducible exact .inr rfl | skip) | split

theorem chg_setDefer {s : State} (h : Chg F s0 s) (hF : Sub [.ctxs] F) (x1 : _) : Chg F s0 (State.setDefer s x1) := by
  unfold State.setDefer
  repeat' first | with_reducible exact Sub.trans (by assumption) (by decide) | intro _ | with_reducible assumption | with_reducible apply chg_foldl | with_reducible apply chg_foldl_fst | with_reducible apply chg_modCtx | with_reducible exact chg_of_fst (by assumption) (by assumption) | with_reducible apply chg_ite | simp only [chgMk_iff, id_eq] | (with_reducible apply chgMk_intro rfl <;> first | with_reducible exact .inl (Sub.mem (by assumption) (by decide)) | with_reducible exact .inr rfl | skip) | split

theorem chg_setAreas {s : State} (h : Chg F s0 s) (hF : Sub [.tiles, .ctxs, .place] F) (x1 : _) : Chg F s0 (State.setAreas s x1) := by
  unfold State.setAreas
  repeat' first | with_reducible exact Sub.trans (by assumption) (by decide) | intro _ | with_reducible assumption | with_reducible apply chg_repin | with_reducible apply chg_setDefer | with_reducible apply chg_setSpills | with_reducible exact chg_of_fst (by assumption) (by assumption) | with_reducible apply chg_ite | simp only [chgMk_iff, id_eq] | (with_reducible apply chgMk_intro rfl <;> first | with_reducible exact .inl (Sub.mem (by assumption) (by decide)) | with_reducible exact .inr rfl | skip) | split

theorem chg_shrink {s : State} (h : Chg F s0 s) (hF : Sub [.mig] F) (x1 : _) : Chg F s0 (State.shrink s x1).1 := by
  unfold State.shrink
  repeat' first | with_reducible exact Sub.trans (by assumption) (by decide) | intro _ | with_reducible assumption | with_reducible apply chg_foldl | with_reducible apply chg_foldl_fst | with_reducible apply chg_requestMove | with_reducible exact chg_of_fst (by assumption) (by assumption) | with_reducible apply chg_ite | simp only [chgMk_iff, id_eq] | (with_reducible apply chgMk_intro rfl <;> first | with_reducible exact .inl (Sub.mem (by assumption) (by decide)) | with_reducible exact .inr rfl | skip) | split

theorem chg_setQuota {s : State} (h : Chg F s0 s) (hF : Sub [.tiles, .ctxs, .place] F) (x1 : _) (x2 : _) : Chg F s0 (State.setQuota s x1 x2) := by
  unfold State.setQuota
  repeat' first | with_reducible exact Sub.trans (by assumption) (by decide) | intro _ | with_reducible assumption | with_reducible apply chg_setAreas | with_reducible apply chg_modCtx | with_reducible exact chg_of_fst (by assumption) (by assumption) | with_reducible apply chg_ite | simp only [chgMk_iff, id_eq] | (with_reducible apply chgMk_intro rfl <;> first | with_reducible exact .inl (Sub.mem (by assumption) (by decide)) | with_reducible exact .inr rfl | skip) | split

theorem chg_doCtxQuotaSet {s : State} (h : Chg F s0 s) (hF : Sub [.tiles, .ctxs, .fns, .place, .mig, .evt, .outbox] F) (x0 : _) (x1 : _) : Chg F s0 (doCtxQuotaSet x0 x1 s) := by
  unfold doCtxQuotaSet
  repeat' first | with_reducible exact Sub.trans (by assumption) (by decide) | intro _ | with_reducible assumption | with_reducible apply chg_command | with_reducible apply chg_setQuota | with_reducible apply chg_shrink | with_reducible exact chg_of_fst (by assumption) (by assumption) | with_reducible apply chg_ite | simp only [chgMk_iff, id_eq] | (with_reducible apply chgMk_intro rfl <;> first | with_reducible exact .inl (Sub.mem (by assumption) (by decide)) | with_reducible exact .inr rfl | skip) | split

theorem chg_clearWindow {s : State} (h : Chg F s0 s) (hF : Sub [.rwi, .rwiNew] F) (x1 : _) : Chg F s0 (State.clearWindow s x1) := by
  unfold State.clearWindow
  repeat' first | with_reducible exact Sub.trans (by assumption) (by decide) | intro _ | with_reducible assumption | with_reducible exact chg_of_fst (by assumption) (by assumption) | with_reducible apply chg_ite | simp only [chgMk_iff, id_eq] | (with_reducible apply chgMk_intro rfl <;> first | with_reducible exact .inl (Sub.mem (by assumption) (by decide)) | with_reducible exact .inr rfl | skip) | split

theorem chg_adopt {s : State} (h : Chg F s0 s) (hF : Sub [.rwi, .rwiNew, .ctxs, .fns, .place, .mig, .cel, .evt, .outbox] F) (x1 : _) (x2 : _) : Chg F s0 (State.adopt s x1 x2) := by
  unfold State.adopt
  repeat' first | with_reducible exact Sub.trans (by assumption) (by decide) | intro _ | with_reducible assumption | with_reducible apply chg_foldl | with_reducible apply chg_foldl_fst | with_reducible apply chg_unmapRegion | with_reducible apply chg_modCtx | with_reducible apply chg_clearWindow | with_reducible apply chg_msix | with_reducible apply chg_logEvent | with_reducible exact chg_of_fst (by assumption) (by assumption) | with_reducible apply chg_ite | simp only [chgMk_iff, id_eq] | (with_reducible apply chgMk_intro rfl <;> first | with_reducible exact .inl (Sub.mem (by assumption) (by decide)) | with_reducible exact .inr rfl | skip) | split

theorem chg_doCtxAdopt {s : State} (h : Chg F s0 s) (hF : Sub [.rwi, .rwiNew, .ctxs, .fns, .place, .mig, .cel, .evt, .outbox] F) (x0 : _) : Chg F s0 (doCtxAdopt x0 s) := by
  unfold doCtxAdopt
  repeat' first | with_reducible exact Sub.trans (by assumption) (by decide) | intro _ | with_reducible assumption | with_reducible apply chg_command | with_reducible apply chg_adopt | with_reducible exact chg_of_fst (by assumption) (by assumption) | with_reducible apply chg_ite | simp only [chgMk_iff, id_eq] | (with_reducible apply chgMk_intro rfl <;> first | with_reducible exact .inl (Sub.mem (by assumption) (by decide)) | with_reducible exact .inr rfl | skip) | split

theorem chg_doResetFunc {s : State} (h : Chg F s0 s) (hF : Sub [.beat, .rwi, .rwiNew, .arbs, .tiles, .ctxs, .fns, .units, .mem, .poison, .place, .mig, .xfers, .upds, .contribs, .rsigs, .heldWrites, .board, .cel, .evt, .outbox] F) (x0 : _) : Chg F s0 (doResetFunc x0 s) := by
  unfold doResetFunc
  repeat' first | with_reducible exact Sub.trans (by assumption) (by decide) | intro _ | with_reducible assumption | with_reducible apply chg_command | with_reducible apply chg_startL2 | with_reducible exact chg_of_fst (by assumption) (by assumption) | with_reducible apply chg_ite | simp only [chgMk_iff, id_eq] | (with_reducible apply chgMk_intro rfl <;> first | with_reducible exact .inl (Sub.mem (by assumption) (by decide)) | with_reducible exact .inr rfl | skip) | split

theorem chg_doResetDevice {s : State} (h : Chg F s0 s) (hF : Sub [.beat, .cfg, .rwi, .rwiNew, .old, .hub, .arbs, .tiles, .ctxs, .fns, .hports, .units, .mem, .poison, .hdrs, .hdrPoison, .place, .mig, .ras, .xfers, .upds, .contribs, .rsigs, .heldWrites, .ports, .board, .cel, .evt, .boot, .pwr, .outbox] F) (x0 : _) : Chg F s0 (doResetDevice x0 s) := by
  unfold doResetDevice
  repeat' first | with_reducible exact Sub.trans (by assumption) (by decide) | intro _ | with_reducible assumption | with_reducible apply chg_command | with_reducible apply chg_startL3 | with_reducible exact chg_of_fst (by assumption) (by assumption) | with_reducible apply chg_ite | simp only [chgMk_iff, id_eq] | (with_reducible apply chgMk_intro rfl <;> first | with_reducible exact .inl (Sub.mem (by assumption) (by decide)) | with_reducible exact .inr rfl | skip) | split

theorem chg_placeAll {s : State} (h : Chg F s0 s) (hF : Sub [.place] F) (c : Nat) (r : Region) (n l : Nat) :
    ∀ t, placeAll c r n l s = some t → Chg F s0 t := by
  induction n generalizing s l with
  | zero => intro t e; cases e; exact h
  | succ n ih =>
    intro t e
    unfold placeAll at e
    split at e
    · cases e
    · exact ih (chg_modPent h (Sub.trans hF (by decide)) _ _) _ _ e

theorem chg_mapped {s : State} (h : Chg F s0 s) (hF : Sub [.place] F) (c : Nat) (r : MapReq) : ∀ t, s.mapped c r = some t → Chg F s0 t.1 := by
  intro t e
  unfold State.mapped at e
  simp only [] at e
  repeat' split at e
  all_goals first
    | (cases e; done)
    | (cases e; exact h)
    | skip
  rw [Option.map_eq_some_iff] at e
  obtain ⟨a, ha, e⟩ := e
  subst e
  exact chg_placeAll h (Sub.trans hF (by decide)) _ _ _ _ _ ha

theorem chg_addRegion {s : State} (h : Chg F s0 s) (hF : Sub [.tiles, .ctxs, .place, .mig] F) (x1 : _) (x2 : _) : Chg F s0 (State.addRegion s x1 x2) := by
  unfold State.addRegion
  repeat' first | with_reducible exact Sub.trans (by assumption) (by decide) | intro _ | with_reducible assumption | with_reducible apply chg_modCtx | with_reducible apply chg_repin | with_reducible apply chg_setAreas | with_reducible exact chg_of_fst (by assumption) (by assumption) | with_reducible apply chg_ite | simp only [chgMk_iff, id_eq] | (with_reducible apply chgMk_intro rfl <;> first | with_reducible exact .inl (Sub.mem (by assumption) (by decide)) | with_reducible exact .inr rfl | skip) | split

theorem chg_doMemMap {s : State} (h : Chg F s0 s) (hF : Sub [.tiles, .ctxs, .fns, .place, .mig, .evt, .outbox] F) (x : ReqHdr) (r : MapReq) : Chg F s0 (doMemMap x r s) := by
  unfold doMemMap
  refine chg_command h (Sub.trans hF (by decide)) _ _ _ _ _ _ (fun s hs => ?_) fun _ hs => hs
  split
  · rename_i t y e
    exact chg_addRegion (chg_mapped hs (Sub.trans hF (by decide)) _ _ (t, y) e) (Sub.trans hF (by decide)) _ _
  · exact hs

theorem chg_doMemUnmap {s : State} (h : Chg F s0 s) (hF : Sub [.ctxs, .fns, .place, .mig, .cel, .evt, .outbox] F) (x0 : _) (x1 : _) : Chg F s0 (doMemUnmap x0 x1 s) := by
  unfold doMemUnmap
  repeat' first | with_reducible exact Sub.trans (by assumption) (by decide) | intro _ | with_reducible assumption | with_reducible apply chg_command | with_reducible apply chg_unmapRegion | with_reducible exact chg_of_fst (by assumption) (by assumption) | with_reducible apply chg_ite | simp only [chgMk_iff, id_eq] | (with_reducible apply chgMk_intro rfl <;> first | with_reducible exact .inl (Sub.mem (by assumption) (by decide)) | with_reducible exact .inr rfl | skip) | split

theorem chg_pinAll {s : State} (h : Chg F s0 s) (hF : Sub [.place, .mig] F) (x1 : _) (x2 : _) : Chg F s0 (State.pinAll s x1 x2).1 := by
  unfold State.pinAll
  repeat' first | with_reducible exact Sub.trans (by assumption) (by decide) | intro _ | with_reducible assumption | with_reducible apply chg_foldl | with_reducible apply chg_foldl_fst | with_reducible apply chg_modPent | with_reducible apply chg_requestMove | with_reducible exact chg_of_fst (by assumption) (by assumption) | with_reducible apply chg_ite | simp only [chgMk_iff, id_eq] | (with_reducible apply chgMk_intro rfl <;> first | with_reducible exact .inl (Sub.mem (by assumption) (by decide)) | with_reducible exact .inr rfl | skip) | split

theorem chg_doMemPin {s : State} (h : Chg F s0 s) (hF : Sub [.fns, .place, .mig, .evt, .outbox] F) (x0 : _) (x1 : _) (x2 : _) (x3 : _) : Chg F s0 (doMemPin x0 x1 x2 x3 s) := by
  unfold doMemPin
  repeat' first | with_reducible exact Sub.trans (by assumption) (by decide) | intro _ | with_reducible assumption | with_reducible apply chg_command | with_reducible apply chg_pinAll | with_reducible exact chg_of_fst (by assumption) (by assumption) | with_reducible apply chg_ite | simp only [chgMk_iff, id_eq] | (with_reducible apply chgMk_intro rfl <;> first | with_reducible exact .inl (Sub.mem (by assumption) (by decide)) | with_reducible exact .inr rfl | skip) | split

theorem chg_doMemUnpin {s : State} (h : Chg F s0 s) (hF : Sub [.fns, .place, .evt, .outbox] F) (x0 : _) (x1 : _) (x2 : _) : Chg F s0 (doMemUnpin x0 x1 x2 s) := by
  unfold doMemUnpin
  repeat' first | with_reducible exact Sub.trans (by assumption) (by decide) | intro _ | with_reducible assumption | with_reducible apply chg_foldl | with_reducible apply chg_foldl_fst | with_reducible apply chg_command | with_reducible apply chg_modPent | with_reducible exact chg_of_fst (by assumption) (by assumption) | with_reducible apply chg_ite | simp only [chgMk_iff, id_eq] | (with_reducible apply chgMk_intro rfl <;> first | with_reducible exact .inl (Sub.mem (by assumption) (by decide)) | with_reducible exact .inr rfl | skip) | split

theorem chg_doMemHint {s : State} (h : Chg F s0 s) (hF : Sub [.fns, .mig, .evt, .outbox] F) (x0 : _) (x1 : _) (x2 : _) (x3 : _) : Chg F s0 (doMemHint x0 x1 x2 x3 s) := by
  unfold doMemHint
  repeat' first | with_reducible exact Sub.trans (by assumption) (by decide) | intro _ | with_reducible assumption | with_reducible apply chg_foldl | with_reducible apply chg_foldl_fst | with_reducible apply chg_command | with_reducible apply chg_requestMove | with_reducible exact chg_of_fst (by assumption) (by assumption) | with_reducible apply chg_ite | simp only [chgMk_iff, id_eq] | (with_reducible apply chgMk_intro rfl <;> first | with_reducible exact .inl (Sub.mem (by assumption) (by decide)) | with_reducible exact .inr rfl | skip) | split

theorem chg_getRelease {s : State} (h : Chg F s0 s) (hF : Sub [.old, .tiles, .mem, .poison] F) (x1 : _) (x2 : _) : Chg F s0 (State.getRelease s x1 x2) := by
  unfold State.getRelease
  repeat' first | with_reducible exact Sub.trans (by assumption) (by decide) | intro _ | with_reducible assumption | with_reducible apply chg_setCask | with_reducible exact chg_of_fst (by assumption) (by assumption) | with_reducible apply chg_ite | simp only [chgMk_iff, id_eq] | (with_reducible apply chgMk_intro rfl <;> first | with_reducible exact .inl (Sub.mem (by assumption) (by decide)) | with_reducible exact .inr rfl | skip) | split

theorem chg_complete {s : State} (h : Chg F s0 s) (hF : Sub [.old, .arbs, .tiles, .ctxs, .fns, .mem, .poison, .place, .mig, .xfers, .evt, .outbox] F) (x1 : _) (x2 : _) (x3 : _) : Chg F s0 (State.complete s x1 x2 x3) := by
  unfold State.complete
  repeat' first | with_reducible exact Sub.trans (by assumption) (by decide) | intro _ | with_reducible assumption | with_reducible apply chg_settle | with_reducible apply chg_endGrants | with_reducible apply chg_retire | with_reducible exact chg_of_fst (by assumption) (by assumption) | with_reducible apply chg_ite | simp only [chgMk_iff, id_eq] | (with_reducible apply chgMk_intro rfl <;> first | with_reducible exact .inl (Sub.mem (by assumption) (by decide)) | with_reducible exact .inr rfl | skip) | split

theorem chg_doInsnComplete {s : State} (h : Chg F s0 s) (hF : Sub [.old, .arbs, .tiles, .ctxs, .fns, .mem, .poison, .place, .mig, .xfers, .evt, .outbox] F) (x0 : _) (x1 : _) (x2 : _) : Chg F s0 (doInsnComplete x0 x1 x2 s) := by
  unfold doInsnComplete
  repeat' first | with_reducible exact Sub.trans (by assumption) (by decide) | intro _ | with_reducible assumption | with_reducible apply chg_complete | with_reducible apply chg_getRelease | with_reducible apply chg_consume | with_reducible exact chg_of_fst (by assumption) (by assumption) | with_reducible apply chg_ite | simp only [chgMk_iff, id_eq] | (with_reducible apply chgMk_intro rfl <;> first | with_reducible exact .inl (Sub.mem (by assumption) (by decide)) | with_reducible exact .inr rfl | skip) | split

theorem chg_dropReleased {s : State} (h : Chg F s0 s) (hF : Sub [.tiles, .xfers] F) (x1 : _) : Chg F s0 (State.dropReleased s x1) := by
  unfold State.dropReleased
  repeat' first | with_reducible exact Sub.trans (by assumption) (by decide) | intro _ | with_reducible assumption | with_reducible apply chg_modTile | with_reducible exact chg_of_fst (by assumption) (by assumption) | with_reducible apply chg_ite | simp only [chgMk_iff, id_eq] | (with_reducible apply chgMk_intro rfl <;> first | with_reducible exact .inl (Sub.mem (by assumption) (by decide)) | with_reducible exact .inr rfl | skip) | split

theorem chg_endReqs {s : State} (h : Chg F s0 s) (hF : Sub [.mig, .xfers] F) (x1 : _) : Chg F s0 (State.endReqs s x1) := by
  unfold State.endReqs
  repeat' first | with_reducible exact Sub.trans (by assumption) (by decide) | intro _ | with_reducible assumption | with_reducible apply chg_freeTags | with_reducible apply chg_modXfer | with_reducible exact chg_of_fst (by assumption) (by assumption) | with_reducible apply chg_ite | simp only [chgMk_iff, id_eq] | (with_reducible apply chgMk_intro rfl <;> first | with_reducible exact .inl (Sub.mem (by assumption) (by decide)) | with_reducible exact .inr rfl | skip) | split

theorem chg_moveXfer {s : State} (h : Chg F s0 s) (hF : Sub [.old, .tiles, .ctxs, .fns, .mem, .poison, .hdrs, .hdrPoison, .place, .mig, .ras, .xfers, .contribs, .rsigs, .ports, .evt, .outbox] F) (x1 : _) (x2 : _) (x3 : _) (x4 : _) : Chg F s0 (State.moveXfer s x1 x2 x3 x4) := by
  unfold State.moveXfer
  repeat' first | with_reducible exact Sub.trans (by assumption) (by decide) | intro _ | with_reducible assumption | with_reducible apply chg_foldl | with_reducible apply chg_foldl_fst | with_reducible apply chg_rasFind | with_reducible apply chg_dmaRun | with_reducible apply chg_asBefore | with_reducible apply chg_linkMove | with_reducible apply chg_postMove | with_reducible apply chg_dropReleased | with_reducible apply chg_endReqs | with_reducible apply chg_afterAll | with_reducible exact chg_of_fst (by assumption) (by assumption) | with_reducible apply chg_ite | simp only [chgMk_iff, id_eq] | (with_reducible apply chgMk_intro rfl <;> first | with_reducible exact .inl (Sub.mem (by assumption) (by decide)) | with_reducible exact .inr rfl | skip) | split

theorem chg_doHostCompletionTimeout {s : State} (h : Chg F s0 s) (hF : Sub [.old, .tiles, .ctxs, .fns, .mem, .poison, .hdrs, .hdrPoison, .place, .mig, .ras, .xfers, .contribs, .rsigs, .ports, .evt, .outbox] F) (x0 : _) : Chg F s0 (doHostCompletionTimeout x0 s) := by
  unfold doHostCompletionTimeout
  repeat' first | with_reducible exact Sub.trans (by assumption) (by decide) | intro _ | with_reducible assumption | with_reducible apply chg_moveXfer | with_reducible exact chg_of_fst (by assumption) (by assumption) | with_reducible apply chg_ite | simp only [chgMk_iff, id_eq] | (with_reducible apply chgMk_intro rfl <;> first | with_reducible exact .inl (Sub.mem (by assumption) (by decide)) | with_reducible exact .inr rfl | skip) | split

theorem chg_winFail {s : State} (h : Chg F s0 s) (hF : Sub [.fns, .evt, .outbox] F) (x1 : _) (x2 : _) (x3 : _) (x4 : _) : Chg F s0 (State.winFail s x1 x2 x3 x4) := by
  unfold State.winFail
  repeat' first | with_reducible exact Sub.trans (by assumption) (by decide) | intro _ | with_reducible assumption | with_reducible apply chg_modFn | with_reducible apply chg_logEvent | with_reducible exact chg_of_fst (by assumption) (by assumption) | with_reducible apply chg_ite | simp only [chgMk_iff, id_eq] | (with_reducible apply chgMk_intro rfl <;> first | with_reducible exact .inl (Sub.mem (by assumption) (by decide)) | with_reducible exact .inr rfl | skip) | split

theorem chg_flagsVisible {s : State} (h : Chg F s0 s) (hF : Sub [.fns, .rsigs] F) (x1 : _) : Chg F s0 (State.flagsVisible s x1) := by
  unfold State.flagsVisible
  repeat' first | with_reducible exact Sub.trans (by assumption) (by decide) | intro _ | with_reducible assumption | with_reducible apply chg_foldl | with_reducible apply chg_foldl_fst | with_reducible apply chg_modFn | with_reducible exact chg_of_fst (by assumption) (by assumption) | with_reducible apply chg_ite | simp only [chgMk_iff, id_eq] | (with_reducible apply chgMk_intro rfl <;> first | with_reducible exact .inl (Sub.mem (by assumption) (by decide)) | with_reducible exact .inr rfl | skip) | split

theorem chg_landWrite {s : State} (h : Chg F s0 s) (hF : Sub [.fns, .mem, .poison, .hdrs, .hdrPoison, .place, .mig, .rsigs, .evt, .outbox] F) (x1 : _) : Chg F s0 (State.landWrite s x1) := by
  unfold State.landWrite
  repeat' first | with_reducible exact Sub.trans (by assumption) (by decide) | intro _ | with_reducible assumption | with_reducible apply chg_winFail | with_reducible apply chg_putRowCa | with_reducible apply chg_heatCa | with_reducible apply chg_flagsVisible | with_reducible exact chg_of_fst (by assumption) (by assumption) | with_reducible apply chg_ite | simp only [chgMk_iff, id_eq] | (with_reducible apply chgMk_intro rfl <;> first | with_reducible exact .inl (Sub.mem (by assumption) (by decide)) | with_reducible exact .inr rfl | skip) | split

theorem chg_landHeld (l e : List HeldWrite) {s : State} (h : Chg F s0 s) (hF : Sub [.fns, .mem, .poison, .hdrs, .hdrPoison, .place, .mig, .rsigs, .heldWrites, .evt, .outbox] F) : Chg F s0 (landHeld e l s) := by
  induction l generalizing s e with
  | nil => exact chg_up_heldWrites h (hF _ (by decide)) _
  | cons w r ih =>
    unfold landHeld
    exact chg_ite (ih _ (chg_landWrite h (Sub.trans hF (by decide)) _)) (ih _ h)

theorem chg_releaseHeld {s : State} (h : Chg F s0 s) (hF : Sub [.fns, .mem, .poison, .hdrs, .hdrPoison, .place, .mig, .rsigs, .heldWrites, .evt, .outbox] F) : Chg F s0 (State.releaseHeld s) := by
  unfold State.releaseHeld
  repeat' first | with_reducible exact Sub.trans (by assumption) (by decide) | intro _ | with_reducible assumption | with_reducible apply chg_foldl | with_reducible apply chg_foldl_fst | with_reducible apply chg_landHeld | with_reducible apply chg_unblock | with_reducible exact chg_of_fst (by assumption) (by assumption) | with_reducible apply chg_ite | simp only [chgMk_iff, id_eq] | (with_reducible apply chgMk_intro rfl <;> first | with_reducible exact .inl (Sub.mem (by assumption) (by decide)) | with_reducible exact .inr rfl | skip) | split

theorem chg_flagWide {s : State} (h : Chg F s0 s) (hF : Sub [.ctxs, .fns, .hports, .evt, .outbox] F) (x1 : _) (x2 : _) : Chg F s0 (State.flagWide s x1 x2) := by
  unfold State.flagWide
  repeat' first | with_reducible exact Sub.trans (by assumption) (by decide) | intro _ | with_reducible assumption | with_reducible apply chg_modHport | with_reducible apply chg_modStep | with_reducible apply chg_logEvent | with_reducible exact chg_of_fst (by assumption) (by assumption) | with_reducible apply chg_ite | simp only [chgMk_iff, id_eq] | (with_reducible apply chgMk_intro rfl <;> first | with_reducible exact .inl (Sub.mem (by assumption) (by decide)) | with_reducible exact .inr rfl | skip) | split

theorem chg_takeWrite {s : State} (h : Chg F s0 s) (hF : Sub [.ctxs, .fns, .hports, .mem, .poison, .hdrs, .hdrPoison, .place, .mig, .rsigs, .heldWrites, .evt, .outbox] F) (x1 : _) : Chg F s0 (State.takeWrite s x1) := by
  unfold State.takeWrite
  repeat' first | with_reducible exact Sub.trans (by assumption) (by decide) | intro _ | with_reducible assumption | with_reducible apply chg_foldl | with_reducible apply chg_foldl_fst | with_reducible apply chg_flagWide | with_reducible apply chg_landWrite | with_reducible apply chg_unblock | with_reducible apply chg_modHport | with_reducible exact chg_of_fst (by assumption) (by assumption) | with_reducible apply chg_ite | simp only [chgMk_iff, id_eq] | (with_reducible apply chgMk_intro rfl <;> first | with_reducible exact .inl (Sub.mem (by assumption) (by decide)) | with_reducible exact .inr rfl | skip) | split

theorem chg_doWindowWrite {s : State} (h : Chg F s0 s) (hF : Sub [.ctxs, .fns, .hports, .mem, .poison, .hdrs, .hdrPoison, .place, .mig, .rsigs, .heldWrites, .evt, .outbox] F) (x0 : _) (x1 : _) (x2 : _) (x3 : _) (x4 : _) (x5 : _) : Chg F s0 (doWindowWrite x0 x1 x2 x3 x4 x5 s) := by
  unfold doWindowWrite
  repeat' first | with_reducible exact Sub.trans (by assumption) (by decide) | intro _ | with_reducible assumption | with_reducible apply chg_modFn | with_reducible apply chg_winFail | with_reducible apply chg_takeWrite | with_reducible exact chg_of_fst (by assumption) (by assumption) | with_reducible apply chg_ite | simp only [chgMk_iff, id_eq] | (with_reducible apply chgMk_intro rfl <;> first | with_reducible exact .inl (Sub.mem (by assumption) (by decide)) | with_reducible exact .inr rfl | skip) | split

theorem chg_landFlag (l e : List HeldWrite) {s : State} (h : Chg F s0 s) (hF : Sub [.fns, .mem, .poison, .hdrs, .hdrPoison, .place, .mig, .rsigs, .heldWrites, .evt, .outbox] F) (f n : Nat) : Chg F s0 (landFlag f n e l s) := by
  induction l generalizing s e with
  | nil => exact h
  | cons w r ih =>
    unfold landFlag
    exact chg_ite (chg_landWrite (chg_up_heldWrites h (hF _ (by decide)) _) (Sub.trans hF (by decide)) _) (ih _ h)

theorem chg_doFlagVisible {s : State} (h : Chg F s0 s) (hF : Sub [.fns, .mem, .poison, .hdrs, .hdrPoison, .place, .mig, .rsigs, .heldWrites, .evt, .outbox] F) (x0 : _) (x1 : _) : Chg F s0 (doFlagVisible x0 x1 s) := by
  unfold doFlagVisible
  repeat' first | with_reducible exact Sub.trans (by assumption) (by decide) | intro _ | with_reducible assumption | with_reducible apply chg_releaseHeld | with_reducible apply chg_landFlag | with_reducible exact chg_of_fst (by assumption) (by assumption) | with_reducible apply chg_ite | simp only [chgMk_iff, id_eq] | (with_reducible apply chgMk_intro rfl <;> first | with_reducible exact .inl (Sub.mem (by assumption) (by decide)) | with_reducible exact .inr rfl | skip) | split

theorem chg_doWindowRead {s : State} (h : Chg F s0 s) (hF : Sub [.fns, .place, .mig, .evt, .outbox] F) (x0 : _) (x1 : _) (x2 : _) (x3 : _) : Chg F s0 (doWindowRead x0 x1 x2 x3 s) := by
  unfold doWindowRead
  repeat' first | with_reducible exact Sub.trans (by assumption) (by decide) | intro _ | with_reducible assumption | with_reducible apply chg_send | with_reducible apply chg_modFn | with_reducible apply chg_winFail | with_reducible apply chg_hostFail | with_reducible apply chg_countWait | with_reducible apply chg_heatCa | with_reducible exact chg_of_fst (by assumption) (by assumption) | with_reducible apply chg_ite | simp only [chgMk_iff, id_eq] | (with_reducible apply chgMk_intro rfl <;> first | with_reducible exact .inl (Sub.mem (by assumption) (by decide)) | with_reducible exact .inr rfl | skip) | split

theorem chg_doMoveComplete {s : State} (h : Chg F s0 s) (hF : Sub [.arbs, .ctxs, .fns, .units, .mem, .poison, .hdrs, .hdrPoison, .place, .mig, .upds, .rsigs, .heldWrites, .cel, .evt, .outbox] F) (x0 : _) : Chg F s0 (doMoveComplete x0 s) := by
  unfold doMoveComplete
  repeat' first | with_reducible exact Sub.trans (by assumption) (by decide) | intro _ | with_reducible assumption | with_reducible apply chg_finishMove | with_reducible apply chg_releaseHeld | with_reducible apply chg_deferArrive | with_reducible apply chg_withdraw | with_reducible exact chg_of_fst (by assumption) (by assumption) | with_reducible apply chg_ite | simp only [chgMk_iff, id_eq] | (with_reducible apply chgMk_intro rfl <;> first | with_reducible exact .inl (Sub.mem (by assumption) (by decide)) | with_reducible exact .inr rfl | skip) | split

theorem chg_clearDir {s : State} (h : Chg F s0 s) (hF : Sub [.mem, .poison] F) (x1 : _) : Chg F s0 (State.clearDir s x1) := by
  unfold State.clearDir
  repeat' first | with_reducible exact Sub.trans (by assumption) (by decide) | intro _ | with_reducible assumption | with_reducible apply chg_zero | with_reducible exact chg_of_fst (by assumption) (by assumption) | with_reducible apply chg_ite | simp only [chgMk_iff, id_eq] | (with_reducible apply chgMk_intro rfl <;> first | with_reducible exact .inl (Sub.mem (by assumption) (by decide)) | with_reducible exact .inr rfl | skip) | split

theorem chg_loadProg {s : State} (h : Chg F s0 s) (hF : Sub [.tiles, .ctxs, .fns, .units, .mem, .poison, .place, .evt, .outbox] F) (x1 : _) (x2 : _) (x3 : _) (x4 : _) : Chg F s0 (State.loadProg s x1 x2 x3 x4) := by
  unfold State.loadProg
  repeat' first | with_reducible exact Sub.trans (by assumption) (by decide) | intro _ | with_reducible assumption | with_reducible apply chg_foldl | with_reducible apply chg_foldl_fst | with_reducible apply chg_reloadTile | with_reducible apply chg_clearDir | with_reducible apply chg_modTile | with_reducible apply chg_repin | with_reducible apply chg_modCtx | with_reducible exact chg_of_fst (by assumption) (by assumption) | with_reducible apply chg_ite | simp only [chgMk_iff, id_eq] | (with_reducible apply chgMk_intro rfl <;> first | with_reducible exact .inl (Sub.mem (by assumption) (by decide)) | with_reducible exact .inr rfl | skip) | split

theorem chg_doProgLoad {s : State} (h : Chg F s0 s) (hF : Sub [.tiles, .ctxs, .fns, .units, .mem, .poison, .place, .evt, .outbox] F) (x0 : _) (x1 : _) (x2 : _) : Chg F s0 (doProgLoad x0 x1 x2 s) := by
  unfold doProgLoad
  repeat' first | with_reducible exact Sub.trans (by assumption) (by decide) | intro _ | with_reducible assumption | with_reducible apply chg_command | with_reducible apply chg_loadProg | with_reducible exact chg_of_fst (by assumption) (by assumption) | with_reducible apply chg_ite | simp only [chgMk_iff, id_eq] | (with_reducible apply chgMk_intro rfl <;> first | with_reducible exact .inl (Sub.mem (by assumption) (by decide)) | with_reducible exact .inr rfl | skip) | split

theorem chg_doProgUnload {s : State} (h : Chg F s0 s) (hF : Sub [.arbs, .tiles, .ctxs, .fns, .place, .evt, .outbox] F) (x0 : _) : Chg F s0 (doProgUnload x0 s) := by
  unfold doProgUnload
  repeat' first | with_reducible exact Sub.trans (by assumption) (by decide) | intro _ | with_reducible assumption | with_reducible apply chg_command | with_reducible apply chg_unloadProg | with_reducible exact chg_of_fst (by assumption) (by assumption) | with_reducible apply chg_ite | simp only [chgMk_iff, id_eq] | (with_reducible apply chgMk_intro rfl <;> first | with_reducible exact .inl (Sub.mem (by assumption) (by decide)) | with_reducible exact .inr rfl | skip) | split

theorem chg_doStepArm {s : State} (h : Chg F s0 s) (hF : Sub [.ctxs, .fns, .evt, .outbox] F) (x0 : _) (x1 : _) (x2 : _) : Chg F s0 (doStepArm x0 x1 x2 s) := by
  unfold doStepArm
  repeat' first | with_reducible exact Sub.trans (by assumption) (by decide) | intro _ | with_reducible assumption | with_reducible apply chg_command | with_reducible apply chg_modStep | with_reducible exact chg_of_fst (by assumption) (by assumption) | with_reducible apply chg_ite | simp only [chgMk_iff, id_eq] | (with_reducible apply chgMk_intro rfl <;> first | with_reducible exact .inl (Sub.mem (by assumption) (by decide)) | with_reducible exact .inr rfl | skip) | split

theorem chg_runAgain {s : State} (h : Chg F s0 s) (hF : Sub [.beat, .ctxs, .fns, .mig, .board, .evt, .outbox] F) (x1 : _) : Chg F s0 (State.runAgain s x1) := by
  unfold State.runAgain
  repeat' first | with_reducible exact Sub.trans (by assumption) (by decide) | intro _ | with_reducible assumption | with_reducible apply chg_logLevel | with_reducible apply chg_modCtx | with_reducible apply chg_tkoCheck | with_reducible exact chg_of_fst (by assumption) (by assumption) | with_reducible apply chg_ite | simp only [chgMk_iff, id_eq] | (with_reducible apply chgMk_intro rfl <;> first | with_reducible exact .inl (Sub.mem (by assumption) (by decide)) | with_reducible exact .inr rfl | skip) | split

theorem chg_doStepRun {s : State} (h : Chg F s0 s) (hF : Sub [.beat, .ctxs, .fns, .mig, .board, .evt, .outbox] F) (x0 : _) : Chg F s0 (doStepRun x0 s) := by
  unfold doStepRun
  repeat' first | with_reducible exact Sub.trans (by assumption) (by decide) | intro _ | with_reducible assumption | with_reducible apply chg_command | with_reducible apply chg_runAgain | with_reducible apply chg_modStep | with_reducible exact chg_of_fst (by assumption) (by assumption) | with_reducible apply chg_ite | simp only [chgMk_iff, id_eq] | (with_reducible apply chgMk_intro rfl <;> first | with_reducible exact .inl (Sub.mem (by assumption) (by decide)) | with_reducible exact .inr rfl | skip) | split

theorem chg_endRun {s : State} (h : Chg F s0 s) (hF : Sub [.beat, .ctxs] F) (x1 : _) : Chg F s0 (State.endRun s x1) := by
  unfold State.endRun
  repeat' first | with_reducible exact Sub.trans (by assumption) (by decide) | intro _ | with_reducible assumption | with_reducible apply chg_modStep | with_reducible exact chg_of_fst (by assumption) (by assumption) | with_reducible apply chg_ite | simp only [chgMk_iff, id_eq] | (with_reducible apply chgMk_intro rfl <;> first | with_reducible exact .inl (Sub.mem (by assumption) (by decide)) | with_reducible exact .inr rfl | skip) | split

theorem chg_doStepAbort {s : State} (h : Chg F s0 s) (hF : Sub [.beat, .ctxs, .fns, .evt, .outbox] F) (x0 : _) : Chg F s0 (doStepAbort x0 s) := by
  unfold doStepAbort
  repeat' first | with_reducible exact Sub.trans (by assumption) (by decide) | intro _ | with_reducible assumption | with_reducible apply chg_command | with_reducible apply chg_endRun | with_reducible apply chg_hostAbort | with_reducible exact chg_of_fst (by assumption) (by assumption) | with_reducible apply chg_ite | simp only [chgMk_iff, id_eq] | (with_reducible apply chgMk_intro rfl <;> first | with_reducible exact .inl (Sub.mem (by assumption) (by decide)) | with_reducible exact .inr rfl | skip) | split

theorem chg_doStepStatus {s : State} (h : Chg F s0 s) (hF : Sub [.fns, .evt, .outbox] F) (x0 : _) : Chg F s0 (doStepStatus x0 s) := by
  unfold doStepStatus
  repeat' first | with_reducible exact Sub.trans (by assumption) (by decide) | intro _ | with_reducible assumption | with_reducible apply chg_command | with_reducible exact chg_of_fst (by assumption) (by assumption) | with_reducible apply chg_ite | simp only [chgMk_iff, id_eq] | (with_reducible apply chgMk_intro rfl <;> first | with_reducible exact .inl (Sub.mem (by assumption) (by decide)) | with_reducible exact .inr rfl | skip) | split

theorem chg_tableBuild {s : State} (h : Chg F s0 s) (hF : Sub [.ctxs, .fns, .place, .mig, .evt, .outbox] F) (x1 : _) (x2 : _) (x3 : _) (x4 : _) (x5 : _) (x6 : _) : Chg F s0 (State.tableBuild s x1 x2 x3 x4 x5 x6) := by
  unfold State.tableBuild
  repeat' first | with_reducible exact Sub.trans (by assumption) (by decide) | intro _ | with_reducible assumption | with_reducible apply chg_logDev | with_reducible apply chg_modTable | with_reducible apply chg_heatCa | with_reducible exact chg_of_fst (by assumption) (by assumption) | with_reducible apply chg_ite | simp only [chgMk_iff, id_eq] | (with_reducible apply chgMk_intro rfl <;> first | with_reducible exact .inl (Sub.mem (by assumption) (by decide)) | with_reducible exact .inr rfl | skip) | split

theorem chg_doTableBuild {s : State} (h : Chg F s0 s) (hF : Sub [.ctxs, .fns, .place, .mig, .evt, .outbox] F) (x0 : _) (x1 : _) (x2 : _) (x3 : _) (x4 : _) (x5 : _) : Chg F s0 (doTableBuild x0 x1 x2 x3 x4 x5 s) := by
  unfold doTableBuild
  repeat' first | with_reducible exact Sub.trans (by assumption) (by decide) | intro _ | with_reducible assumption | with_reducible apply chg_command | with_reducible apply chg_tableBuild | with_reducible exact chg_of_fst (by assumption) (by assumption) | with_reducible apply chg_ite | simp only [chgMk_iff, id_eq] | (with_reducible apply chgMk_intro rfl <;> first | with_reducible exact .inl (Sub.mem (by assumption) (by decide)) | with_reducible exact .inr rfl | skip) | split

theorem chg_doTableLoad {s : State} (h : Chg F s0 s) (hF : Sub [.ctxs, .fns, .evt, .outbox] F) (x0 : _) (x1 : _) (x2 : _) : Chg F s0 (doTableLoad x0 x1 x2 s) := by
  unfold doTableLoad
  repeat' first | with_reducible exact Sub.trans (by assumption) (by decide) | intro _ | with_reducible assumption | with_reducible apply chg_command | with_reducible apply chg_modTable | with_reducible exact chg_of_fst (by assumption) (by assumption) | with_reducible apply chg_ite | simp only [chgMk_iff, id_eq] | (with_reducible apply chgMk_intro rfl <;> first | with_reducible exact .inl (Sub.mem (by assumption) (by decide)) | with_reducible exact .inr rfl | skip) | split

theorem chg_toHost (l : List (List Byte)) {s : State} (h : Chg F s0 s) (hF : Sub [.fns, .rsigs, .evt, .outbox] F) (c ca : Nat) : Chg F s0 (s.toHost c ca l).1 := by
  induction l generalizing s ca with
  | nil => exact h
  | cons w r ih =>
    unfold State.toHost
    split
    · exact chg_hostFail h (Sub.trans hF (by decide)) _ _
    · refine ih (chg_foldl h fun b a hb => ?_) _
      split
      · exact chg_hostPut hb (Sub.trans hF (by decide)) _ _ _ _ _
      · exact hb

theorem chg_takeFrames {s : State} (h : Chg F s0 s) (hF : Sub [.cel] F) (n : Nat) : ∀ t, takeFrames n s = some t → Chg F s0 t := by
  induction n generalizing s with
  | zero => intro t e; cases e; exact h
  | succ n ih =>
    intro t e
    unfold takeFrames at e
    split at e
    · cases e
    · split at e
      · cases e
      · exact ih (chg_up_cel (chg_celStart h (Sub.trans hF (by decide)) _ _ _ (by assumption)) (hF _ (by decide)) _) _ e

theorem chg_sealCel {s : State} (h : Chg F s0 s) (hF : Sub [.fns, .cel, .evt, .boot, .outbox] F) (c : Nat) (id : Word) : ∀ t, s.sealCel c id = some t → Chg F s0 t := by
  intro t e
  unfold State.sealCel at e
  simp only [] at e
  split at e
  · cases e
  · exact chg_takeFrames (chg_celCharge (chg_up_boot (chg_up_cel h (hF _ (by decide)) _) (hF _ (by decide)) _) (Sub.trans hF (by decide)) _) (Sub.trans hF (by decide)) _ _ e

theorem chg_startSeal {s : State} (h : Chg F s0 s) (hF : Sub [.fns, .rsigs, .cel, .evt, .boot, .outbox] F) (c : Nat) (id : Word) (d x : Nat) : Chg F s0 (s.startSeal c id d x).1 := by
  unfold State.startSeal
  simp only []
  split
  · split
    · exact chg_getD (chg_sealCel h (Sub.trans hF (by decide)) _ _) h
    · exact h
  · exact chg_toHost _ (chg_up_boot h (hF _ (by decide)) _) (Sub.trans hF (by decide)) _ _

theorem chg_doCkptDelete {s : State} (h : Chg F s0 s) (hF : Sub [.fns, .poison, .cel, .evt, .outbox] F) (x0 : _) (x1 : _) : Chg F s0 (doCkptDelete x0 x1 s) := by
  unfold doCkptDelete
  repeat' first | with_reducible exact Sub.trans (by assumption) (by decide) | intro _ | with_reducible assumption | with_reducible apply chg_command | with_reducible apply chg_freeCkpt | with_reducible exact chg_of_fst (by assumption) (by assumption) | with_reducible apply chg_ite | simp only [chgMk_iff, id_eq] | (with_reducible apply chgMk_intro rfl <;> first | with_reducible exact .inl (Sub.mem (by assumption) (by decide)) | with_reducible exact .inr rfl | skip) | split

theorem chg_doCkptSeal {s : State} (h : Chg F s0 s) (hF : Sub [.fns, .poison, .rsigs, .cel, .evt, .boot, .outbox] F) (x : ReqHdr) (id : Word) (d a : Nat) : Chg F s0 (doCkptSeal x id d a s) := by
  unfold doCkptSeal
  exact chg_ite (chg_doCkptDelete h (Sub.trans hF (by decide)) _ _) (chg_command h (Sub.trans hF (by decide)) _ _ _ _ _ _ (fun _ hs => chg_startSeal hs (Sub.trans hF (by decide)) _ _ _ _) fun _ hs => hs)

theorem chg_logTag {s : State} (h : Chg F s0 s) (hF : Sub [.fns, .evt, .outbox] F) (x1 : _) (x2 : _) : Chg F s0 (State.logTag s x1 x2) := by
  unfold State.logTag
  repeat' first | with_reducible exact Sub.trans (by assumption) (by decide) | intro _ | with_reducible assumption | with_reducible apply chg_logDev | with_reducible exact chg_of_fst (by assumption) (by assumption) | with_reducible apply chg_ite | simp only [chgMk_iff, id_eq] | (with_reducible apply chgMk_intro rfl <;> first | with_reducible exact .inl (Sub.mem (by assumption) (by decide)) | with_reducible exact .inr rfl | skip) | split

theorem chg_restore {s : State} (h : Chg F s0 s) (hF : Sub [.ctxs, .fns, .mem, .poison, .hdrs, .hdrPoison, .place, .mig, .evt, .outbox] F) (x1 : _) (x2 : _) : Chg F s0 (State.restore s x1 x2) := by
  unfold State.restore
  repeat' first | with_reducible exact Sub.trans (by assumption) (by decide) | intro _ | with_reducible assumption | with_reducible apply chg_foldl | with_reducible apply chg_foldl_fst | with_reducible apply chg_modCtx | with_reducible apply chg_wrEngine | with_reducible apply chg_heatCa | with_reducible exact chg_of_fst (by assumption) (by assumption) | with_reducible apply chg_ite | simp only [chgMk_iff, id_eq] | (with_reducible apply chgMk_intro rfl <;> first | with_reducible exact .inl (Sub.mem (by assumption) (by decide)) | with_reducible exact .inr rfl | skip) | split

theorem chg_doCkptRestore {s : State} (h : Chg F s0 s) (hF : Sub [.ctxs, .fns, .mem, .poison, .hdrs, .hdrPoison, .place, .mig, .evt, .outbox] F) (x0 : _) (x1 : _) (x2 : _) (x3 : _) (x4 : _) (x5 : _) : Chg F s0 (doCkptRestore x0 x1 x2 x3 x4 x5 s) := by
  unfold doCkptRestore
  repeat' first | with_reducible exact Sub.trans (by assumption) (by decide) | intro _ | with_reducible assumption | with_reducible apply chg_command | with_reducible apply chg_logTag | with_reducible apply chg_restore | with_reducible exact chg_of_fst (by assumption) (by assumption) | with_reducible apply chg_ite | simp only [chgMk_iff, id_eq] | (with_reducible apply chgMk_intro rfl <;> first | with_reducible exact .inl (Sub.mem (by assumption) (by decide)) | with_reducible exact .inr rfl | skip) | split

theorem chg_doStateExport {s : State} (h : Chg F s0 s) (hF : Sub [.fns, .rsigs, .evt, .outbox] F) (x0 : _) (x1 : _) : Chg F s0 (doStateExport x0 x1 s) := by
  unfold doStateExport
  repeat' first | with_reducible exact Sub.trans (by assumption) (by decide) | intro _ | with_reducible assumption | with_reducible apply chg_command | with_reducible apply chg_toHost | with_reducible exact chg_of_fst (by assumption) (by assumption) | with_reducible apply chg_ite | simp only [chgMk_iff, id_eq] | (with_reducible apply chgMk_intro rfl <;> first | with_reducible exact .inl (Sub.mem (by assumption) (by decide)) | with_reducible exact .inr rfl | skip) | split

theorem chg_cmdEnd {s : State} (h : Chg F s0 s) (hF : Sub [.tiles, .ctxs, .fns, .place, .mig, .cel, .evt, .boot, .outbox] F) (k : Cmd) : ∀ t, s.cmdEnd k = some t → Chg F s0 t.1 := by
  intro t e
  unfold State.cmdEnd at e
  simp only [] at e
  repeat' split at e
  all_goals first
    | (cases e; done)
    | (cases e; exact h)
    | (cases e; exact chg_sealCel h (Sub.trans hF (by decide)) _ _ _ (by assumption))
    | (cases e; exact chg_foldl (chg_up_mig (chg_up_mig h (hF _ (by decide)) _) (hF _ (by decide)) _) fun _ _ hb => chg_modPent hb (Sub.trans hF (by decide)) _ _)
    | (cases e; exact chg_setAreas (chg_modCtx (chg_up_mig h (hF _ (by decide)) _) (Sub.trans hF (by decide)) _ _) (Sub.trans hF (by decide)) _)

theorem chg_startWaiting {s : State} (h : Chg F s0 s) (hF : Sub [.fns, .cel, .evt, .boot, .outbox] F) (f : Nat) : Chg F s0 (s.startWaiting f) := by
  unfold State.startWaiting
  split
  · rename_i k t w e
    obtain ⟨k', _, ek⟩ := List.exists_of_findSome?_eq_some e
    split at ek
    · split at ek
      · rw [Option.map_eq_some_iff] at ek
        obtain ⟨a, ha, ea⟩ := ek
        cases ea
        exact chg_modFn (chg_sealCel h (Sub.trans hF (by decide)) _ _ _ ha) (Sub.trans hF (by decide)) _ _
      · cases ek
    · cases ek
  · exact h

theorem chg_doCmdDone {s : State} (h : Chg F s0 s) (hF : Sub [.tiles, .ctxs, .fns, .place, .mig, .cel, .evt, .boot, .outbox] F) (f : Nat) : Chg F s0 (doCmdDone f s) := by
  unfold doCmdDone
  simp only []
  have hw := chg_startWaiting h (Sub.trans hF (by decide)) f
  split
  · exact hw
  · rename_i k t st reply e
    obtain ⟨k', _, ek⟩ := List.exists_of_findSome?_eq_some e
    rw [Option.map_eq_some_iff] at ek
    obtain ⟨r, hr, er⟩ := ek
    cases er
    exact chg_doneEntry (chg_cmdEnd hw (Sub.trans hF (by decide)) _ _ hr) (Sub.trans hF (by decide)) _ _ _ _

theorem chg_whenPowered {s : State} (h : Chg F s0 s) (hF : Sub [] F) (f : State → State) (hf : ∀ s, Chg F s0 s → Chg F s0 (f s)) :
    Chg F s0 (whenPowered s f) := by
  unfold whenPowered
  split
  · exact hf _ h
  · exact h

theorem chg_doHostPortTrained {s : State} (h : Chg F s0 s) (hF : Sub [.fns, .hports, .evt, .outbox] F) (x0 : _) (x1 : _) (x2 : _) (x3 : _) : Chg F s0 (doHostPortTrained x0 x1 x2 x3 s) := by
  unfold doHostPortTrained
  repeat' first | with_reducible exact Sub.trans (by assumption) (by decide) | intro _ | with_reducible assumption | with_reducible apply chg_modHport | with_reducible apply chg_logEvent | with_reducible exact chg_of_fst (by assumption) (by assumption) | with_reducible apply chg_ite | simp only [chgMk_iff, id_eq] | (with_reducible apply chgMk_intro rfl <;> first | with_reducible exact .inl (Sub.mem (by assumption) (by decide)) | with_reducible exact .inr rfl | skip) | split

theorem chg_freezePort {s : State} (h : Chg F s0 s) (hF : Sub [.ctxs, .fns, .evt, .outbox] F) (x1 : _) : Chg F s0 (State.freezePort s x1) := by
  unfold State.freezePort
  repeat' first | with_reducible exact Sub.trans (by assumption) (by decide) | intro _ | with_reducible assumption | with_reducible apply chg_foldl | with_reducible apply chg_foldl_fst | with_reducible apply chg_modCtx | with_reducible apply chg_logEvent | with_reducible apply chg_msix | with_reducible exact chg_of_fst (by assumption) (by assumption) | with_reducible apply chg_ite | simp only [chgMk_iff, id_eq] | (with_reducible apply chgMk_intro rfl <;> first | with_reducible exact .inl (Sub.mem (by assumption) (by decide)) | with_reducible exact .inr rfl | skip) | split

theorem chg_losePort {s : State} (h : Chg F s0 s) (hF : Sub [.rwi, .rwiNew, .ctxs, .fns, .hports, .evt, .outbox] F) (x1 : _) : Chg F s0 (State.losePort s x1) := by
  unfold State.losePort
  repeat' first | with_reducible exact Sub.trans (by assumption) (by decide) | intro _ | with_reducible assumption | with_reducible apply chg_foldl | with_reducible apply chg_foldl_fst | with_reducible apply chg_modHport | with_reducible apply chg_freezePort | with_reducible apply chg_fnReset | with_reducible exact chg_of_fst (by assumption) (by assumption) | with_reducible apply chg_ite | simp only [chgMk_iff, id_eq] | (with_reducible apply chgMk_intro rfl <;> first | with_reducible exact .inl (Sub.mem (by assumption) (by decide)) | with_reducible exact .inr rfl | skip) | split

theorem chg_doPerst {s : State} (h : Chg F s0 s) (hF : Sub [.beat, .cfg, .rwi, .rwiNew, .old, .hub, .arbs, .tiles, .ctxs, .fns, .hports, .units, .mem, .poison, .hdrs, .hdrPoison, .place, .mig, .ras, .xfers, .upds, .contribs, .rsigs, .heldWrites, .ports, .board, .cel, .evt, .boot, .pwr, .outbox] F) (x0 : _) : Chg F s0 (doPerst x0 s) := by
  unfold doPerst
  repeat' first | with_reducible exact Sub.trans (by assumption) (by decide) | intro _ | with_reducible assumption | with_reducible apply chg_losePort | with_reducible apply chg_modHport | with_reducible apply chg_takeL3 | with_reducible exact chg_of_fst (by assumption) (by assumption) | with_reducible apply chg_ite | simp only [chgMk_iff, id_eq] | (with_reducible apply chgMk_intro rfl <;> first | with_reducible exact .inl (Sub.mem (by assumption) (by decide)) | with_reducible exact .inr rfl | skip) | split

theorem chg_setVfs {s : State} (h : Chg F s0 s) (hF : Sub [.rwi, .rwiNew, .fns, .hports] F) (x1 : _) (x2 : _) (x3 : _) : Chg F s0 (State.setVfs s x1 x2 x3) := by
  unfold State.setVfs
  repeat' first | with_reducible exact Sub.trans (by assumption) (by decide) | intro _ | with_reducible assumption | with_reducible apply chg_foldl | with_reducible apply chg_foldl_fst | with_reducible apply chg_modHport | with_reducible apply chg_modFn | with_reducible apply chg_fnReset | with_reducible exact chg_of_fst (by assumption) (by assumption) | with_reducible apply chg_ite | simp only [chgMk_iff, id_eq] | (with_reducible apply chgMk_intro rfl <;> first | with_reducible exact .inl (Sub.mem (by assumption) (by decide)) | with_reducible exact .inr rfl | skip) | split

theorem chg_doFunctionLevelReset {s : State} (h : Chg F s0 s) (hF : Sub [.beat, .rwi, .rwiNew, .arbs, .tiles, .ctxs, .fns, .hports, .units, .mem, .poison, .place, .mig, .xfers, .upds, .contribs, .rsigs, .heldWrites, .board, .cel, .evt, .outbox] F) (x0 : _) : Chg F s0 (doFunctionLevelReset x0 s) := by
  unfold doFunctionLevelReset
  repeat' first | with_reducible exact Sub.trans (by assumption) (by decide) | intro _ | with_reducible assumption | with_reducible apply chg_startL2 | with_reducible apply chg_setVfs | with_reducible exact chg_of_fst (by assumption) (by assumption) | with_reducible apply chg_ite | simp only [chgMk_iff, id_eq] | (with_reducible apply chgMk_intro rfl <;> first | with_reducible exact .inl (Sub.mem (by assumption) (by decide)) | with_reducible exact .inr rfl | skip) | split

theorem chg_doModRst {s : State} (h : Chg F s0 s) (hF : Sub [.beat, .cfg, .rwi, .rwiNew, .old, .hub, .arbs, .tiles, .ctxs, .fns, .hports, .units, .mem, .poison, .hdrs, .hdrPoison, .place, .mig, .ras, .xfers, .upds, .contribs, .rsigs, .heldWrites, .ports, .board, .cel, .evt, .boot, .pwr, .outbox] F) (x0 : _) : Chg F s0 (doModRst x0 s) := by
  unfold doModRst
  repeat' first | with_reducible exact Sub.trans (by assumption) (by decide) | intro _ | with_reducible assumption | with_reducible apply chg_startL3 | with_reducible exact chg_of_fst (by assumption) (by assumption) | with_reducible apply chg_ite | simp only [chgMk_iff, id_eq] | (with_reducible apply chgMk_intro rfl <;> first | with_reducible exact .inl (Sub.mem (by assumption) (by decide)) | with_reducible exact .inr rfl | skip) | split

theorem chg_doModRstRelease {s : State} (h : Chg F s0 s) (hF : Sub [.beat, .cfg, .rwiNew, .hub, .fns, .evt, .boot, .pwr, .outbox] F) : Chg F s0 (doModRstRelease s) := by
  unfold doModRstRelease
  repeat' first | with_reducible exact Sub.trans (by assumption) (by decide) | intro _ | with_reducible assumption | with_reducible apply chg_endL3 | with_reducible exact chg_of_fst (by assumption) (by assumption) | with_reducible apply chg_ite | simp only [chgMk_iff, id_eq] | (with_reducible apply chgMk_intro rfl <;> first | with_reducible exact .inl (Sub.mem (by assumption) (by decide)) | with_reducible exact .inr rfl | skip) | split

theorem chg_stage {s : State} (h : Chg F s0 s) (hF : Sub [.boot] F) (x1 : _) (x2 : _) (x3 : _) (x4 : _) : Chg F s0 (State.stage s x1 x2 x3 x4).1 := by
  unfold State.stage
  repeat' first | with_reducible exact Sub.trans (by assumption) (by decide) | intro _ | with_reducible assumption | with_reducible exact chg_of_fst (by assumption) (by assumption) | with_reducible apply chg_ite | simp only [chgMk_iff, id_eq] | (with_reducible apply chgMk_intro rfl <;> first | with_reducible exact .inl (Sub.mem (by assumption) (by decide)) | with_reducible exact .inr rfl | skip) | split

theorem chg_doCfgStage {s : State} (h : Chg F s0 s) (hF : Sub [.fns, .evt, .boot, .outbox] F) (x0 : _) (x1 : _) (x2 : _) : Chg F s0 (doCfgStage x0 x1 x2 s) := by
  unfold doCfgStage
  repeat' first | with_reducible exact Sub.trans (by assumption) (by decide) | intro _ | with_reducible assumption | with_reducible apply chg_command | with_reducible apply chg_stage | with_reducible exact chg_of_fst (by assumption) (by assumption) | with_reducible apply chg_ite | simp only [chgMk_iff, id_eq] | (with_reducible apply chgMk_intro rfl <;> first | with_reducible exact .inl (Sub.mem (by assumption) (by decide)) | with_reducible exact .inr rfl | skip) | split

theorem chg_commitBundle {s : State} (h : Chg F s0 s) (hF : Sub [.boot] F) : Chg F s0 (State.commitBundle s) := by
  unfold State.commitBundle
  repeat' first | with_reducible exact Sub.trans (by assumption) (by decide) | intro _ | with_reducible assumption | with_reducible exact chg_of_fst (by assumption) (by assumption) | with_reducible apply chg_ite | simp only [chgMk_iff, id_eq] | (with_reducible apply chgMk_intro rfl <;> first | with_reducible exact .inl (Sub.mem (by assumption) (by decide)) | with_reducible exact .inr rfl | skip) | split

theorem chg_doCfgCommit {s : State} (h : Chg F s0 s) (hF : Sub [.beat, .cfg, .rwi, .rwiNew, .old, .hub, .arbs, .tiles, .ctxs, .fns, .hports, .units, .mem, .poison, .hdrs, .hdrPoison, .place, .mig, .ras, .xfers, .upds, .contribs, .rsigs, .heldWrites, .ports, .board, .cel, .evt, .boot, .pwr, .outbox] F) (x0 : _) : Chg F s0 (doCfgCommit x0 s) := by
  unfold doCfgCommit
  repeat' first | with_reducible exact Sub.trans (by assumption) (by decide) | intro _ | with_reducible assumption | with_reducible apply chg_command | with_reducible apply chg_takeL3 | with_reducible apply chg_commitBundle | with_reducible apply chg_logDev | with_reducible exact chg_of_fst (by assumption) (by assumption) | with_reducible apply chg_ite | simp only [chgMk_iff, id_eq] | (with_reducible apply chgMk_intro rfl <;> first | with_reducible exact .inl (Sub.mem (by assumption) (by decide)) | with_reducible exact .inr rfl | skip) | split

theorem chg_doCfgRevert {s : State} (h : Chg F s0 s) (hF : Sub [.beat, .cfg, .rwi, .rwiNew, .old, .hub, .arbs, .tiles, .ctxs, .fns, .hports, .units, .mem, .poison, .hdrs, .hdrPoison, .place, .mig, .ras, .xfers, .upds, .contribs, .rsigs, .heldWrites, .ports, .board, .cel, .evt, .boot, .pwr, .outbox] F) (x0 : _) : Chg F s0 (doCfgRevert x0 s) := by
  unfold doCfgRevert
  repeat' first | with_reducible exact Sub.trans (by assumption) (by decide) | intro _ | with_reducible assumption | with_reducible apply chg_command | with_reducible apply chg_takeL3 | with_reducible apply chg_revert | with_reducible exact chg_of_fst (by assumption) (by assumption) | with_reducible apply chg_ite | simp only [chgMk_iff, id_eq] | (with_reducible apply chgMk_intro rfl <;> first | with_reducible exact .inl (Sub.mem (by assumption) (by decide)) | with_reducible exact .inr rfl | skip) | split

theorem chg_doProbationEnd {s : State} (h : Chg F s0 s) (hF : Sub [.fns, .evt, .boot, .outbox] F) : Chg F s0 (doProbationEnd s) := by
  unfold doProbationEnd
  repeat' first | with_reducible exact Sub.trans (by assumption) (by decide) | intro _ | with_reducible assumption | with_reducible apply chg_logDev | with_reducible exact chg_of_fst (by assumption) (by assumption) | with_reducible apply chg_ite | simp only [chgMk_iff, id_eq] | (with_reducible apply chgMk_intro rfl <;> first | with_reducible exact .inl (Sub.mem (by assumption) (by decide)) | with_reducible exact .inr rfl | skip) | split

theorem chg_quotePart {s : State} (h : Chg F s0 s) (hF : Sub [.fns] F) (x1 : _) : Chg F s0 (State.quotePart s x1).1 := by
  unfold State.quotePart
  repeat' first | with_reducible exact Sub.trans (by assumption) (by decide) | intro _ | with_reducible assumption | with_reducible apply chg_modFn | with_reducible exact chg_of_fst (by assumption) (by assumption) | with_reducible apply chg_ite | simp only [chgMk_iff, id_eq] | (with_reducible apply chgMk_intro rfl <;> first | with_reducible exact .inl (Sub.mem (by assumption) (by decide)) | with_reducible exact .inr rfl | skip) | split

theorem chg_doAttestQuote {s : State} (h : Chg F s0 s) (hF : Sub [.fns, .evt, .outbox] F) (x0 : _) (x1 : _) : Chg F s0 (doAttestQuote x0 x1 s) := by
  unfold doAttestQuote
  repeat' first | with_reducible exact Sub.trans (by assumption) (by decide) | intro _ | with_reducible assumption | with_reducible apply chg_command | with_reducible apply chg_quotePart | with_reducible apply chg_modFn | with_reducible exact chg_of_fst (by assumption) (by assumption) | with_reducible apply chg_ite | simp only [chgMk_iff, id_eq] | (with_reducible apply chgMk_intro rfl <;> first | with_reducible exact .inl (Sub.mem (by assumption) (by decide)) | with_reducible exact .inr rfl | skip) | split

theorem chg_doIdentityGet {s : State} (h : Chg F s0 s) (hF : Sub [.fns, .evt, .outbox] F) (x0 : _) (x1 : _) : Chg F s0 (doIdentityGet x0 x1 s) := by
  unfold doIdentityGet
  repeat' first | with_reducible exact Sub.trans (by assumption) (by decide) | intro _ | with_reducible assumption | with_reducible apply chg_command | with_reducible exact chg_of_fst (by assumption) (by assumption) | with_reducible apply chg_ite | simp only [chgMk_iff, id_eq] | (with_reducible apply chgMk_intro rfl <;> first | with_reducible exact .inl (Sub.mem (by assumption) (by decide)) | with_reducible exact .inr rfl | skip) | split

theorem chg_doEventRead {s : State} (h : Chg F s0 s) (hF : Sub [.fns, .evt, .outbox] F) (x0 : _) (x1 : _) (x2 : _) : Chg F s0 (doEventRead x0 x1 x2 s) := by
  unfold doEventRead
  repeat' first | with_reducible exact Sub.trans (by assumption) (by decide) | intro _ | with_reducible assumption | with_reducible apply chg_command | with_reducible exact chg_of_fst (by assumption) (by assumption) | with_reducible apply chg_ite | simp only [chgMk_iff, id_eq] | (with_reducible apply chgMk_intro rfl <;> first | with_reducible exact .inl (Sub.mem (by assumption) (by decide)) | with_reducible exact .inr rfl | skip) | split

theorem chg_doTelemetryRead {s : State} (h : Chg F s0 s) (hF : Sub [.fns, .evt, .outbox] F) (x0 : _) : Chg F s0 (doTelemetryRead x0 s) := by
  unfold doTelemetryRead
  repeat' first | with_reducible exact Sub.trans (by assumption) (by decide) | intro _ | with_reducible assumption | with_reducible apply chg_command | with_reducible exact chg_of_fst (by assumption) (by assumption) | with_reducible apply chg_ite | simp only [chgMk_iff, id_eq] | (with_reducible apply chgMk_intro rfl <;> first | with_reducible exact .inl (Sub.mem (by assumption) (by decide)) | with_reducible exact .inr rfl | skip) | split

theorem chg_doMctpMessage {s : State} (h : Chg F s0 s) (hF : Sub [.beat, .cfg, .rwi, .rwiNew, .old, .hub, .arbs, .tiles, .ctxs, .fns, .hports, .units, .mem, .poison, .hdrs, .hdrPoison, .place, .mig, .ras, .xfers, .upds, .contribs, .rsigs, .heldWrites, .ports, .board, .cel, .evt, .boot, .pwr, .outbox] F) (x0 : _) (x1 : _) (x2 : _) (x3 : _) (x4 : _) (x5 : _) : Chg F s0 (doMctpMessage x0 x1 x2 x3 x4 x5 s) := by
  unfold doMctpMessage
  repeat' first | with_reducible exact Sub.trans (by assumption) (by decide) | intro _ | with_reducible assumption | with_reducible apply chg_doHello | with_reducible apply chg_doAttestQuote | with_reducible apply chg_doIdentityGet | with_reducible apply chg_doEventRead | with_reducible apply chg_doTelemetryRead | with_reducible apply chg_doResetDevice | with_reducible apply chg_doCfgStage | with_reducible apply chg_doCfgCommit | with_reducible apply chg_doCfgRevert | with_reducible apply chg_command | with_reducible exact chg_of_fst (by assumption) (by assumption) | with_reducible apply chg_ite | simp only [chgMk_iff, id_eq] | (with_reducible apply chgMk_intro rfl <;> first | with_reducible exact .inl (Sub.mem (by assumption) (by decide)) | with_reducible exact .inr rfl | skip) | split

theorem chg_powerBase {s : State} (h : Chg F s0 s) (hF : Sub [.beat, .cfg, .rwi, .rwiNew, .old, .hub, .arbs, .tiles, .ctxs, .fns, .hports, .units, .mem, .poison, .hdrs, .hdrPoison, .place, .mig, .ras, .xfers, .upds, .contribs, .rsigs, .heldWrites, .ports, .board, .cel, .evt, .boot, .pwr, .outbox] F) (x1 : _) : Chg F s0 (State.powerBase s x1) := by
  unfold State.powerBase
  repeat' first | with_reducible exact Sub.trans (by assumption) (by decide) | intro _ | with_reducible assumption | with_reducible apply chg_wipeL3 | with_reducible exact chg_of_fst (by assumption) (by assumption) | with_reducible apply chg_ite | simp only [chgMk_iff, id_eq] | (with_reducible apply chgMk_intro rfl <;> first | with_reducible exact .inl (Sub.mem (by assumption) (by decide)) | with_reducible exact .inr rfl | skip) | split

theorem chg_doPowerOn {s : State} (h : Chg F s0 s) (hF : Sub [.beat, .cfg, .rwi, .rwiNew, .old, .hub, .arbs, .tiles, .ctxs, .fns, .hports, .units, .mem, .poison, .hdrs, .hdrPoison, .place, .mig, .ras, .xfers, .upds, .contribs, .rsigs, .heldWrites, .ports, .board, .cel, .evt, .boot, .pwr, .outbox] F) (x0 : _) : Chg F s0 (doPowerOn x0 s) := by
  unfold doPowerOn
  repeat' first | with_reducible exact Sub.trans (by assumption) (by decide) | intro _ | with_reducible assumption | with_reducible apply chg_powerBase | with_reducible apply chg_logLevel | with_reducible apply chg_logDev | with_reducible apply chg_revert | with_reducible apply chg_bootUp | with_reducible exact chg_of_fst (by assumption) (by assumption) | with_reducible apply chg_ite | simp only [chgMk_iff, id_eq] | (with_reducible apply chgMk_intro rfl <;> first | with_reducible exact .inl (Sub.mem (by assumption) (by decide)) | with_reducible exact .inr rfl | skip) | split

theorem chg_doVinRange {s : State} (h : Chg F s0 s) (hF : Sub [.fns, .evt, .pwr, .outbox] F) (x0 : _) : Chg F s0 (doVinRange x0 s) := by
  unfold doVinRange
  repeat' first | with_reducible exact Sub.trans (by assumption) (by decide) | intro _ | with_reducible assumption | with_reducible apply chg_logDev | with_reducible exact chg_of_fst (by assumption) (by assumption) | with_reducible apply chg_ite | simp only [chgMk_iff, id_eq] | (with_reducible apply chgMk_intro rfl <;> first | with_reducible exact .inl (Sub.mem (by assumption) (by decide)) | with_reducible exact .inr rfl | skip) | split

theorem chg_dropRails {s : State} (h : Chg F s0 s) (hF : Sub [.units, .ports, .pwr] F) : Chg F s0 (State.dropRails s) := by
  unfold State.dropRails
  repeat' first | with_reducible exact Sub.trans (by assumption) (by decide) | intro _ | with_reducible assumption | with_reducible apply chg_foldl | with_reducible apply chg_foldl_fst | with_reducible apply chg_modUnit | with_reducible apply chg_modPort | with_reducible exact chg_of_fst (by assumption) (by assumption) | with_reducible apply chg_ite | simp only [chgMk_iff, id_eq] | (with_reducible apply chgMk_intro rfl <;> first | with_reducible exact .inl (Sub.mem (by assumption) (by decide)) | with_reducible exact .inr rfl | skip) | split

theorem chg_doRailFault {s : State} (h : Chg F s0 s) (hF : Sub [.ctxs, .fns, .units, .ports, .board, .evt, .pwr, .outbox] F) (x0 : _) : Chg F s0 (doRailFault x0 s) := by
  unfold doRailFault
  repeat' first | with_reducible exact Sub.trans (by assumption) (by decide) | intro _ | with_reducible assumption | with_reducible apply chg_logDev | with_reducible apply chg_abortAll | with_reducible apply chg_requestL4 | with_reducible apply chg_dropRails | with_reducible exact chg_of_fst (by assumption) (by assumption) | with_reducible apply chg_ite | simp only [chgMk_iff, id_eq] | (with_reducible apply chgMk_intro rfl <;> first | with_reducible exact .inl (Sub.mem (by assumption) (by decide)) | with_reducible exact .inr rfl | skip) | split

theorem chg_doThermalEval {s : State} (h : Chg F s0 s) (hF : Sub [.cfg, .fns, .ports, .evt, .pwr, .outbox] F) (x0 : _) (x1 : _) (x2 : _) : Chg F s0 (doThermalEval x0 x1 x2 s) := by
  unfold doThermalEval
  repeat' first | with_reducible exact Sub.trans (by assumption) (by decide) | intro _ | with_reducible assumption | with_reducible apply chg_logDev | with_reducible apply chg_putControl | with_reducible apply chg_applyStretch | with_reducible exact chg_of_fst (by assumption) (by assumption) | with_reducible apply chg_ite | simp only [chgMk_iff, id_eq] | (with_reducible apply chgMk_intro rfl <;> first | with_reducible exact .inl (Sub.mem (by assumption) (by decide)) | with_reducible exact .inr rfl | skip) | split

theorem chg_doPowerPeak {s : State} (h : Chg F s0 s) (hF : Sub [.fns, .evt, .pwr, .outbox] F) (x0 : _) : Chg F s0 (doPowerPeak x0 s) := by
  unfold doPowerPeak
  repeat' first | with_reducible exact Sub.trans (by assumption) (by decide) | intro _ | with_reducible assumption | with_reducible apply chg_logDev | with_reducible exact chg_of_fst (by assumption) (by assumption) | with_reducible apply chg_ite | simp only [chgMk_iff, id_eq] | (with_reducible apply chgMk_intro rfl <;> first | with_reducible exact .inl (Sub.mem (by assumption) (by decide)) | with_reducible exact .inr rfl | skip) | split

theorem chg_doThermTrip {s : State} (h : Chg F s0 s) (hF : Sub [.beat, .cfg, .rwi, .rwiNew, .old, .hub, .arbs, .tiles, .ctxs, .fns, .hports, .units, .mem, .poison, .hdrs, .hdrPoison, .place, .mig, .ras, .xfers, .upds, .contribs, .rsigs, .heldWrites, .ports, .board, .cel, .evt, .boot, .pwr, .outbox] F) : Chg F s0 (doThermTrip s) := by
  unfold doThermTrip
  repeat' first | with_reducible exact Sub.trans (by assumption) (by decide) | intro _ | with_reducible assumption | with_reducible apply chg_logDev | with_reducible apply chg_startL3 | with_reducible apply chg_logEvent | with_reducible exact chg_of_fst (by assumption) (by assumption) | with_reducible apply chg_ite | simp only [chgMk_iff, id_eq] | (with_reducible apply chgMk_intro rfl <;> first | with_reducible exact .inl (Sub.mem (by assumption) (by decide)) | with_reducible exact .inr rfl | skip) | split

theorem chg_doThermTripRelease {s : State} (h : Chg F s0 s) (hF : Sub [.beat, .cfg, .rwiNew, .hub, .fns, .evt, .boot, .pwr, .outbox] F) (x0 : _) : Chg F s0 (doThermTripRelease x0 s) := by
  unfold doThermTripRelease
  repeat' first | with_reducible exact Sub.trans (by assumption) (by decide) | intro _ | with_reducible assumption | with_reducible apply chg_endL3 | with_reducible exact chg_of_fst (by assumption) (by assumption) | with_reducible apply chg_ite | simp only [chgMk_iff, id_eq] | (with_reducible apply chgMk_intro rfl <;> first | with_reducible exact .inl (Sub.mem (by assumption) (by decide)) | with_reducible exact .inr rfl | skip) | split

theorem chg_doThermTripTimeout {s : State} (h : Chg F s0 s) (hF : Sub [.fns, .evt, .outbox] F) : Chg F s0 (doThermTripTimeout s) := by
  unfold doThermTripTimeout
  repeat' first | with_reducible exact Sub.trans (by assumption) (by decide) | intro _ | with_reducible assumption | with_reducible apply chg_requestL4 | with_reducible exact chg_of_fst (by assumption) (by assumption) | with_reducible apply chg_ite | simp only [chgMk_iff, id_eq] | (with_reducible apply chgMk_intro rfl <;> first | with_reducible exact .inl (Sub.mem (by assumption) (by decide)) | with_reducible exact .inr rfl | skip) | split

theorem chg_doCoolantHigh {s : State} (h : Chg F s0 s) (hF : Sub [.fns, .evt, .pwr, .outbox] F) : Chg F s0 (doCoolantHigh s) := by
  unfold doCoolantHigh
  repeat' first | with_reducible exact Sub.trans (by assumption) (by decide) | intro _ | with_reducible assumption | with_reducible apply chg_logDev | with_reducible exact chg_of_fst (by assumption) (by assumption) | with_reducible apply chg_ite | simp only [chgMk_iff, id_eq] | (with_reducible apply chgMk_intro rfl <;> first | with_reducible exact .inl (Sub.mem (by assumption) (by decide)) | with_reducible exact .inr rfl | skip) | split

theorem chg_doClkLoss {s : State} (h : Chg F s0 s) (hF : Sub [.fns, .evt, .pwr, .outbox] F) : Chg F s0 (doClkLoss s) := by
  unfold doClkLoss
  repeat' first | with_reducible exact Sub.trans (by assumption) (by decide) | intro _ | with_reducible assumption | with_reducible apply chg_requestL4 | with_reducible apply chg_logDev | with_reducible exact chg_of_fst (by assumption) (by assumption) | with_reducible apply chg_ite | simp only [chgMk_iff, id_eq] | (with_reducible apply chgMk_intro rfl <;> first | with_reducible exact .inl (Sub.mem (by assumption) (by decide)) | with_reducible exact .inr rfl | skip) | split

theorem chg_zeroScratch {s : State} (h : Chg F s0 s) (hF : Sub [.mem, .poison, .hdrs] F) : Chg F s0 (State.zeroScratch s) := by
  unfold State.zeroScratch
  repeat' first | with_reducible exact Sub.trans (by assumption) (by decide) | intro _ | with_reducible assumption | with_reducible exact chg_of_fst (by assumption) (by assumption) | with_reducible apply chg_ite | simp only [chgMk_iff, id_eq] | (with_reducible apply chgMk_intro rfl <;> first | with_reducible exact .inl (Sub.mem (by assumption) (by decide)) | with_reducible exact .inr rfl | skip) | split

theorem chg_doTestEntry {s : State} (h : Chg F s0 s) (hF : Sub [.hub, .ctxs, .fns, .mem, .poison, .hdrs, .evt, .boot, .outbox] F) : Chg F s0 (doTestEntry s) := by
  unfold doTestEntry
  repeat' first | with_reducible exact Sub.trans (by assumption) (by decide) | intro _ | with_reducible assumption | with_reducible apply chg_logDev | with_reducible apply chg_abortAll | with_reducible apply chg_setMode | with_reducible apply chg_zeroScratch | with_reducible exact chg_of_fst (by assumption) (by assumption) | with_reducible apply chg_ite | simp only [chgMk_iff, id_eq] | (with_reducible apply chgMk_intro rfl <;> first | with_reducible exact .inl (Sub.mem (by assumption) (by decide)) | with_reducible exact .inr rfl | skip) | split

theorem chg_doXlocRearm {s : State} (h : Chg F s0 s) (hF : Sub [.tiles] F) (x0 : _) : Chg F s0 (doXlocRearm x0 s) := by
  unfold doXlocRearm
  repeat' first | with_reducible exact Sub.trans (by assumption) (by decide) | intro _ | with_reducible assumption | with_reducible apply chg_modTile | with_reducible exact chg_of_fst (by assumption) (by assumption) | with_reducible apply chg_ite | simp only [chgMk_iff, id_eq] | (with_reducible apply chgMk_intro rfl <;> first | with_reducible exact .inl (Sub.mem (by assumption) (by decide)) | with_reducible exact .inr rfl | skip) | split

theorem chg_setFlagB {s : State} (h : Chg F s0 s) (hF : Sub [.rwiNew] F) (x1 : _) (x2 : _) (x3 : _) : Chg F s0 (State.setFlagB s x1 x2 x3) := by
  unfold State.setFlagB
  repeat' first | with_reducible exact Sub.trans (by assumption) (by decide) | intro _ | with_reducible assumption | with_reducible apply chg_rwiSet | with_reducible exact chg_of_fst (by assumption) (by assumption) | with_reducible apply chg_ite | simp only [chgMk_iff, id_eq] | (with_reducible apply chgMk_intro rfl <;> first | with_reducible exact .inl (Sub.mem (by assumption) (by decide)) | with_reducible exact .inr rfl | skip) | split

theorem chg_doWinFlagSet {s : State} (h : Chg F s0 s) (hF : Sub [.rwiNew] F) (x0 : _) (x1 : _) (x2 : _) (x3 : _) : Chg F s0 (doWinFlagSet x0 x1 x2 x3 s) := by
  unfold doWinFlagSet
  repeat' first | with_reducible exact Sub.trans (by assumption) (by decide) | intro _ | with_reducible assumption | with_reducible apply chg_setFlagB | with_reducible exact chg_of_fst (by assumption) (by assumption) | with_reducible apply chg_ite | simp only [chgMk_iff, id_eq] | (with_reducible apply chgMk_intro rfl <;> first | with_reducible exact .inl (Sub.mem (by assumption) (by decide)) | with_reducible exact .inr rfl | skip) | split

theorem chg_setRef {s : State} (h : Chg F s0 s) (hF : Sub [.rwiNew] F) (x1 : _) (x2 : _) : Chg F s0 (State.setRef s x1 x2) := by
  unfold State.setRef
  repeat' first | with_reducible exact Sub.trans (by assumption) (by decide) | intro _ | with_reducible assumption | with_reducible apply chg_rwiSet | with_reducible exact chg_of_fst (by assumption) (by assumption) | with_reducible apply chg_ite | simp only [chgMk_iff, id_eq] | (with_reducible apply chgMk_intro rfl <;> first | with_reducible exact .inl (Sub.mem (by assumption) (by decide)) | with_reducible exact .inr rfl | skip) | split

theorem chg_hostShadow {s : State} (h : Chg F s0 s) (hF : Sub [.cfg, .pwr] F) (x1 : _) (x2 : _) (x3 : _) (x4 : _) : Chg F s0 (State.hostShadow s x1 x2 x3 x4) := by
  unfold State.hostShadow
  repeat' first | with_reducible exact Sub.trans (by assumption) (by decide) | intro _ | with_reducible assumption | with_reducible apply chg_putShadow | with_reducible exact chg_of_fst (by assumption) (by assumption) | with_reducible apply chg_ite | simp only [chgMk_iff, id_eq] | (with_reducible apply chgMk_intro rfl <;> first | with_reducible exact .inl (Sub.mem (by assumption) (by decide)) | with_reducible exact .inr rfl | skip) | split

theorem chg_regWrite {s : State} (h : Chg F s0 s) (hF : Sub [.cfg, .rwiNew, .pwr] F) (x1 : _) (x2 : _) (x3 : _) (x4 : _) (x5 : _) : Chg F s0 (State.regWrite s x1 x2 x3 x4 x5) := by
  unfold State.regWrite
  repeat' first | with_reducible exact Sub.trans (by assumption) (by decide) | intro _ | with_reducible assumption | with_reducible apply chg_hostShadow | with_reducible apply chg_doCfgStrobe | with_reducible apply chg_doCfgStrobeAt | with_reducible apply chg_setRef | with_reducible apply chg_setFlagB | with_reducible apply chg_rwiSet | with_reducible exact chg_of_fst (by assumption) (by assumption) | with_reducible apply chg_ite | simp only [chgMk_iff, id_eq] | (with_reducible apply chgMk_intro rfl <;> first | with_reducible exact .inl (Sub.mem (by assumption) (by decide)) | with_reducible exact .inr rfl | skip) | split

theorem chg_bar0Write {s : State} (h : Chg F s0 s) (hF : Sub [.cfg, .rwiNew, .pwr] F) (x1 : _) (x2 : _) (x3 : _) (x4 : _) : Chg F s0 (State.bar0Write s x1 x2 x3 x4) := by
  unfold State.bar0Write
  repeat' first | with_reducible exact Sub.trans (by assumption) (by decide) | intro _ | with_reducible assumption | with_reducible apply chg_regWrite | with_reducible exact chg_of_fst (by assumption) (by assumption) | with_reducible apply chg_ite | simp only [chgMk_iff, id_eq] | (with_reducible apply chgMk_intro rfl <;> first | with_reducible exact .inl (Sub.mem (by assumption) (by decide)) | with_reducible exact .inr rfl | skip) | split

theorem chg_post {s : State} (h : Chg F s0 s) (hF : Sub [.fns, .outbox] F) (x1 : _) : Chg F s0 (State.post s x1) := by
  unfold State.post
  repeat' first | with_reducible exact Sub.trans (by assumption) (by decide) | intro _ | with_reducible assumption | with_reducible apply chg_lostPost | with_reducible apply chg_accept | with_reducible apply chg_reply | with_reducible apply chg_modFn | with_reducible exact chg_of_fst (by assumption) (by assumption) | with_reducible apply chg_ite | simp only [chgMk_iff, id_eq] | (with_reducible apply chgMk_intro rfl <;> first | with_reducible exact .inl (Sub.mem (by assumption) (by decide)) | with_reducible exact .inr rfl | skip) | split

theorem chg_bar2Write {s : State} (h : Chg F s0 s) (hF : Sub [.fns, .outbox] F) (x1 : _) (x2 : _) (x3 : _) (x4 : _) : Chg F s0 (State.bar2Write s x1 x2 x3 x4) := by
  unfold State.bar2Write
  repeat' first | with_reducible exact Sub.trans (by assumption) (by decide) | intro _ | with_reducible assumption | with_reducible apply chg_foldl | with_reducible apply chg_foldl_fst | with_reducible apply chg_post | with_reducible apply chg_modFn | with_reducible exact chg_of_fst (by assumption) (by assumption) | with_reducible apply chg_ite | simp only [chgMk_iff, id_eq] | (with_reducible apply chgMk_intro rfl <;> first | with_reducible exact .inl (Sub.mem (by assumption) (by decide)) | with_reducible exact .inr rfl | skip) | split

theorem chg_cfgSpaceWrite {s : State} (h : Chg F s0 s) (hF : Sub [.fns] F) (x1 : _) (x2 : _) (x3 : _) : Chg F s0 (State.cfgSpaceWrite s x1 x2 x3) := by
  unfold State.cfgSpaceWrite
  repeat' first | with_reducible exact Sub.trans (by assumption) (by decide) | intro _ | with_reducible assumption | with_reducible apply chg_modFn | with_reducible exact chg_of_fst (by assumption) (by assumption) | with_reducible apply chg_ite | simp only [chgMk_iff, id_eq] | (with_reducible apply chgMk_intro rfl <;> first | with_reducible exact .inl (Sub.mem (by assumption) (by decide)) | with_reducible exact .inr rfl | skip) | split

theorem chg_doRegisterWrite {s : State} (h : Chg F s0 s) (hF : Sub [.cfg, .rwiNew, .fns, .pwr, .outbox] F) (x0 : _) (x1 : _) (x2 : _) (x3 : _) (x4 : _) : Chg F s0 (doRegisterWrite x0 x1 x2 x3 x4 s) := by
  unfold doRegisterWrite
  repeat' first | with_reducible exact Sub.trans (by assumption) (by decide) | intro _ | with_reducible assumption | with_reducible apply chg_bar0Write | with_reducible apply chg_bar2Write | with_reducible apply chg_cfgSpaceWrite | with_reducible exact chg_of_fst (by assumption) (by assumption) | with_reducible apply chg_ite | simp only [chgMk_iff, id_eq] | (with_reducible apply chgMk_intro rfl <;> first | with_reducible exact .inl (Sub.mem (by assumption) (by decide)) | with_reducible exact .inr rfl | skip) | split

end Sys2Proof.Machine
end

