-- ==== Sys2Proof/Laws/State.lean ====
section
/-! SUPPORT. What the named updates of State change and what they leave: one lemma for each field and update. -/

namespace Sys2Proof.Machine

variable (s : State)

/-! ### modTile -/

@[simp] theorem modTile_variant (t : Nat) (f : Tile → Tile) : (s.modTile t f).variant = s.variant := rfl
@[simp] theorem modTile_beat (t : Nat) (f : Tile → Tile) : (s.modTile t f).beat = s.beat := rfl
@[simp] theorem modTile_cfg (t : Nat) (f : Tile → Tile) : (s.modTile t f).cfg = s.cfg := rfl
@[simp] theorem modTile_rwi (t : Nat) (f : Tile → Tile) : (s.modTile t f).rwi = s.rwi := rfl
@[simp] theorem modTile_rwiNew (t : Nat) (f : Tile → Tile) : (s.modTile t f).rwiNew = s.rwiNew := rfl
@[simp] theorem modTile_old (t : Nat) (f : Tile → Tile) : (s.modTile t f).old = s.old := rfl
@[simp] theorem modTile_hub (t : Nat) (f : Tile → Tile) : (s.modTile t f).hub = s.hub := rfl
@[simp] theorem modTile_arbs (t : Nat) (f : Tile → Tile) : (s.modTile t f).arbs = s.arbs := rfl
@[simp] theorem modTile_ctxs (t : Nat) (f : Tile → Tile) : (s.modTile t f).ctxs = s.ctxs := rfl
@[simp] theorem modTile_fns (t : Nat) (f : Tile → Tile) : (s.modTile t f).fns = s.fns := rfl
@[simp] theorem modTile_hports (t : Nat) (f : Tile → Tile) : (s.modTile t f).hports = s.hports := rfl
@[simp] theorem modTile_units (t : Nat) (f : Tile → Tile) : (s.modTile t f).units = s.units := rfl
@[simp] theorem modTile_mem (t : Nat) (f : Tile → Tile) : (s.modTile t f).mem = s.mem := rfl
@[simp] theorem modTile_poison (t : Nat) (f : Tile → Tile) : (s.modTile t f).poison = s.poison := rfl
@[simp] theorem modTile_hdrs (t : Nat) (f : Tile → Tile) : (s.modTile t f).hdrs = s.hdrs := rfl
@[simp] theorem modTile_hdrPoison (t : Nat) (f : Tile → Tile) : (s.modTile t f).hdrPoison = s.hdrPoison := rfl
@[simp] theorem modTile_place (t : Nat) (f : Tile → Tile) : (s.modTile t f).place = s.place := rfl
@[simp] theorem modTile_mig (t : Nat) (f : Tile → Tile) : (s.modTile t f).mig = s.mig := rfl
@[simp] theorem modTile_ras (t : Nat) (f : Tile → Tile) : (s.modTile t f).ras = s.ras := rfl
@[simp] theorem modTile_xfers (t : Nat) (f : Tile → Tile) : (s.modTile t f).xfers = s.xfers := rfl
@[simp] theorem modTile_upds (t : Nat) (f : Tile → Tile) : (s.modTile t f).upds = s.upds := rfl
@[simp] theorem modTile_contribs (t : Nat) (f : Tile → Tile) : (s.modTile t f).contribs = s.contribs := rfl
@[simp] theorem modTile_rsigs (t : Nat) (f : Tile → Tile) : (s.modTile t f).rsigs = s.rsigs := rfl
@[simp] theorem modTile_heldWrites (t : Nat) (f : Tile → Tile) : (s.modTile t f).heldWrites = s.heldWrites := rfl
@[simp] theorem modTile_ports (t : Nat) (f : Tile → Tile) : (s.modTile t f).ports = s.ports := rfl
@[simp] theorem modTile_board (t : Nat) (f : Tile → Tile) : (s.modTile t f).board = s.board := rfl
@[simp] theorem modTile_cel (t : Nat) (f : Tile → Tile) : (s.modTile t f).cel = s.cel := rfl
@[simp] theorem modTile_evt (t : Nat) (f : Tile → Tile) : (s.modTile t f).evt = s.evt := rfl
@[simp] theorem modTile_boot (t : Nat) (f : Tile → Tile) : (s.modTile t f).boot = s.boot := rfl
@[simp] theorem modTile_pwr (t : Nat) (f : Tile → Tile) : (s.modTile t f).pwr = s.pwr := rfl
@[simp] theorem modTile_outbox (t : Nat) (f : Tile → Tile) : (s.modTile t f).outbox = s.outbox := rfl
@[simp] theorem modTile_pending (t : Nat) (f : Tile → Tile) : (s.modTile t f).pending = s.pending := rfl

@[simp] theorem modTile_same (t : Nat) (f : Tile → Tile) : (s.modTile t f).tile t = f (s.tile t) := smGet_smMod_same _ _
theorem modTile_other {t k : Nat} (f : Tile → Tile) (h : k ≠ t) : (s.modTile t f).tile k = s.tile k := smGet_smMod_other _ h
@[simp] theorem modTile_ctx (t : Nat) (f : Tile → Tile) (j : Nat) : (s.modTile t f).ctx j = s.ctx j := rfl
@[simp] theorem modTile_fn (t : Nat) (f : Tile → Tile) (j : Nat) : (s.modTile t f).fn j = s.fn j := rfl
@[simp] theorem modTile_hport (t : Nat) (f : Tile → Tile) (j : Nat) : (s.modTile t f).hport j = s.hport j := rfl
@[simp] theorem modTile_unit (t : Nat) (f : Tile → Tile) (j : Nat) : (s.modTile t f).unit j = s.unit j := rfl
@[simp] theorem modTile_port (t : Nat) (f : Tile → Tile) (j : Nat) : (s.modTile t f).port j = s.port j := rfl
@[simp] theorem modTile_arb (t : Nat) (f : Tile → Tile) (j : Nat) : (s.modTile t f).arb j = s.arb j := rfl
@[simp] theorem modTile_pent (t : Nat) (f : Tile → Tile) (j : Nat) : (s.modTile t f).pent j = s.pent j := rfl

/-! ### modCtx -/

@[simp] theorem modCtx_variant (c : Nat) (f : Ctx → Ctx) : (s.modCtx c f).variant = s.variant := rfl
@[simp] theorem modCtx_beat (c : Nat) (f : Ctx → Ctx) : (s.modCtx c f).beat = s.beat := rfl
@[simp] theorem modCtx_cfg (c : Nat) (f : Ctx → Ctx) : (s.modCtx c f).cfg = s.cfg := rfl
@[simp] theorem modCtx_rwi (c : Nat) (f : Ctx → Ctx) : (s.modCtx c f).rwi = s.rwi := rfl
@[simp] theorem modCtx_rwiNew (c : Nat) (f : Ctx → Ctx) : (s.modCtx c f).rwiNew = s.rwiNew := rfl
@[simp] theorem modCtx_old (c : Nat) (f : Ctx → Ctx) : (s.modCtx c f).old = s.old := rfl
@[simp] theorem modCtx_hub (c : Nat) (f : Ctx → Ctx) : (s.modCtx c f).hub = s.hub := rfl
@[simp] theorem modCtx_arbs (c : Nat) (f : Ctx → Ctx) : (s.modCtx c f).arbs = s.arbs := rfl
@[simp] theorem modCtx_tiles (c : Nat) (f : Ctx → Ctx) : (s.modCtx c f).tiles = s.tiles := rfl
@[simp] theorem modCtx_fns (c : Nat) (f : Ctx → Ctx) : (s.modCtx c f).fns = s.fns := rfl
@[simp] theorem modCtx_hports (c : Nat) (f : Ctx → Ctx) : (s.modCtx c f).hports = s.hports := rfl
@[simp] theorem modCtx_units (c : Nat) (f : Ctx → Ctx) : (s.modCtx c f).units = s.units := rfl
@[simp] theorem modCtx_mem (c : Nat) (f : Ctx → Ctx) : (s.modCtx c f).mem = s.mem := rfl
@[simp] theorem modCtx_poison (c : Nat) (f : Ctx → Ctx) : (s.modCtx c f).poison = s.poison := rfl
@[simp] theorem modCtx_hdrs (c : Nat) (f : Ctx → Ctx) : (s.modCtx c f).hdrs = s.hdrs := rfl
@[simp] theorem modCtx_hdrPoison (c : Nat) (f : Ctx → Ctx) : (s.modCtx c f).hdrPoison = s.hdrPoison := rfl
@[simp] theorem modCtx_place (c : Nat) (f : Ctx → Ctx) : (s.modCtx c f).place = s.place := rfl
@[simp] theorem modCtx_mig (c : Nat) (f : Ctx → Ctx) : (s.modCtx c f).mig = s.mig := rfl
@[simp] theorem modCtx_ras (c : Nat) (f : Ctx → Ctx) : (s.modCtx c f).ras = s.ras := rfl
@[simp] theorem modCtx_xfers (c : Nat) (f : Ctx → Ctx) : (s.modCtx c f).xfers = s.xfers := rfl
@[simp] theorem modCtx_upds (c : Nat) (f : Ctx → Ctx) : (s.modCtx c f).upds = s.upds := rfl
@[simp] theorem modCtx_contribs (c : Nat) (f : Ctx → Ctx) : (s.modCtx c f).contribs = s.contribs := rfl
@[simp] theorem modCtx_rsigs (c : Nat) (f : Ctx → Ctx) : (s.modCtx c f).rsigs = s.rsigs := rfl
@[simp] theorem modCtx_heldWrites (c : Nat) (f : Ctx → Ctx) : (s.modCtx c f).heldWrites = s.heldWrites := rfl
@[simp] theorem modCtx_ports (c : Nat) (f : Ctx → Ctx) : (s.modCtx c f).ports = s.ports := rfl
@[simp] theorem modCtx_board (c : Nat) (f : Ctx → Ctx) : (s.modCtx c f).board = s.board := rfl
@[simp] theorem modCtx_cel (c : Nat) (f : Ctx → Ctx) : (s.modCtx c f).cel = s.cel := rfl
@[simp] theorem modCtx_evt (c : Nat) (f : Ctx → Ctx) : (s.modCtx c f).evt = s.evt := rfl
@[simp] theorem modCtx_boot (c : Nat) (f : Ctx → Ctx) : (s.modCtx c f).boot = s.boot := rfl
@[simp] theorem modCtx_pwr (c : Nat) (f : Ctx → Ctx) : (s.modCtx c f).pwr = s.pwr := rfl
@[simp] theorem modCtx_outbox (c : Nat) (f : Ctx → Ctx) : (s.modCtx c f).outbox = s.outbox := rfl
@[simp] theorem modCtx_pending (c : Nat) (f : Ctx → Ctx) : (s.modCtx c f).pending = s.pending := rfl

@[simp] theorem modCtx_same (c : Nat) (f : Ctx → Ctx) : (s.modCtx c f).ctx c = f (s.ctx c) := smGet_smMod_same _ _
theorem modCtx_other {c k : Nat} (f : Ctx → Ctx) (h : k ≠ c) : (s.modCtx c f).ctx k = s.ctx k := smGet_smMod_other _ h
@[simp] theorem modCtx_tile (c : Nat) (f : Ctx → Ctx) (j : Nat) : (s.modCtx c f).tile j = s.tile j := rfl
@[simp] theorem modCtx_fn (c : Nat) (f : Ctx → Ctx) (j : Nat) : (s.modCtx c f).fn j = s.fn j := rfl
@[simp] theorem modCtx_hport (c : Nat) (f : Ctx → Ctx) (j : Nat) : (s.modCtx c f).hport j = s.hport j := rfl
@[simp] theorem modCtx_unit (c : Nat) (f : Ctx → Ctx) (j : Nat) : (s.modCtx c f).unit j = s.unit j := rfl
@[simp] theorem modCtx_port (c : Nat) (f : Ctx → Ctx) (j : Nat) : (s.modCtx c f).port j = s.port j := rfl
@[simp] theorem modCtx_arb (c : Nat) (f : Ctx → Ctx) (j : Nat) : (s.modCtx c f).arb j = s.arb j := rfl
@[simp] theorem modCtx_pent (c : Nat) (f : Ctx → Ctx) (j : Nat) : (s.modCtx c f).pent j = s.pent j := rfl

/-! ### modFn -/

@[simp] theorem modFn_variant (i : Nat) (f : Fn → Fn) : (s.modFn i f).variant = s.variant := rfl
@[simp] theorem modFn_beat (i : Nat) (f : Fn → Fn) : (s.modFn i f).beat = s.beat := rfl
@[simp] theorem modFn_cfg (i : Nat) (f : Fn → Fn) : (s.modFn i f).cfg = s.cfg := rfl
@[simp] theorem modFn_rwi (i : Nat) (f : Fn → Fn) : (s.modFn i f).rwi = s.rwi := rfl
@[simp] theorem modFn_rwiNew (i : Nat) (f : Fn → Fn) : (s.modFn i f).rwiNew = s.rwiNew := rfl
@[simp] theorem modFn_old (i : Nat) (f : Fn → Fn) : (s.modFn i f).old = s.old := rfl
@[simp] theorem modFn_hub (i : Nat) (f : Fn → Fn) : (s.modFn i f).hub = s.hub := rfl
@[simp] theorem modFn_arbs (i : Nat) (f : Fn → Fn) : (s.modFn i f).arbs = s.arbs := rfl
@[simp] theorem modFn_tiles (i : Nat) (f : Fn → Fn) : (s.modFn i f).tiles = s.tiles := rfl
@[simp] theorem modFn_ctxs (i : Nat) (f : Fn → Fn) : (s.modFn i f).ctxs = s.ctxs := rfl
@[simp] theorem modFn_hports (i : Nat) (f : Fn → Fn) : (s.modFn i f).hports = s.hports := rfl
@[simp] theorem modFn_units (i : Nat) (f : Fn → Fn) : (s.modFn i f).units = s.units := rfl
@[simp] theorem modFn_mem (i : Nat) (f : Fn → Fn) : (s.modFn i f).mem = s.mem := rfl
@[simp] theorem modFn_poison (i : Nat) (f : Fn → Fn) : (s.modFn i f).poison = s.poison := rfl
@[simp] theorem modFn_hdrs (i : Nat) (f : Fn → Fn) : (s.modFn i f).hdrs = s.hdrs := rfl
@[simp] theorem modFn_hdrPoison (i : Nat) (f : Fn → Fn) : (s.modFn i f).hdrPoison = s.hdrPoison := rfl
@[simp] theorem modFn_place (i : Nat) (f : Fn → Fn) : (s.modFn i f).place = s.place := rfl
@[simp] theorem modFn_mig (i : Nat) (f : Fn → Fn) : (s.modFn i f).mig = s.mig := rfl
@[simp] theorem modFn_ras (i : Nat) (f : Fn → Fn) : (s.modFn i f).ras = s.ras := rfl
@[simp] theorem modFn_xfers (i : Nat) (f : Fn → Fn) : (s.modFn i f).xfers = s.xfers := rfl
@[simp] theorem modFn_upds (i : Nat) (f : Fn → Fn) : (s.modFn i f).upds = s.upds := rfl
@[simp] theorem modFn_contribs (i : Nat) (f : Fn → Fn) : (s.modFn i f).contribs = s.contribs := rfl
@[simp] theorem modFn_rsigs (i : Nat) (f : Fn → Fn) : (s.modFn i f).rsigs = s.rsigs := rfl
@[simp] theorem modFn_heldWrites (i : Nat) (f : Fn → Fn) : (s.modFn i f).heldWrites = s.heldWrites := rfl
@[simp] theorem modFn_ports (i : Nat) (f : Fn → Fn) : (s.modFn i f).ports = s.ports := rfl
@[simp] theorem modFn_board (i : Nat) (f : Fn → Fn) : (s.modFn i f).board = s.board := rfl
@[simp] theorem modFn_cel (i : Nat) (f : Fn → Fn) : (s.modFn i f).cel = s.cel := rfl
@[simp] theorem modFn_evt (i : Nat) (f : Fn → Fn) : (s.modFn i f).evt = s.evt := rfl
@[simp] theorem modFn_boot (i : Nat) (f : Fn → Fn) : (s.modFn i f).boot = s.boot := rfl
@[simp] theorem modFn_pwr (i : Nat) (f : Fn → Fn) : (s.modFn i f).pwr = s.pwr := rfl
@[simp] theorem modFn_outbox (i : Nat) (f : Fn → Fn) : (s.modFn i f).outbox = s.outbox := rfl
@[simp] theorem modFn_pending (i : Nat) (f : Fn → Fn) : (s.modFn i f).pending = s.pending := rfl

@[simp] theorem modFn_same (i : Nat) (f : Fn → Fn) : (s.modFn i f).fn i = f (s.fn i) := smGet_smMod_same _ _
theorem modFn_other {i k : Nat} (f : Fn → Fn) (h : k ≠ i) : (s.modFn i f).fn k = s.fn k := smGet_smMod_other _ h
@[simp] theorem modFn_tile (i : Nat) (f : Fn → Fn) (j : Nat) : (s.modFn i f).tile j = s.tile j := rfl
@[simp] theorem modFn_ctx (i : Nat) (f : Fn → Fn) (j : Nat) : (s.modFn i f).ctx j = s.ctx j := rfl
@[simp] theorem modFn_hport (i : Nat) (f : Fn → Fn) (j : Nat) : (s.modFn i f).hport j = s.hport j := rfl
@[simp] theorem modFn_unit (i : Nat) (f : Fn → Fn) (j : Nat) : (s.modFn i f).unit j = s.unit j := rfl
@[simp] theorem modFn_port (i : Nat) (f : Fn → Fn) (j : Nat) : (s.modFn i f).port j = s.port j := rfl
@[simp] theorem modFn_arb (i : Nat) (f : Fn → Fn) (j : Nat) : (s.modFn i f).arb j = s.arb j := rfl
@[simp] theorem modFn_pent (i : Nat) (f : Fn → Fn) (j : Nat) : (s.modFn i f).pent j = s.pent j := rfl

/-! ### modHport -/

@[simp] theorem modHport_variant (x : Nat) (f : HPort → HPort) : (s.modHport x f).variant = s.variant := rfl
@[simp] theorem modHport_beat (x : Nat) (f : HPort → HPort) : (s.modHport x f).beat = s.beat := rfl
@[simp] theorem modHport_cfg (x : Nat) (f : HPort → HPort) : (s.modHport x f).cfg = s.cfg := rfl
@[simp] theorem modHport_rwi (x : Nat) (f : HPort → HPort) : (s.modHport x f).rwi = s.rwi := rfl
@[simp] theorem modHport_rwiNew (x : Nat) (f : HPort → HPort) : (s.modHport x f).rwiNew = s.rwiNew := rfl
@[simp] theorem modHport_old (x : Nat) (f : HPort → HPort) : (s.modHport x f).old = s.old := rfl
@[simp] theorem modHport_hub (x : Nat) (f : HPort → HPort) : (s.modHport x f).hub = s.hub := rfl
@[simp] theorem modHport_arbs (x : Nat) (f : HPort → HPort) : (s.modHport x f).arbs = s.arbs := rfl
@[simp] theorem modHport_tiles (x : Nat) (f : HPort → HPort) : (s.modHport x f).tiles = s.tiles := rfl
@[simp] theorem modHport_ctxs (x : Nat) (f : HPort → HPort) : (s.modHport x f).ctxs = s.ctxs := rfl
@[simp] theorem modHport_fns (x : Nat) (f : HPort → HPort) : (s.modHport x f).fns = s.fns := rfl
@[simp] theorem modHport_units (x : Nat) (f : HPort → HPort) : (s.modHport x f).units = s.units := rfl
@[simp] theorem modHport_mem (x : Nat) (f : HPort → HPort) : (s.modHport x f).mem = s.mem := rfl
@[simp] theorem modHport_poison (x : Nat) (f : HPort → HPort) : (s.modHport x f).poison = s.poison := rfl
@[simp] theorem modHport_hdrs (x : Nat) (f : HPort → HPort) : (s.modHport x f).hdrs = s.hdrs := rfl
@[simp] theorem modHport_hdrPoison (x : Nat) (f : HPort → HPort) : (s.modHport x f).hdrPoison = s.hdrPoison := rfl
@[simp] theorem modHport_place (x : Nat) (f : HPort → HPort) : (s.modHport x f).place = s.place := rfl
@[simp] theorem modHport_mig (x : Nat) (f : HPort → HPort) : (s.modHport x f).mig = s.mig := rfl
@[simp] theorem modHport_ras (x : Nat) (f : HPort → HPort) : (s.modHport x f).ras = s.ras := rfl
@[simp] theorem modHport_xfers (x : Nat) (f : HPort → HPort) : (s.modHport x f).xfers = s.xfers := rfl
@[simp] theorem modHport_upds (x : Nat) (f : HPort → HPort) : (s.modHport x f).upds = s.upds := rfl
@[simp] theorem modHport_contribs (x : Nat) (f : HPort → HPort) : (s.modHport x f).contribs = s.contribs := rfl
@[simp] theorem modHport_rsigs (x : Nat) (f : HPort → HPort) : (s.modHport x f).rsigs = s.rsigs := rfl
@[simp] theorem modHport_heldWrites (x : Nat) (f : HPort → HPort) : (s.modHport x f).heldWrites = s.heldWrites := rfl
@[simp] theorem modHport_ports (x : Nat) (f : HPort → HPort) : (s.modHport x f).ports = s.ports := rfl
@[simp] theorem modHport_board (x : Nat) (f : HPort → HPort) : (s.modHport x f).board = s.board := rfl
@[simp] theorem modHport_cel (x : Nat) (f : HPort → HPort) : (s.modHport x f).cel = s.cel := rfl
@[simp] theorem modHport_evt (x : Nat) (f : HPort → HPort) : (s.modHport x f).evt = s.evt := rfl
@[simp] theorem modHport_boot (x : Nat) (f : HPort → HPort) : (s.modHport x f).boot = s.boot := rfl
@[simp] theorem modHport_pwr (x : Nat) (f : HPort → HPort) : (s.modHport x f).pwr = s.pwr := rfl
@[simp] theorem modHport_outbox (x : Nat) (f : HPort → HPort) : (s.modHport x f).outbox = s.outbox := rfl
@[simp] theorem modHport_pending (x : Nat) (f : HPort → HPort) : (s.modHport x f).pending = s.pending := rfl

@[simp] theorem modHport_same (x : Nat) (f : HPort → HPort) : (s.modHport x f).hport x = f (s.hport x) := smGet_smMod_same _ _
theorem modHport_other {x k : Nat} (f : HPort → HPort) (h : k ≠ x) : (s.modHport x f).hport k = s.hport k := smGet_smMod_other _ h
@[simp] theorem modHport_tile (x : Nat) (f : HPort → HPort) (j : Nat) : (s.modHport x f).tile j = s.tile j := rfl
@[simp] theorem modHport_ctx (x : Nat) (f : HPort → HPort) (j : Nat) : (s.modHport x f).ctx j = s.ctx j := rfl
@[simp] theorem modHport_fn (x : Nat) (f : HPort → HPort) (j : Nat) : (s.modHport x f).fn j = s.fn j := rfl
@[simp] theorem modHport_unit (x : Nat) (f : HPort → HPort) (j : Nat) : (s.modHport x f).unit j = s.unit j := rfl
@[simp] theorem modHport_port (x : Nat) (f : HPort → HPort) (j : Nat) : (s.modHport x f).port j = s.port j := rfl
@[simp] theorem modHport_arb (x : Nat) (f : HPort → HPort) (j : Nat) : (s.modHport x f).arb j = s.arb j := rfl
@[simp] theorem modHport_pent (x : Nat) (f : HPort → HPort) (j : Nat) : (s.modHport x f).pent j = s.pent j := rfl

/-! ### modUnit -/

@[simp] theorem modUnit_variant (u : Nat) (f : UnitSt → UnitSt) : (s.modUnit u f).variant = s.variant := rfl
@[simp] theorem modUnit_beat (u : Nat) (f : UnitSt → UnitSt) : (s.modUnit u f).beat = s.beat := rfl
@[simp] theorem modUnit_cfg (u : Nat) (f : UnitSt → UnitSt) : (s.modUnit u f).cfg = s.cfg := rfl
@[simp] theorem modUnit_rwi (u : Nat) (f : UnitSt → UnitSt) : (s.modUnit u f).rwi = s.rwi := rfl
@[simp] theorem modUnit_rwiNew (u : Nat) (f : UnitSt → UnitSt) : (s.modUnit u f).rwiNew = s.rwiNew := rfl
@[simp] theorem modUnit_old (u : Nat) (f : UnitSt → UnitSt) : (s.modUnit u f).old = s.old := rfl
@[simp] theorem modUnit_hub (u : Nat) (f : UnitSt → UnitSt) : (s.modUnit u f).hub = s.hub := rfl
@[simp] theorem modUnit_arbs (u : Nat) (f : UnitSt → UnitSt) : (s.modUnit u f).arbs = s.arbs := rfl
@[simp] theorem modUnit_tiles (u : Nat) (f : UnitSt → UnitSt) : (s.modUnit u f).tiles = s.tiles := rfl
@[simp] theorem modUnit_ctxs (u : Nat) (f : UnitSt → UnitSt) : (s.modUnit u f).ctxs = s.ctxs := rfl
@[simp] theorem modUnit_fns (u : Nat) (f : UnitSt → UnitSt) : (s.modUnit u f).fns = s.fns := rfl
@[simp] theorem modUnit_hports (u : Nat) (f : UnitSt → UnitSt) : (s.modUnit u f).hports = s.hports := rfl
@[simp] theorem modUnit_mem (u : Nat) (f : UnitSt → UnitSt) : (s.modUnit u f).mem = s.mem := rfl
@[simp] theorem modUnit_poison (u : Nat) (f : UnitSt → UnitSt) : (s.modUnit u f).poison = s.poison := rfl
@[simp] theorem modUnit_hdrs (u : Nat) (f : UnitSt → UnitSt) : (s.modUnit u f).hdrs = s.hdrs := rfl
@[simp] theorem modUnit_hdrPoison (u : Nat) (f : UnitSt → UnitSt) : (s.modUnit u f).hdrPoison = s.hdrPoison := rfl
@[simp] theorem modUnit_place (u : Nat) (f : UnitSt → UnitSt) : (s.modUnit u f).place = s.place := rfl
@[simp] theorem modUnit_mig (u : Nat) (f : UnitSt → UnitSt) : (s.modUnit u f).mig = s.mig := rfl
@[simp] theorem modUnit_ras (u : Nat) (f : UnitSt → UnitSt) : (s.modUnit u f).ras = s.ras := rfl
@[simp] theorem modUnit_xfers (u : Nat) (f : UnitSt → UnitSt) : (s.modUnit u f).xfers = s.xfers := rfl
@[simp] theorem modUnit_upds (u : Nat) (f : UnitSt → UnitSt) : (s.modUnit u f).upds = s.upds := rfl
@[simp] theorem modUnit_contribs (u : Nat) (f : UnitSt → UnitSt) : (s.modUnit u f).contribs = s.contribs := rfl
@[simp] theorem modUnit_rsigs (u : Nat) (f : UnitSt → UnitSt) : (s.modUnit u f).rsigs = s.rsigs := rfl
@[simp] theorem modUnit_heldWrites (u : Nat) (f : UnitSt → UnitSt) : (s.modUnit u f).heldWrites = s.heldWrites := rfl
@[simp] theorem modUnit_ports (u : Nat) (f : UnitSt → UnitSt) : (s.modUnit u f).ports = s.ports := rfl
@[simp] theorem modUnit_board (u : Nat) (f : UnitSt → UnitSt) : (s.modUnit u f).board = s.board := rfl
@[simp] theorem modUnit_cel (u : Nat) (f : UnitSt → UnitSt) : (s.modUnit u f).cel = s.cel := rfl
@[simp] theorem modUnit_evt (u : Nat) (f : UnitSt → UnitSt) : (s.modUnit u f).evt = s.evt := rfl
@[simp] theorem modUnit_boot (u : Nat) (f : UnitSt → UnitSt) : (s.modUnit u f).boot = s.boot := rfl
@[simp] theorem modUnit_pwr (u : Nat) (f : UnitSt → UnitSt) : (s.modUnit u f).pwr = s.pwr := rfl
@[simp] theorem modUnit_outbox (u : Nat) (f : UnitSt → UnitSt) : (s.modUnit u f).outbox = s.outbox := rfl
@[simp] theorem modUnit_pending (u : Nat) (f : UnitSt → UnitSt) : (s.modUnit u f).pending = s.pending := rfl

@[simp] theorem modUnit_same (u : Nat) (f : UnitSt → UnitSt) : (s.modUnit u f).unit u = f (s.unit u) := smGet_smMod_same _ _
theorem modUnit_other {u k : Nat} (f : UnitSt → UnitSt) (h : k ≠ u) : (s.modUnit u f).unit k = s.unit k := smGet_smMod_other _ h
@[simp] theorem modUnit_tile (u : Nat) (f : UnitSt → UnitSt) (j : Nat) : (s.modUnit u f).tile j = s.tile j := rfl
@[simp] theorem modUnit_ctx (u : Nat) (f : UnitSt → UnitSt) (j : Nat) : (s.modUnit u f).ctx j = s.ctx j := rfl
@[simp] theorem modUnit_fn (u : Nat) (f : UnitSt → UnitSt) (j : Nat) : (s.modUnit u f).fn j = s.fn j := rfl
@[simp] theorem modUnit_hport (u : Nat) (f : UnitSt → UnitSt) (j : Nat) : (s.modUnit u f).hport j = s.hport j := rfl
@[simp] theorem modUnit_port (u : Nat) (f : UnitSt → UnitSt) (j : Nat) : (s.modUnit u f).port j = s.port j := rfl
@[simp] theorem modUnit_arb (u : Nat) (f : UnitSt → UnitSt) (j : Nat) : (s.modUnit u f).arb j = s.arb j := rfl
@[simp] theorem modUnit_pent (u : Nat) (f : UnitSt → UnitSt) (j : Nat) : (s.modUnit u f).pent j = s.pent j := rfl

/-! ### modPort -/

@[simp] theorem modPort_variant (p : Nat) (f : LPort → LPort) : (s.modPort p f).variant = s.variant := rfl
@[simp] theorem modPort_beat (p : Nat) (f : LPort → LPort) : (s.modPort p f).beat = s.beat := rfl
@[simp] theorem modPort_cfg (p : Nat) (f : LPort → LPort) : (s.modPort p f).cfg = s.cfg := rfl
@[simp] theorem modPort_rwi (p : Nat) (f : LPort → LPort) : (s.modPort p f).rwi = s.rwi := rfl
@[simp] theorem modPort_rwiNew (p : Nat) (f : LPort → LPort) : (s.modPort p f).rwiNew = s.rwiNew := rfl
@[simp] theorem modPort_old (p : Nat) (f : LPort → LPort) : (s.modPort p f).old = s.old := rfl
@[simp] theorem modPort_hub (p : Nat) (f : LPort → LPort) : (s.modPort p f).hub = s.hub := rfl
@[simp] theorem modPort_arbs (p : Nat) (f : LPort → LPort) : (s.modPort p f).arbs = s.arbs := rfl
@[simp] theorem modPort_tiles (p : Nat) (f : LPort → LPort) : (s.modPort p f).tiles = s.tiles := rfl
@[simp] theorem modPort_ctxs (p : Nat) (f : LPort → LPort) : (s.modPort p f).ctxs = s.ctxs := rfl
@[simp] theorem modPort_fns (p : Nat) (f : LPort → LPort) : (s.modPort p f).fns = s.fns := rfl
@[simp] theorem modPort_hports (p : Nat) (f : LPort → LPort) : (s.modPort p f).hports = s.hports := rfl
@[simp] theorem modPort_units (p : Nat) (f : LPort → LPort) : (s.modPort p f).units = s.units := rfl
@[simp] theorem modPort_mem (p : Nat) (f : LPort → LPort) : (s.modPort p f).mem = s.mem := rfl
@[simp] theorem modPort_poison (p : Nat) (f : LPort → LPort) : (s.modPort p f).poison = s.poison := rfl
@[simp] theorem modPort_hdrs (p : Nat) (f : LPort → LPort) : (s.modPort p f).hdrs = s.hdrs := rfl
@[simp] theorem modPort_hdrPoison (p : Nat) (f : LPort → LPort) : (s.modPort p f).hdrPoison = s.hdrPoison := rfl
@[simp] theorem modPort_place (p : Nat) (f : LPort → LPort) : (s.modPort p f).place = s.place := rfl
@[simp] theorem modPort_mig (p : Nat) (f : LPort → LPort) : (s.modPort p f).mig = s.mig := rfl
@[simp] theorem modPort_ras (p : Nat) (f : LPort → LPort) : (s.modPort p f).ras = s.ras := rfl
@[simp] theorem modPort_xfers (p : Nat) (f : LPort → LPort) : (s.modPort p f).xfers = s.xfers := rfl
@[simp] theorem modPort_upds (p : Nat) (f : LPort → LPort) : (s.modPort p f).upds = s.upds := rfl
@[simp] theorem modPort_contribs (p : Nat) (f : LPort → LPort) : (s.modPort p f).contribs = s.contribs := rfl
@[simp] theorem modPort_rsigs (p : Nat) (f : LPort → LPort) : (s.modPort p f).rsigs = s.rsigs := rfl
@[simp] theorem modPort_heldWrites (p : Nat) (f : LPort → LPort) : (s.modPort p f).heldWrites = s.heldWrites := rfl
@[simp] theorem modPort_board (p : Nat) (f : LPort → LPort) : (s.modPort p f).board = s.board := rfl
@[simp] theorem modPort_cel (p : Nat) (f : LPort → LPort) : (s.modPort p f).cel = s.cel := rfl
@[simp] theorem modPort_evt (p : Nat) (f : LPort → LPort) : (s.modPort p f).evt = s.evt := rfl
@[simp] theorem modPort_boot (p : Nat) (f : LPort → LPort) : (s.modPort p f).boot = s.boot := rfl
@[simp] theorem modPort_pwr (p : Nat) (f : LPort → LPort) : (s.modPort p f).pwr = s.pwr := rfl
@[simp] theorem modPort_outbox (p : Nat) (f : LPort → LPort) : (s.modPort p f).outbox = s.outbox := rfl
@[simp] theorem modPort_pending (p : Nat) (f : LPort → LPort) : (s.modPort p f).pending = s.pending := rfl

@[simp] theorem modPort_same (p : Nat) (f : LPort → LPort) : (s.modPort p f).port p = f (s.port p) := smGet_smMod_same _ _
theorem modPort_other {p k : Nat} (f : LPort → LPort) (h : k ≠ p) : (s.modPort p f).port k = s.port k := smGet_smMod_other _ h
@[simp] theorem modPort_tile (p : Nat) (f : LPort → LPort) (j : Nat) : (s.modPort p f).tile j = s.tile j := rfl
@[simp] theorem modPort_ctx (p : Nat) (f : LPort → LPort) (j : Nat) : (s.modPort p f).ctx j = s.ctx j := rfl
@[simp] theorem modPort_fn (p : Nat) (f : LPort → LPort) (j : Nat) : (s.modPort p f).fn j = s.fn j := rfl
@[simp] theorem modPort_hport (p : Nat) (f : LPort → LPort) (j : Nat) : (s.modPort p f).hport j = s.hport j := rfl
@[simp] theorem modPort_unit (p : Nat) (f : LPort → LPort) (j : Nat) : (s.modPort p f).unit j = s.unit j := rfl
@[simp] theorem modPort_arb (p : Nat) (f : LPort → LPort) (j : Nat) : (s.modPort p f).arb j = s.arb j := rfl
@[simp] theorem modPort_pent (p : Nat) (f : LPort → LPort) (j : Nat) : (s.modPort p f).pent j = s.pent j := rfl

/-! ### modArb -/

@[simp] theorem modArb_variant (a : Nat) (f : Arb → Arb) : (s.modArb a f).variant = s.variant := rfl
@[simp] theorem modArb_beat (a : Nat) (f : Arb → Arb) : (s.modArb a f).beat = s.beat := rfl
@[simp] theorem modArb_cfg (a : Nat) (f : Arb → Arb) : (s.modArb a f).cfg = s.cfg := rfl
@[simp] theorem modArb_rwi (a : Nat) (f : Arb → Arb) : (s.modArb a f).rwi = s.rwi := rfl
@[simp] theorem modArb_rwiNew (a : Nat) (f : Arb → Arb) : (s.modArb a f).rwiNew = s.rwiNew := rfl
@[simp] theorem modArb_old (a : Nat) (f : Arb → Arb) : (s.modArb a f).old = s.old := rfl
@[simp] theorem modArb_hub (a : Nat) (f : Arb → Arb) : (s.modArb a f).hub = s.hub := rfl
@[simp] theorem modArb_tiles (a : Nat) (f : Arb → Arb) : (s.modArb a f).tiles = s.tiles := rfl
@[simp] theorem modArb_ctxs (a : Nat) (f : Arb → Arb) : (s.modArb a f).ctxs = s.ctxs := rfl
@[simp] theorem modArb_fns (a : Nat) (f : Arb → Arb) : (s.modArb a f).fns = s.fns := rfl
@[simp] theorem modArb_hports (a : Nat) (f : Arb → Arb) : (s.modArb a f).hports = s.hports := rfl
@[simp] theorem modArb_units (a : Nat) (f : Arb → Arb) : (s.modArb a f).units = s.units := rfl
@[simp] theorem modArb_mem (a : Nat) (f : Arb → Arb) : (s.modArb a f).mem = s.mem := rfl
@[simp] theorem modArb_poison (a : Nat) (f : Arb → Arb) : (s.modArb a f).poison = s.poison := rfl
@[simp] theorem modArb_hdrs (a : Nat) (f : Arb → Arb) : (s.modArb a f).hdrs = s.hdrs := rfl
@[simp] theorem modArb_hdrPoison (a : Nat) (f : Arb → Arb) : (s.modArb a f).hdrPoison = s.hdrPoison := rfl
@[simp] theorem modArb_place (a : Nat) (f : Arb → Arb) : (s.modArb a f).place = s.place := rfl
@[simp] theorem modArb_mig (a : Nat) (f : Arb → Arb) : (s.modArb a f).mig = s.mig := rfl
@[simp] theorem modArb_ras (a : Nat) (f : Arb → Arb) : (s.modArb a f).ras = s.ras := rfl
@[simp] theorem modArb_xfers (a : Nat) (f : Arb → Arb) : (s.modArb a f).xfers = s.xfers := rfl
@[simp] theorem modArb_upds (a : Nat) (f : Arb → Arb) : (s.modArb a f).upds = s.upds := rfl
@[simp] theorem modArb_contribs (a : Nat) (f : Arb → Arb) : (s.modArb a f).contribs = s.contribs := rfl
@[simp] theorem modArb_rsigs (a : Nat) (f : Arb → Arb) : (s.modArb a f).rsigs = s.rsigs := rfl
@[simp] theorem modArb_heldWrites (a : Nat) (f : Arb → Arb) : (s.modArb a f).heldWrites = s.heldWrites := rfl
@[simp] theorem modArb_ports (a : Nat) (f : Arb → Arb) : (s.modArb a f).ports = s.ports := rfl
@[simp] theorem modArb_board (a : Nat) (f : Arb → Arb) : (s.modArb a f).board = s.board := rfl
@[simp] theorem modArb_cel (a : Nat) (f : Arb → Arb) : (s.modArb a f).cel = s.cel := rfl
@[simp] theorem modArb_evt (a : Nat) (f : Arb → Arb) : (s.modArb a f).evt = s.evt := rfl
@[simp] theorem modArb_boot (a : Nat) (f : Arb → Arb) : (s.modArb a f).boot = s.boot := rfl
@[simp] theorem modArb_pwr (a : Nat) (f : Arb → Arb) : (s.modArb a f).pwr = s.pwr := rfl
@[simp] theorem modArb_outbox (a : Nat) (f : Arb → Arb) : (s.modArb a f).outbox = s.outbox := rfl
@[simp] theorem modArb_pending (a : Nat) (f : Arb → Arb) : (s.modArb a f).pending = s.pending := rfl

@[simp] theorem modArb_same (a : Nat) (f : Arb → Arb) : (s.modArb a f).arb a = f (s.arb a) := smGet_smMod_same _ _
theorem modArb_other {a k : Nat} (f : Arb → Arb) (h : k ≠ a) : (s.modArb a f).arb k = s.arb k := smGet_smMod_other _ h
@[simp] theorem modArb_tile (a : Nat) (f : Arb → Arb) (j : Nat) : (s.modArb a f).tile j = s.tile j := rfl
@[simp] theorem modArb_ctx (a : Nat) (f : Arb → Arb) (j : Nat) : (s.modArb a f).ctx j = s.ctx j := rfl
@[simp] theorem modArb_fn (a : Nat) (f : Arb → Arb) (j : Nat) : (s.modArb a f).fn j = s.fn j := rfl
@[simp] theorem modArb_hport (a : Nat) (f : Arb → Arb) (j : Nat) : (s.modArb a f).hport j = s.hport j := rfl
@[simp] theorem modArb_unit (a : Nat) (f : Arb → Arb) (j : Nat) : (s.modArb a f).unit j = s.unit j := rfl
@[simp] theorem modArb_port (a : Nat) (f : Arb → Arb) (j : Nat) : (s.modArb a f).port j = s.port j := rfl
@[simp] theorem modArb_pent (a : Nat) (f : Arb → Arb) (j : Nat) : (s.modArb a f).pent j = s.pent j := rfl

/-! ### modPent -/

@[simp] theorem modPent_variant (g : Nat) (f : PEntry → PEntry) : (s.modPent g f).variant = s.variant := rfl
@[simp] theorem modPent_beat (g : Nat) (f : PEntry → PEntry) : (s.modPent g f).beat = s.beat := rfl
@[simp] theorem modPent_cfg (g : Nat) (f : PEntry → PEntry) : (s.modPent g f).cfg = s.cfg := rfl
@[simp] theorem modPent_rwi (g : Nat) (f : PEntry → PEntry) : (s.modPent g f).rwi = s.rwi := rfl
@[simp] theorem modPent_rwiNew (g : Nat) (f : PEntry → PEntry) : (s.modPent g f).rwiNew = s.rwiNew := rfl
@[simp] theorem modPent_old (g : Nat) (f : PEntry → PEntry) : (s.modPent g f).old = s.old := rfl
@[simp] theorem modPent_hub (g : Nat) (f : PEntry → PEntry) : (s.modPent g f).hub = s.hub := rfl
@[simp] theorem modPent_arbs (g : Nat) (f : PEntry → PEntry) : (s.modPent g f).arbs = s.arbs := rfl
@[simp] theorem modPent_tiles (g : Nat) (f : PEntry → PEntry) : (s.modPent g f).tiles = s.tiles := rfl
@[simp] theorem modPent_ctxs (g : Nat) (f : PEntry → PEntry) : (s.modPent g f).ctxs = s.ctxs := rfl
@[simp] theorem modPent_fns (g : Nat) (f : PEntry → PEntry) : (s.modPent g f).fns = s.fns := rfl
@[simp] theorem modPent_hports (g : Nat) (f : PEntry → PEntry) : (s.modPent g f).hports = s.hports := rfl
@[simp] theorem modPent_units (g : Nat) (f : PEntry → PEntry) : (s.modPent g f).units = s.units := rfl
@[simp] theorem modPent_mem (g : Nat) (f : PEntry → PEntry) : (s.modPent g f).mem = s.mem := rfl
@[simp] theorem modPent_poison (g : Nat) (f : PEntry → PEntry) : (s.modPent g f).poison = s.poison := rfl
@[simp] theorem modPent_hdrs (g : Nat) (f : PEntry → PEntry) : (s.modPent g f).hdrs = s.hdrs := rfl
@[simp] theorem modPent_hdrPoison (g : Nat) (f : PEntry → PEntry) : (s.modPent g f).hdrPoison = s.hdrPoison := rfl
@[simp] theorem modPent_mig (g : Nat) (f : PEntry → PEntry) : (s.modPent g f).mig = s.mig := rfl
@[simp] theorem modPent_ras (g : Nat) (f : PEntry → PEntry) : (s.modPent g f).ras = s.ras := rfl
@[simp] theorem modPent_xfers (g : Nat) (f : PEntry → PEntry) : (s.modPent g f).xfers = s.xfers := rfl
@[simp] theorem modPent_upds (g : Nat) (f : PEntry → PEntry) : (s.modPent g f).upds = s.upds := rfl
@[simp] theorem modPent_contribs (g : Nat) (f : PEntry → PEntry) : (s.modPent g f).contribs = s.contribs := rfl
@[simp] theorem modPent_rsigs (g : Nat) (f : PEntry → PEntry) : (s.modPent g f).rsigs = s.rsigs := rfl
@[simp] theorem modPent_heldWrites (g : Nat) (f : PEntry → PEntry) : (s.modPent g f).heldWrites = s.heldWrites := rfl
@[simp] theorem modPent_ports (g : Nat) (f : PEntry → PEntry) : (s.modPent g f).ports = s.ports := rfl
@[simp] theorem modPent_board (g : Nat) (f : PEntry → PEntry) : (s.modPent g f).board = s.board := rfl
@[simp] theorem modPent_cel (g : Nat) (f : PEntry → PEntry) : (s.modPent g f).cel = s.cel := rfl
@[simp] theorem modPent_evt (g : Nat) (f : PEntry → PEntry) : (s.modPent g f).evt = s.evt := rfl
@[simp] theorem modPent_boot (g : Nat) (f : PEntry → PEntry) : (s.modPent g f).boot = s.boot := rfl
@[simp] theorem modPent_pwr (g : Nat) (f : PEntry → PEntry) : (s.modPent g f).pwr = s.pwr := rfl
@[simp] theorem modPent_outbox (g : Nat) (f : PEntry → PEntry) : (s.modPent g f).outbox = s.outbox := rfl
@[simp] theorem modPent_pending (g : Nat) (f : PEntry → PEntry) : (s.modPent g f).pending = s.pending := rfl

@[simp] theorem modPent_same (g : Nat) (f : PEntry → PEntry) : (s.modPent g f).pent g = f (s.pent g) := smGet_smMod_same _ _
theorem modPent_other {g k : Nat} (f : PEntry → PEntry) (h : k ≠ g) : (s.modPent g f).pent k = s.pent k := smGet_smMod_other _ h
@[simp] theorem modPent_tile (g : Nat) (f : PEntry → PEntry) (j : Nat) : (s.modPent g f).tile j = s.tile j := rfl
@[simp] theorem modPent_ctx (g : Nat) (f : PEntry → PEntry) (j : Nat) : (s.modPent g f).ctx j = s.ctx j := rfl
@[simp] theorem modPent_fn (g : Nat) (f : PEntry → PEntry) (j : Nat) : (s.modPent g f).fn j = s.fn j := rfl
@[simp] theorem modPent_hport (g : Nat) (f : PEntry → PEntry) (j : Nat) : (s.modPent g f).hport j = s.hport j := rfl
@[simp] theorem modPent_unit (g : Nat) (f : PEntry → PEntry) (j : Nat) : (s.modPent g f).unit j = s.unit j := rfl
@[simp] theorem modPent_port (g : Nat) (f : PEntry → PEntry) (j : Nat) : (s.modPent g f).port j = s.port j := rfl
@[simp] theorem modPent_arb (g : Nat) (f : PEntry → PEntry) (j : Nat) : (s.modPent g f).arb j = s.arb j := rfl

/-! ### modSeq -/

@[simp] theorem modSeq_variant (t : Nat) (st : Stream) (f : Seq → Seq) : (s.modSeq t st f).variant = s.variant := rfl
@[simp] theorem modSeq_beat (t : Nat) (st : Stream) (f : Seq → Seq) : (s.modSeq t st f).beat = s.beat := rfl
@[simp] theorem modSeq_cfg (t : Nat) (st : Stream) (f : Seq → Seq) : (s.modSeq t st f).cfg = s.cfg := rfl
@[simp] theorem modSeq_rwi (t : Nat) (st : Stream) (f : Seq → Seq) : (s.modSeq t st f).rwi = s.rwi := rfl
@[simp] theorem modSeq_rwiNew (t : Nat) (st : Stream) (f : Seq → Seq) : (s.modSeq t st f).rwiNew = s.rwiNew := rfl
@[simp] theorem modSeq_old (t : Nat) (st : Stream) (f : Seq → Seq) : (s.modSeq t st f).old = s.old := rfl
@[simp] theorem modSeq_hub (t : Nat) (st : Stream) (f : Seq → Seq) : (s.modSeq t st f).hub = s.hub := rfl
@[simp] theorem modSeq_arbs (t : Nat) (st : Stream) (f : Seq → Seq) : (s.modSeq t st f).arbs = s.arbs := rfl
@[simp] theorem modSeq_ctxs (t : Nat) (st : Stream) (f : Seq → Seq) : (s.modSeq t st f).ctxs = s.ctxs := rfl
@[simp] theorem modSeq_fns (t : Nat) (st : Stream) (f : Seq → Seq) : (s.modSeq t st f).fns = s.fns := rfl
@[simp] theorem modSeq_hports (t : Nat) (st : Stream) (f : Seq → Seq) : (s.modSeq t st f).hports = s.hports := rfl
@[simp] theorem modSeq_units (t : Nat) (st : Stream) (f : Seq → Seq) : (s.modSeq t st f).units = s.units := rfl
@[simp] theorem modSeq_mem (t : Nat) (st : Stream) (f : Seq → Seq) : (s.modSeq t st f).mem = s.mem := rfl
@[simp] theorem modSeq_poison (t : Nat) (st : Stream) (f : Seq → Seq) : (s.modSeq t st f).poison = s.poison := rfl
@[simp] theorem modSeq_hdrs (t : Nat) (st : Stream) (f : Seq → Seq) : (s.modSeq t st f).hdrs = s.hdrs := rfl
@[simp] theorem modSeq_hdrPoison (t : Nat) (st : Stream) (f : Seq → Seq) : (s.modSeq t st f).hdrPoison = s.hdrPoison := rfl
@[simp] theorem modSeq_place (t : Nat) (st : Stream) (f : Seq → Seq) : (s.modSeq t st f).place = s.place := rfl
@[simp] theorem modSeq_mig (t : Nat) (st : Stream) (f : Seq → Seq) : (s.modSeq t st f).mig = s.mig := rfl
@[simp] theorem modSeq_ras (t : Nat) (st : Stream) (f : Seq → Seq) : (s.modSeq t st f).ras = s.ras := rfl
@[simp] theorem modSeq_xfers (t : Nat) (st : Stream) (f : Seq → Seq) : (s.modSeq t st f).xfers = s.xfers := rfl
@[simp] theorem modSeq_upds (t : Nat) (st : Stream) (f : Seq → Seq) : (s.modSeq t st f).upds = s.upds := rfl
@[simp] theorem modSeq_contribs (t : Nat) (st : Stream) (f : Seq → Seq) : (s.modSeq t st f).contribs = s.contribs := rfl
@[simp] theorem modSeq_rsigs (t : Nat) (st : Stream) (f : Seq → Seq) : (s.modSeq t st f).rsigs = s.rsigs := rfl
@[simp] theorem modSeq_heldWrites (t : Nat) (st : Stream) (f : Seq → Seq) : (s.modSeq t st f).heldWrites = s.heldWrites := rfl
@[simp] theorem modSeq_ports (t : Nat) (st : Stream) (f : Seq → Seq) : (s.modSeq t st f).ports = s.ports := rfl
@[simp] theorem modSeq_board (t : Nat) (st : Stream) (f : Seq → Seq) : (s.modSeq t st f).board = s.board := rfl
@[simp] theorem modSeq_cel (t : Nat) (st : Stream) (f : Seq → Seq) : (s.modSeq t st f).cel = s.cel := rfl
@[simp] theorem modSeq_evt (t : Nat) (st : Stream) (f : Seq → Seq) : (s.modSeq t st f).evt = s.evt := rfl
@[simp] theorem modSeq_boot (t : Nat) (st : Stream) (f : Seq → Seq) : (s.modSeq t st f).boot = s.boot := rfl
@[simp] theorem modSeq_pwr (t : Nat) (st : Stream) (f : Seq → Seq) : (s.modSeq t st f).pwr = s.pwr := rfl
@[simp] theorem modSeq_outbox (t : Nat) (st : Stream) (f : Seq → Seq) : (s.modSeq t st f).outbox = s.outbox := rfl
@[simp] theorem modSeq_pending (t : Nat) (st : Stream) (f : Seq → Seq) : (s.modSeq t st f).pending = s.pending := rfl
@[simp] theorem modSeq_ctx (t : Nat) (st : Stream) (f : Seq → Seq) (j : Nat) : (s.modSeq t st f).ctx j = s.ctx j := rfl
@[simp] theorem modSeq_fn (t : Nat) (st : Stream) (f : Seq → Seq) (j : Nat) : (s.modSeq t st f).fn j = s.fn j := rfl
@[simp] theorem modSeq_hport (t : Nat) (st : Stream) (f : Seq → Seq) (j : Nat) : (s.modSeq t st f).hport j = s.hport j := rfl
@[simp] theorem modSeq_unit (t : Nat) (st : Stream) (f : Seq → Seq) (j : Nat) : (s.modSeq t st f).unit j = s.unit j := rfl
@[simp] theorem modSeq_port (t : Nat) (st : Stream) (f : Seq → Seq) (j : Nat) : (s.modSeq t st f).port j = s.port j := rfl
@[simp] theorem modSeq_arb (t : Nat) (st : Stream) (f : Seq → Seq) (j : Nat) : (s.modSeq t st f).arb j = s.arb j := rfl
@[simp] theorem modSeq_pent (t : Nat) (st : Stream) (f : Seq → Seq) (j : Nat) : (s.modSeq t st f).pent j = s.pent j := rfl

/-! ### modStep -/

@[simp] theorem modStep_variant (c : Nat) (f : StepSt → StepSt) : (s.modStep c f).variant = s.variant := rfl
@[simp] theorem modStep_beat (c : Nat) (f : StepSt → StepSt) : (s.modStep c f).beat = s.beat := rfl
@[simp] theorem modStep_cfg (c : Nat) (f : StepSt → StepSt) : (s.modStep c f).cfg = s.cfg := rfl
@[simp] theorem modStep_rwi (c : Nat) (f : StepSt → StepSt) : (s.modStep c f).rwi = s.rwi := rfl
@[simp] theorem modStep_rwiNew (c : Nat) (f : StepSt → StepSt) : (s.modStep c f).rwiNew = s.rwiNew := rfl
@[simp] theorem modStep_old (c : Nat) (f : StepSt → StepSt) : (s.modStep c f).old = s.old := rfl
@[simp] theorem modStep_hub (c : Nat) (f : StepSt → StepSt) : (s.modStep c f).hub = s.hub := rfl
@[simp] theorem modStep_arbs (c : Nat) (f : StepSt → StepSt) : (s.modStep c f).arbs = s.arbs := rfl
@[simp] theorem modStep_tiles (c : Nat) (f : StepSt → StepSt) : (s.modStep c f).tiles = s.tiles := rfl
@[simp] theorem modStep_fns (c : Nat) (f : StepSt → StepSt) : (s.modStep c f).fns = s.fns := rfl
@[simp] theorem modStep_hports (c : Nat) (f : StepSt → StepSt) : (s.modStep c f).hports = s.hports := rfl
@[simp] theorem modStep_units (c : Nat) (f : StepSt → StepSt) : (s.modStep c f).units = s.units := rfl
@[simp] theorem modStep_mem (c : Nat) (f : StepSt → StepSt) : (s.modStep c f).mem = s.mem := rfl
@[simp] theorem modStep_poison (c : Nat) (f : StepSt → StepSt) : (s.modStep c f).poison = s.poison := rfl
@[simp] theorem modStep_hdrs (c : Nat) (f : StepSt → StepSt) : (s.modStep c f).hdrs = s.hdrs := rfl
@[simp] theorem modStep_hdrPoison (c : Nat) (f : StepSt → StepSt) : (s.modStep c f).hdrPoison = s.hdrPoison := rfl
@[simp] theorem modStep_place (c : Nat) (f : StepSt → StepSt) : (s.modStep c f).place = s.place := rfl
@[simp] theorem modStep_mig (c : Nat) (f : StepSt → StepSt) : (s.modStep c f).mig = s.mig := rfl
@[simp] theorem modStep_ras (c : Nat) (f : StepSt → StepSt) : (s.modStep c f).ras = s.ras := rfl
@[simp] theorem modStep_xfers (c : Nat) (f : StepSt → StepSt) : (s.modStep c f).xfers = s.xfers := rfl
@[simp] theorem modStep_upds (c : Nat) (f : StepSt → StepSt) : (s.modStep c f).upds = s.upds := rfl
@[simp] theorem modStep_contribs (c : Nat) (f : StepSt → StepSt) : (s.modStep c f).contribs = s.contribs := rfl
@[simp] theorem modStep_rsigs (c : Nat) (f : StepSt → StepSt) : (s.modStep c f).rsigs = s.rsigs := rfl
@[simp] theorem modStep_heldWrites (c : Nat) (f : StepSt → StepSt) : (s.modStep c f).heldWrites = s.heldWrites := rfl
@[simp] theorem modStep_ports (c : Nat) (f : StepSt → StepSt) : (s.modStep c f).ports = s.ports := rfl
@[simp] theorem modStep_board (c : Nat) (f : StepSt → StepSt) : (s.modStep c f).board = s.board := rfl
@[simp] theorem modStep_cel (c : Nat) (f : StepSt → StepSt) : (s.modStep c f).cel = s.cel := rfl
@[simp] theorem modStep_evt (c : Nat) (f : StepSt → StepSt) : (s.modStep c f).evt = s.evt := rfl
@[simp] theorem modStep_boot (c : Nat) (f : StepSt → StepSt) : (s.modStep c f).boot = s.boot := rfl
@[simp] theorem modStep_pwr (c : Nat) (f : StepSt → StepSt) : (s.modStep c f).pwr = s.pwr := rfl
@[simp] theorem modStep_outbox (c : Nat) (f : StepSt → StepSt) : (s.modStep c f).outbox = s.outbox := rfl
@[simp] theorem modStep_pending (c : Nat) (f : StepSt → StepSt) : (s.modStep c f).pending = s.pending := rfl
@[simp] theorem modStep_tile (c : Nat) (f : StepSt → StepSt) (j : Nat) : (s.modStep c f).tile j = s.tile j := rfl
@[simp] theorem modStep_fn (c : Nat) (f : StepSt → StepSt) (j : Nat) : (s.modStep c f).fn j = s.fn j := rfl
@[simp] theorem modStep_hport (c : Nat) (f : StepSt → StepSt) (j : Nat) : (s.modStep c f).hport j = s.hport j := rfl
@[simp] theorem modStep_unit (c : Nat) (f : StepSt → StepSt) (j : Nat) : (s.modStep c f).unit j = s.unit j := rfl
@[simp] theorem modStep_port (c : Nat) (f : StepSt → StepSt) (j : Nat) : (s.modStep c f).port j = s.port j := rfl
@[simp] theorem modStep_arb (c : Nat) (f : StepSt → StepSt) (j : Nat) : (s.modStep c f).arb j = s.arb j := rfl
@[simp] theorem modStep_pent (c : Nat) (f : StepSt → StepSt) (j : Nat) : (s.modStep c f).pent j = s.pent j := rfl

@[simp] theorem tile_modSeq_same (x : Tile) (st : Stream) (f : Seq → Seq) : (x.modSeq st f).seq st = f (x.seq st) := by
  cases st <;> rfl

@[simp] theorem modSeq_same (t : Nat) (st : Stream) (f : Seq → Seq) : (s.modSeq t st f).seq t st = f (s.seq t st) := by
  simp [State.seq, State.modSeq]

@[simp] theorem modStep_same (c : Nat) (f : StepSt → StepSt) : ((s.modStep c f).ctx c).step = f (s.ctx c).step := by
  simp [State.modStep]

/-! ### send -/

@[simp] theorem send_variant (m : Msg) : (s.send m).variant = s.variant := rfl
@[simp] theorem send_beat (m : Msg) : (s.send m).beat = s.beat := rfl
@[simp] theorem send_cfg (m : Msg) : (s.send m).cfg = s.cfg := rfl
@[simp] theorem send_rwi (m : Msg) : (s.send m).rwi = s.rwi := rfl
@[simp] theorem send_rwiNew (m : Msg) : (s.send m).rwiNew = s.rwiNew := rfl
@[simp] theorem send_old (m : Msg) : (s.send m).old = s.old := rfl
@[simp] theorem send_hub (m : Msg) : (s.send m).hub = s.hub := rfl
@[simp] theorem send_arbs (m : Msg) : (s.send m).arbs = s.arbs := rfl
@[simp] theorem send_tiles (m : Msg) : (s.send m).tiles = s.tiles := rfl
@[simp] theorem send_ctxs (m : Msg) : (s.send m).ctxs = s.ctxs := rfl
@[simp] theorem send_fns (m : Msg) : (s.send m).fns = s.fns := rfl
@[simp] theorem send_hports (m : Msg) : (s.send m).hports = s.hports := rfl
@[simp] theorem send_units (m : Msg) : (s.send m).units = s.units := rfl
@[simp] theorem send_mem (m : Msg) : (s.send m).mem = s.mem := rfl
@[simp] theorem send_poison (m : Msg) : (s.send m).poison = s.poison := rfl
@[simp] theorem send_hdrs (m : Msg) : (s.send m).hdrs = s.hdrs := rfl
@[simp] theorem send_hdrPoison (m : Msg) : (s.send m).hdrPoison = s.hdrPoison := rfl
@[simp] theorem send_place (m : Msg) : (s.send m).place = s.place := rfl
@[simp] theorem send_mig (m : Msg) : (s.send m).mig = s.mig := rfl
@[simp] theorem send_ras (m : Msg) : (s.send m).ras = s.ras := rfl
@[simp] theorem send_xfers (m : Msg) : (s.send m).xfers = s.xfers := rfl
@[simp] theorem send_upds (m : Msg) : (s.send m).upds = s.upds := rfl
@[simp] theorem send_contribs (m : Msg) : (s.send m).contribs = s.contribs := rfl
@[simp] theorem send_rsigs (m : Msg) : (s.send m).rsigs = s.rsigs := rfl
@[simp] theorem send_heldWrites (m : Msg) : (s.send m).heldWrites = s.heldWrites := rfl
@[simp] theorem send_ports (m : Msg) : (s.send m).ports = s.ports := rfl
@[simp] theorem send_board (m : Msg) : (s.send m).board = s.board := rfl
@[simp] theorem send_cel (m : Msg) : (s.send m).cel = s.cel := rfl
@[simp] theorem send_evt (m : Msg) : (s.send m).evt = s.evt := rfl
@[simp] theorem send_boot (m : Msg) : (s.send m).boot = s.boot := rfl
@[simp] theorem send_pwr (m : Msg) : (s.send m).pwr = s.pwr := rfl
@[simp] theorem send_pending (m : Msg) : (s.send m).pending = s.pending := rfl
@[simp] theorem send_outbox (m : Msg) : (s.send m).outbox = s.outbox ++ [m] := rfl

/-! ### wr -/

@[simp] theorem wr_variant (a : Nat) (l : List Byte) : (s.wr a l).variant = s.variant := rfl
@[simp] theorem wr_beat (a : Nat) (l : List Byte) : (s.wr a l).beat = s.beat := rfl
@[simp] theorem wr_cfg (a : Nat) (l : List Byte) : (s.wr a l).cfg = s.cfg := rfl
@[simp] theorem wr_rwi (a : Nat) (l : List Byte) : (s.wr a l).rwi = s.rwi := rfl
@[simp] theorem wr_rwiNew (a : Nat) (l : List Byte) : (s.wr a l).rwiNew = s.rwiNew := rfl
@[simp] theorem wr_old (a : Nat) (l : List Byte) : (s.wr a l).old = s.old := rfl
@[simp] theorem wr_hub (a : Nat) (l : List Byte) : (s.wr a l).hub = s.hub := rfl
@[simp] theorem wr_arbs (a : Nat) (l : List Byte) : (s.wr a l).arbs = s.arbs := rfl
@[simp] theorem wr_tiles (a : Nat) (l : List Byte) : (s.wr a l).tiles = s.tiles := rfl
@[simp] theorem wr_ctxs (a : Nat) (l : List Byte) : (s.wr a l).ctxs = s.ctxs := rfl
@[simp] theorem wr_fns (a : Nat) (l : List Byte) : (s.wr a l).fns = s.fns := rfl
@[simp] theorem wr_hports (a : Nat) (l : List Byte) : (s.wr a l).hports = s.hports := rfl
@[simp] theorem wr_units (a : Nat) (l : List Byte) : (s.wr a l).units = s.units := rfl
@[simp] theorem wr_hdrs (a : Nat) (l : List Byte) : (s.wr a l).hdrs = s.hdrs := rfl
@[simp] theorem wr_hdrPoison (a : Nat) (l : List Byte) : (s.wr a l).hdrPoison = s.hdrPoison := rfl
@[simp] theorem wr_place (a : Nat) (l : List Byte) : (s.wr a l).place = s.place := rfl
@[simp] theorem wr_mig (a : Nat) (l : List Byte) : (s.wr a l).mig = s.mig := rfl
@[simp] theorem wr_ras (a : Nat) (l : List Byte) : (s.wr a l).ras = s.ras := rfl
@[simp] theorem wr_xfers (a : Nat) (l : List Byte) : (s.wr a l).xfers = s.xfers := rfl
@[simp] theorem wr_upds (a : Nat) (l : List Byte) : (s.wr a l).upds = s.upds := rfl
@[simp] theorem wr_contribs (a : Nat) (l : List Byte) : (s.wr a l).contribs = s.contribs := rfl
@[simp] theorem wr_rsigs (a : Nat) (l : List Byte) : (s.wr a l).rsigs = s.rsigs := rfl
@[simp] theorem wr_heldWrites (a : Nat) (l : List Byte) : (s.wr a l).heldWrites = s.heldWrites := rfl
@[simp] theorem wr_ports (a : Nat) (l : List Byte) : (s.wr a l).ports = s.ports := rfl
@[simp] theorem wr_board (a : Nat) (l : List Byte) : (s.wr a l).board = s.board := rfl
@[simp] theorem wr_cel (a : Nat) (l : List Byte) : (s.wr a l).cel = s.cel := rfl
@[simp] theorem wr_evt (a : Nat) (l : List Byte) : (s.wr a l).evt = s.evt := rfl
@[simp] theorem wr_boot (a : Nat) (l : List Byte) : (s.wr a l).boot = s.boot := rfl
@[simp] theorem wr_pwr (a : Nat) (l : List Byte) : (s.wr a l).pwr = s.pwr := rfl
@[simp] theorem wr_outbox (a : Nat) (l : List Byte) : (s.wr a l).outbox = s.outbox := rfl
@[simp] theorem wr_pending (a : Nat) (l : List Byte) : (s.wr a l).pending = s.pending := rfl
@[simp] theorem wr_tile (a : Nat) (l : List Byte) (j : Nat) : (s.wr a l).tile j = s.tile j := rfl
@[simp] theorem wr_ctx (a : Nat) (l : List Byte) (j : Nat) : (s.wr a l).ctx j = s.ctx j := rfl
@[simp] theorem wr_fn (a : Nat) (l : List Byte) (j : Nat) : (s.wr a l).fn j = s.fn j := rfl
@[simp] theorem wr_hport (a : Nat) (l : List Byte) (j : Nat) : (s.wr a l).hport j = s.hport j := rfl
@[simp] theorem wr_unit (a : Nat) (l : List Byte) (j : Nat) : (s.wr a l).unit j = s.unit j := rfl
@[simp] theorem wr_port (a : Nat) (l : List Byte) (j : Nat) : (s.wr a l).port j = s.port j := rfl
@[simp] theorem wr_arb (a : Nat) (l : List Byte) (j : Nat) : (s.wr a l).arb j = s.arb j := rfl
@[simp] theorem wr_pent (a : Nat) (l : List Byte) (j : Nat) : (s.wr a l).pent j = s.pent j := rfl

/-! ### wrClk -/

@[simp] theorem wrClk_variant (a : Nat) (l : List Byte) : (s.wrClk a l).variant = s.variant := rfl
@[simp] theorem wrClk_beat (a : Nat) (l : List Byte) : (s.wrClk a l).beat = s.beat := rfl
@[simp] theorem wrClk_cfg (a : Nat) (l : List Byte) : (s.wrClk a l).cfg = s.cfg := rfl
@[simp] theorem wrClk_rwi (a : Nat) (l : List Byte) : (s.wrClk a l).rwi = s.rwi := rfl
@[simp] theorem wrClk_rwiNew (a : Nat) (l : List Byte) : (s.wrClk a l).rwiNew = s.rwiNew := rfl
@[simp] theorem wrClk_hub (a : Nat) (l : List Byte) : (s.wrClk a l).hub = s.hub := rfl
@[simp] theorem wrClk_arbs (a : Nat) (l : List Byte) : (s.wrClk a l).arbs = s.arbs := rfl
@[simp] theorem wrClk_tiles (a : Nat) (l : List Byte) : (s.wrClk a l).tiles = s.tiles := rfl
@[simp] theorem wrClk_ctxs (a : Nat) (l : List Byte) : (s.wrClk a l).ctxs = s.ctxs := rfl
@[simp] theorem wrClk_fns (a : Nat) (l : List Byte) : (s.wrClk a l).fns = s.fns := rfl
@[simp] theorem wrClk_hports (a : Nat) (l : List Byte) : (s.wrClk a l).hports = s.hports := rfl
@[simp] theorem wrClk_units (a : Nat) (l : List Byte) : (s.wrClk a l).units = s.units := rfl
@[simp] theorem wrClk_hdrs (a : Nat) (l : List Byte) : (s.wrClk a l).hdrs = s.hdrs := rfl
@[simp] theorem wrClk_hdrPoison (a : Nat) (l : List Byte) : (s.wrClk a l).hdrPoison = s.hdrPoison := rfl
@[simp] theorem wrClk_place (a : Nat) (l : List Byte) : (s.wrClk a l).place = s.place := rfl
@[simp] theorem wrClk_mig (a : Nat) (l : List Byte) : (s.wrClk a l).mig = s.mig := rfl
@[simp] theorem wrClk_ras (a : Nat) (l : List Byte) : (s.wrClk a l).ras = s.ras := rfl
@[simp] theorem wrClk_xfers (a : Nat) (l : List Byte) : (s.wrClk a l).xfers = s.xfers := rfl
@[simp] theorem wrClk_upds (a : Nat) (l : List Byte) : (s.wrClk a l).upds = s.upds := rfl
@[simp] theorem wrClk_contribs (a : Nat) (l : List Byte) : (s.wrClk a l).contribs = s.contribs := rfl
@[simp] theorem wrClk_rsigs (a : Nat) (l : List Byte) : (s.wrClk a l).rsigs = s.rsigs := rfl
@[simp] theorem wrClk_heldWrites (a : Nat) (l : List Byte) : (s.wrClk a l).heldWrites = s.heldWrites := rfl
@[simp] theorem wrClk_ports (a : Nat) (l : List Byte) : (s.wrClk a l).ports = s.ports := rfl
@[simp] theorem wrClk_board (a : Nat) (l : List Byte) : (s.wrClk a l).board = s.board := rfl
@[simp] theorem wrClk_cel (a : Nat) (l : List Byte) : (s.wrClk a l).cel = s.cel := rfl
@[simp] theorem wrClk_evt (a : Nat) (l : List Byte) : (s.wrClk a l).evt = s.evt := rfl
@[simp] theorem wrClk_boot (a : Nat) (l : List Byte) : (s.wrClk a l).boot = s.boot := rfl
@[simp] theorem wrClk_pwr (a : Nat) (l : List Byte) : (s.wrClk a l).pwr = s.pwr := rfl
@[simp] theorem wrClk_outbox (a : Nat) (l : List Byte) : (s.wrClk a l).outbox = s.outbox := rfl
@[simp] theorem wrClk_pending (a : Nat) (l : List Byte) : (s.wrClk a l).pending = s.pending := rfl
@[simp] theorem wrClk_tile (a : Nat) (l : List Byte) (j : Nat) : (s.wrClk a l).tile j = s.tile j := rfl
@[simp] theorem wrClk_ctx (a : Nat) (l : List Byte) (j : Nat) : (s.wrClk a l).ctx j = s.ctx j := rfl
@[simp] theorem wrClk_fn (a : Nat) (l : List Byte) (j : Nat) : (s.wrClk a l).fn j = s.fn j := rfl
@[simp] theorem wrClk_hport (a : Nat) (l : List Byte) (j : Nat) : (s.wrClk a l).hport j = s.hport j := rfl
@[simp] theorem wrClk_unit (a : Nat) (l : List Byte) (j : Nat) : (s.wrClk a l).unit j = s.unit j := rfl
@[simp] theorem wrClk_port (a : Nat) (l : List Byte) (j : Nat) : (s.wrClk a l).port j = s.port j := rfl
@[simp] theorem wrClk_arb (a : Nat) (l : List Byte) (j : Nat) : (s.wrClk a l).arb j = s.arb j := rfl
@[simp] theorem wrClk_pent (a : Nat) (l : List Byte) (j : Nat) : (s.wrClk a l).pent j = s.pent j := rfl

/-! ### wrPoison -/

@[simp] theorem wrPoison_variant (a : Nat) (l : List Byte) : (s.wrPoison a l).variant = s.variant := rfl
@[simp] theorem wrPoison_beat (a : Nat) (l : List Byte) : (s.wrPoison a l).beat = s.beat := rfl
@[simp] theorem wrPoison_cfg (a : Nat) (l : List Byte) : (s.wrPoison a l).cfg = s.cfg := rfl
@[simp] theorem wrPoison_rwi (a : Nat) (l : List Byte) : (s.wrPoison a l).rwi = s.rwi := rfl
@[simp] theorem wrPoison_rwiNew (a : Nat) (l : List Byte) : (s.wrPoison a l).rwiNew = s.rwiNew := rfl
@[simp] theorem wrPoison_old (a : Nat) (l : List Byte) : (s.wrPoison a l).old = s.old := rfl
@[simp] theorem wrPoison_hub (a : Nat) (l : List Byte) : (s.wrPoison a l).hub = s.hub := rfl
@[simp] theorem wrPoison_arbs (a : Nat) (l : List Byte) : (s.wrPoison a l).arbs = s.arbs := rfl
@[simp] theorem wrPoison_tiles (a : Nat) (l : List Byte) : (s.wrPoison a l).tiles = s.tiles := rfl
@[simp] theorem wrPoison_ctxs (a : Nat) (l : List Byte) : (s.wrPoison a l).ctxs = s.ctxs := rfl
@[simp] theorem wrPoison_fns (a : Nat) (l : List Byte) : (s.wrPoison a l).fns = s.fns := rfl
@[simp] theorem wrPoison_hports (a : Nat) (l : List Byte) : (s.wrPoison a l).hports = s.hports := rfl
@[simp] theorem wrPoison_units (a : Nat) (l : List Byte) : (s.wrPoison a l).units = s.units := rfl
@[simp] theorem wrPoison_hdrs (a : Nat) (l : List Byte) : (s.wrPoison a l).hdrs = s.hdrs := rfl
@[simp] theorem wrPoison_hdrPoison (a : Nat) (l : List Byte) : (s.wrPoison a l).hdrPoison = s.hdrPoison := rfl
@[simp] theorem wrPoison_place (a : Nat) (l : List Byte) : (s.wrPoison a l).place = s.place := rfl
@[simp] theorem wrPoison_mig (a : Nat) (l : List Byte) : (s.wrPoison a l).mig = s.mig := rfl
@[simp] theorem wrPoison_ras (a : Nat) (l : List Byte) : (s.wrPoison a l).ras = s.ras := rfl
@[simp] theorem wrPoison_xfers (a : Nat) (l : List Byte) : (s.wrPoison a l).xfers = s.xfers := rfl
@[simp] theorem wrPoison_upds (a : Nat) (l : List Byte) : (s.wrPoison a l).upds = s.upds := rfl
@[simp] theorem wrPoison_contribs (a : Nat) (l : List Byte) : (s.wrPoison a l).contribs = s.contribs := rfl
@[simp] theorem wrPoison_rsigs (a : Nat) (l : List Byte) : (s.wrPoison a l).rsigs = s.rsigs := rfl
@[simp] theorem wrPoison_heldWrites (a : Nat) (l : List Byte) : (s.wrPoison a l).heldWrites = s.heldWrites := rfl
@[simp] theorem wrPoison_ports (a : Nat) (l : List Byte) : (s.wrPoison a l).ports = s.ports := rfl
@[simp] theorem wrPoison_board (a : Nat) (l : List Byte) : (s.wrPoison a l).board = s.board := rfl
@[simp] theorem wrPoison_cel (a : Nat) (l : List Byte) : (s.wrPoison a l).cel = s.cel := rfl
@[simp] theorem wrPoison_evt (a : Nat) (l : List Byte) : (s.wrPoison a l).evt = s.evt := rfl
@[simp] theorem wrPoison_boot (a : Nat) (l : List Byte) : (s.wrPoison a l).boot = s.boot := rfl
@[simp] theorem wrPoison_pwr (a : Nat) (l : List Byte) : (s.wrPoison a l).pwr = s.pwr := rfl
@[simp] theorem wrPoison_outbox (a : Nat) (l : List Byte) : (s.wrPoison a l).outbox = s.outbox := rfl
@[simp] theorem wrPoison_pending (a : Nat) (l : List Byte) : (s.wrPoison a l).pending = s.pending := rfl
@[simp] theorem wrPoison_tile (a : Nat) (l : List Byte) (j : Nat) : (s.wrPoison a l).tile j = s.tile j := rfl
@[simp] theorem wrPoison_ctx (a : Nat) (l : List Byte) (j : Nat) : (s.wrPoison a l).ctx j = s.ctx j := rfl
@[simp] theorem wrPoison_fn (a : Nat) (l : List Byte) (j : Nat) : (s.wrPoison a l).fn j = s.fn j := rfl
@[simp] theorem wrPoison_hport (a : Nat) (l : List Byte) (j : Nat) : (s.wrPoison a l).hport j = s.hport j := rfl
@[simp] theorem wrPoison_unit (a : Nat) (l : List Byte) (j : Nat) : (s.wrPoison a l).unit j = s.unit j := rfl
@[simp] theorem wrPoison_port (a : Nat) (l : List Byte) (j : Nat) : (s.wrPoison a l).port j = s.port j := rfl
@[simp] theorem wrPoison_arb (a : Nat) (l : List Byte) (j : Nat) : (s.wrPoison a l).arb j = s.arb j := rfl
@[simp] theorem wrPoison_pent (a : Nat) (l : List Byte) (j : Nat) : (s.wrPoison a l).pent j = s.pent j := rfl

/-! ### zero -/

@[simp] theorem zero_variant (a l : Nat) : (s.zero a l).variant = s.variant := rfl
@[simp] theorem zero_beat (a l : Nat) : (s.zero a l).beat = s.beat := rfl
@[simp] theorem zero_cfg (a l : Nat) : (s.zero a l).cfg = s.cfg := rfl
@[simp] theorem zero_rwi (a l : Nat) : (s.zero a l).rwi = s.rwi := rfl
@[simp] theorem zero_rwiNew (a l : Nat) : (s.zero a l).rwiNew = s.rwiNew := rfl
@[simp] theorem zero_old (a l : Nat) : (s.zero a l).old = s.old := rfl
@[simp] theorem zero_hub (a l : Nat) : (s.zero a l).hub = s.hub := rfl
@[simp] theorem zero_arbs (a l : Nat) : (s.zero a l).arbs = s.arbs := rfl
@[simp] theorem zero_tiles (a l : Nat) : (s.zero a l).tiles = s.tiles := rfl
@[simp] theorem zero_ctxs (a l : Nat) : (s.zero a l).ctxs = s.ctxs := rfl
@[simp] theorem zero_fns (a l : Nat) : (s.zero a l).fns = s.fns := rfl
@[simp] theorem zero_hports (a l : Nat) : (s.zero a l).hports = s.hports := rfl
@[simp] theorem zero_units (a l : Nat) : (s.zero a l).units = s.units := rfl
@[simp] theorem zero_hdrs (a l : Nat) : (s.zero a l).hdrs = s.hdrs := rfl
@[simp] theorem zero_hdrPoison (a l : Nat) : (s.zero a l).hdrPoison = s.hdrPoison := rfl
@[simp] theorem zero_place (a l : Nat) : (s.zero a l).place = s.place := rfl
@[simp] theorem zero_mig (a l : Nat) : (s.zero a l).mig = s.mig := rfl
@[simp] theorem zero_ras (a l : Nat) : (s.zero a l).ras = s.ras := rfl
@[simp] theorem zero_xfers (a l : Nat) : (s.zero a l).xfers = s.xfers := rfl
@[simp] theorem zero_upds (a l : Nat) : (s.zero a l).upds = s.upds := rfl
@[simp] theorem zero_contribs (a l : Nat) : (s.zero a l).contribs = s.contribs := rfl
@[simp] theorem zero_rsigs (a l : Nat) : (s.zero a l).rsigs = s.rsigs := rfl
@[simp] theorem zero_heldWrites (a l : Nat) : (s.zero a l).heldWrites = s.heldWrites := rfl
@[simp] theorem zero_ports (a l : Nat) : (s.zero a l).ports = s.ports := rfl
@[simp] theorem zero_board (a l : Nat) : (s.zero a l).board = s.board := rfl
@[simp] theorem zero_cel (a l : Nat) : (s.zero a l).cel = s.cel := rfl
@[simp] theorem zero_evt (a l : Nat) : (s.zero a l).evt = s.evt := rfl
@[simp] theorem zero_boot (a l : Nat) : (s.zero a l).boot = s.boot := rfl
@[simp] theorem zero_pwr (a l : Nat) : (s.zero a l).pwr = s.pwr := rfl
@[simp] theorem zero_outbox (a l : Nat) : (s.zero a l).outbox = s.outbox := rfl
@[simp] theorem zero_pending (a l : Nat) : (s.zero a l).pending = s.pending := rfl
@[simp] theorem zero_tile (a l : Nat) (j : Nat) : (s.zero a l).tile j = s.tile j := rfl
@[simp] theorem zero_ctx (a l : Nat) (j : Nat) : (s.zero a l).ctx j = s.ctx j := rfl
@[simp] theorem zero_fn (a l : Nat) (j : Nat) : (s.zero a l).fn j = s.fn j := rfl
@[simp] theorem zero_hport (a l : Nat) (j : Nat) : (s.zero a l).hport j = s.hport j := rfl
@[simp] theorem zero_unit (a l : Nat) (j : Nat) : (s.zero a l).unit j = s.unit j := rfl
@[simp] theorem zero_port (a l : Nat) (j : Nat) : (s.zero a l).port j = s.port j := rfl
@[simp] theorem zero_arb (a l : Nat) (j : Nat) : (s.zero a l).arb j = s.arb j := rfl
@[simp] theorem zero_pent (a l : Nat) (j : Nat) : (s.zero a l).pent j = s.pent j := rfl

/-! ### asBefore and afterAll -/

@[simp] theorem asBefore_variant : s.asBefore.variant = s.variant := rfl
@[simp] theorem asBefore_beat : s.asBefore.beat = s.beat := rfl
@[simp] theorem asBefore_cfg : s.asBefore.cfg = s.cfg := rfl
@[simp] theorem asBefore_rwi : s.asBefore.rwi = s.rwi := rfl
@[simp] theorem asBefore_rwiNew : s.asBefore.rwiNew = s.rwiNew := rfl
@[simp] theorem asBefore_hub : s.asBefore.hub = s.hub := rfl
@[simp] theorem asBefore_arbs : s.asBefore.arbs = s.arbs := rfl
@[simp] theorem asBefore_tiles : s.asBefore.tiles = s.tiles := rfl
@[simp] theorem asBefore_ctxs : s.asBefore.ctxs = s.ctxs := rfl
@[simp] theorem asBefore_fns : s.asBefore.fns = s.fns := rfl
@[simp] theorem asBefore_hports : s.asBefore.hports = s.hports := rfl
@[simp] theorem asBefore_units : s.asBefore.units = s.units := rfl
@[simp] theorem asBefore_poison : s.asBefore.poison = s.poison := rfl
@[simp] theorem asBefore_hdrs : s.asBefore.hdrs = s.hdrs := rfl
@[simp] theorem asBefore_hdrPoison : s.asBefore.hdrPoison = s.hdrPoison := rfl
@[simp] theorem asBefore_place : s.asBefore.place = s.place := rfl
@[simp] theorem asBefore_mig : s.asBefore.mig = s.mig := rfl
@[simp] theorem asBefore_ras : s.asBefore.ras = s.ras := rfl
@[simp] theorem asBefore_xfers : s.asBefore.xfers = s.xfers := rfl
@[simp] theorem asBefore_upds : s.asBefore.upds = s.upds := rfl
@[simp] theorem asBefore_contribs : s.asBefore.contribs = s.contribs := rfl
@[simp] theorem asBefore_rsigs : s.asBefore.rsigs = s.rsigs := rfl
@[simp] theorem asBefore_heldWrites : s.asBefore.heldWrites = s.heldWrites := rfl
@[simp] theorem asBefore_ports : s.asBefore.ports = s.ports := rfl
@[simp] theorem asBefore_board : s.asBefore.board = s.board := rfl
@[simp] theorem asBefore_cel : s.asBefore.cel = s.cel := rfl
@[simp] theorem asBefore_evt : s.asBefore.evt = s.evt := rfl
@[simp] theorem asBefore_boot : s.asBefore.boot = s.boot := rfl
@[simp] theorem asBefore_pwr : s.asBefore.pwr = s.pwr := rfl
@[simp] theorem asBefore_outbox : s.asBefore.outbox = s.outbox := rfl
@[simp] theorem asBefore_pending : s.asBefore.pending = s.pending := rfl
@[simp] theorem asBefore_tile (j : Nat) : s.asBefore.tile j = s.tile j := rfl
@[simp] theorem asBefore_ctx (j : Nat) : s.asBefore.ctx j = s.ctx j := rfl
@[simp] theorem asBefore_fn (j : Nat) : s.asBefore.fn j = s.fn j := rfl
@[simp] theorem asBefore_hport (j : Nat) : s.asBefore.hport j = s.hport j := rfl
@[simp] theorem asBefore_unit (j : Nat) : s.asBefore.unit j = s.unit j := rfl
@[simp] theorem asBefore_port (j : Nat) : s.asBefore.port j = s.port j := rfl
@[simp] theorem asBefore_arb (j : Nat) : s.asBefore.arb j = s.arb j := rfl
@[simp] theorem asBefore_pent (j : Nat) : s.asBefore.pent j = s.pent j := rfl
@[simp] theorem asBefore_seq (t : Nat) (st : Stream) : s.asBefore.seq t st = s.seq t st := rfl
@[simp] theorem asBefore_tileCtx (t : Nat) : s.asBefore.tileCtx t = s.tileCtx t := rfl
@[simp] theorem afterAll_variant (r : State) (k : Nat) : (s.afterAll r k).variant = r.variant := rfl
@[simp] theorem afterAll_beat (r : State) (k : Nat) : (s.afterAll r k).beat = r.beat := rfl
@[simp] theorem afterAll_cfg (r : State) (k : Nat) : (s.afterAll r k).cfg = r.cfg := rfl
@[simp] theorem afterAll_rwi (r : State) (k : Nat) : (s.afterAll r k).rwi = r.rwi := rfl
@[simp] theorem afterAll_rwiNew (r : State) (k : Nat) : (s.afterAll r k).rwiNew = r.rwiNew := rfl
@[simp] theorem afterAll_hub (r : State) (k : Nat) : (s.afterAll r k).hub = r.hub := rfl
@[simp] theorem afterAll_arbs (r : State) (k : Nat) : (s.afterAll r k).arbs = r.arbs := rfl
@[simp] theorem afterAll_tiles (r : State) (k : Nat) : (s.afterAll r k).tiles = r.tiles := rfl
@[simp] theorem afterAll_ctxs (r : State) (k : Nat) : (s.afterAll r k).ctxs = r.ctxs := rfl
@[simp] theorem afterAll_fns (r : State) (k : Nat) : (s.afterAll r k).fns = r.fns := rfl
@[simp] theorem afterAll_hports (r : State) (k : Nat) : (s.afterAll r k).hports = r.hports := rfl
@[simp] theorem afterAll_units (r : State) (k : Nat) : (s.afterAll r k).units = r.units := rfl
@[simp] theorem afterAll_poison (r : State) (k : Nat) : (s.afterAll r k).poison = r.poison := rfl
@[simp] theorem afterAll_hdrs (r : State) (k : Nat) : (s.afterAll r k).hdrs = r.hdrs := rfl
@[simp] theorem afterAll_hdrPoison (r : State) (k : Nat) : (s.afterAll r k).hdrPoison = r.hdrPoison := rfl
@[simp] theorem afterAll_place (r : State) (k : Nat) : (s.afterAll r k).place = r.place := rfl
@[simp] theorem afterAll_mig (r : State) (k : Nat) : (s.afterAll r k).mig = r.mig := rfl
@[simp] theorem afterAll_ras (r : State) (k : Nat) : (s.afterAll r k).ras = r.ras := rfl
@[simp] theorem afterAll_xfers (r : State) (k : Nat) : (s.afterAll r k).xfers = r.xfers := rfl
@[simp] theorem afterAll_upds (r : State) (k : Nat) : (s.afterAll r k).upds = r.upds := rfl
@[simp] theorem afterAll_contribs (r : State) (k : Nat) : (s.afterAll r k).contribs = r.contribs := rfl
@[simp] theorem afterAll_rsigs (r : State) (k : Nat) : (s.afterAll r k).rsigs = r.rsigs := rfl
@[simp] theorem afterAll_heldWrites (r : State) (k : Nat) : (s.afterAll r k).heldWrites = r.heldWrites := rfl
@[simp] theorem afterAll_ports (r : State) (k : Nat) : (s.afterAll r k).ports = r.ports := rfl
@[simp] theorem afterAll_board (r : State) (k : Nat) : (s.afterAll r k).board = r.board := rfl
@[simp] theorem afterAll_cel (r : State) (k : Nat) : (s.afterAll r k).cel = r.cel := rfl
@[simp] theorem afterAll_evt (r : State) (k : Nat) : (s.afterAll r k).evt = r.evt := rfl
@[simp] theorem afterAll_boot (r : State) (k : Nat) : (s.afterAll r k).boot = r.boot := rfl
@[simp] theorem afterAll_pwr (r : State) (k : Nat) : (s.afterAll r k).pwr = r.pwr := rfl
@[simp] theorem afterAll_outbox (r : State) (k : Nat) : (s.afterAll r k).outbox = r.outbox := rfl
@[simp] theorem afterAll_pending (r : State) (k : Nat) : (s.afterAll r k).pending = r.pending := rfl
@[simp] theorem afterAll_tile (r : State) (k j : Nat) : (s.afterAll r k).tile j = r.tile j := rfl
@[simp] theorem afterAll_ctx (r : State) (k j : Nat) : (s.afterAll r k).ctx j = r.ctx j := rfl
@[simp] theorem afterAll_fn (r : State) (k j : Nat) : (s.afterAll r k).fn j = r.fn j := rfl
@[simp] theorem afterAll_hport (r : State) (k j : Nat) : (s.afterAll r k).hport j = r.hport j := rfl
@[simp] theorem afterAll_unit (r : State) (k j : Nat) : (s.afterAll r k).unit j = r.unit j := rfl
@[simp] theorem afterAll_port (r : State) (k j : Nat) : (s.afterAll r k).port j = r.port j := rfl
@[simp] theorem afterAll_arb (r : State) (k j : Nat) : (s.afterAll r k).arb j = r.arb j := rfl
@[simp] theorem afterAll_pent (r : State) (k j : Nat) : (s.afterAll r k).pent j = r.pent j := rfl
@[simp] theorem afterAll_seq (r : State) (k t : Nat) (st : Stream) : (s.afterAll r k).seq t st = r.seq t st := rfl
@[simp] theorem afterAll_tileCtx (r : State) (k t : Nat) : (s.afterAll r k).tileCtx t = r.tileCtx t := rfl
@[simp] theorem modTile_tileCtx (t : Nat) (f : Tile → Tile) (j : Nat) : (s.modTile t f).tileCtx j = s.tileCtx j := rfl
@[simp] theorem modSeq_tileCtx (t : Nat) (st : Stream) (f : Seq → Seq) (j : Nat) : (s.modSeq t st f).tileCtx j = s.tileCtx j := rfl

end Sys2Proof.Machine
end

