-- ==== Sys2Proof/Laws/Clk.lean ====
section
/-! SUPPORT. Reads and writes of scratch within one clk (R51): what `State.asBefore` shows and what `State.afterAll` leaves. -/

namespace Sys2Proof.Machine

/-- A byte after a list of keys was written, each with a value that depends on its key alone. -/
theorem memRead_foldl_keys (l : List OldByte) (g : Nat → Byte) (m : List Host.Cell) (a : Nat) :
    memRead (l.foldl (fun m o => memWrite m o.key (g o.key)) m) a = if a ∈ l.map (·.key) then g a else memRead m a := by
  induction l generalizing m with
  | nil => simp
  | cons o r ih =>
    rw [List.foldl_cons, ih]
    simp only [List.map_cons, List.mem_cons]
    by_cases h : a ∈ r.map (·.key)
    · simp [h]
    · by_cases e : a = o.key
      · subst e; simp [h, memRead_memWrite_same]
      · simp [h, e, memRead_memWrite_other _ e]

/-- A byte that no earlier change of the clk touched reads the same before it. -/
theorem memRead_foldl_other (l : List OldByte) (m : List Host.Cell) (a : Nat) (h : a ∉ l.map (·.key)) :
    memRead (l.foldl (fun m o => memWrite m o.key o.byte) m) a = memRead m a := by
  induction l generalizing m with
  | nil => rfl
  | cons o r ih =>
    simp only [List.map_cons, List.mem_cons, not_or] at h
    rw [List.foldl_cons, ih _ h.2, memRead_memWrite_other _ h.1]

/-- A canonical or other memory does not differ from itself. -/
theorem memDiff_self (n : Nat) (m : List Host.Cell) : memDiff n m m = [] := by
  induction n generalizing m with
  | zero => rfl
  | succ n ih =>
    cases m with
    | nil => rfl
    | cons p r => simp [memDiff, ih]

@[simp] theorem changedBytes_self (m : List Host.Cell) : changedBytes m m = [] := by simp [changedBytes, memDiff_self]

/-- In a clk without earlier changes of scratch a read sees memory as it stands. -/
theorem asBefore_of_none {s : State} (h : s.old = []) : s.asBefore = s := by
  obtain ⟨⟩ := s
  subst h
  rfl

/-- In such a clk what was done stands. -/
theorem afterAll_mem_of_none {s r : State} (h : s.old = []) (k : Nat) : (s.afterAll r k).mem = r.mem := by
  unfold State.afterAll
  simp [h]

/-- Work that changes no byte leaves every byte as it stands. -/
theorem afterAll_read_same {s r : State} (h : r.mem = s.memBefore) (k a : Nat) : memRead (s.afterAll r k).mem a = memRead s.mem a := by
  unfold State.afterAll
  simp only [h, changedBytes_self, List.any_nil, Bool.not_false]
  rw [List.filter_eq_self.mpr (fun _ _ => rfl), memRead_foldl_keys s.old (fun k => memRead s.mem k)]
  split
  · rfl
  · exact memRead_foldl_other _ _ _ ‹_›

/-- Such work notes no change. -/
theorem afterAll_old_same {s r : State} (h : r.mem = s.memBefore) (k : Nat) : (s.afterAll r k).old = s.old := by
  unfold State.afterAll
  simp [h]

/-- A byte that the work changed reads as the work left it, and so does every byte that nothing changed earlier in the clk. -/
theorem afterAll_read {s r : State} (k a : Nat)
    (h : a ∉ s.old.map (·.key) ∨ (changedBytes s.memBefore r.mem).any (fun p => p.1 == a) = true) :
    memRead (s.afterAll r k).mem a = memRead r.mem a := by
  unfold State.afterAll
  simp only []
  rw [memRead_foldl_keys (List.filter _ s.old) (fun k => memRead s.mem k), if_neg]
  intro hm
  obtain ⟨o, ho, e⟩ := List.mem_map.mp hm
  obtain ⟨h1, h2⟩ := List.mem_filter.mp ho
  subst e
  rcases h with h | h
  · exact h (List.mem_map.mpr ⟨o, h1, rfl⟩)
  · simp [h] at h2

/-! ### The bytes that changed -/

/-- A canonical memory reads 0 below its first entry. -/
theorem memRead_below {m : List Host.Cell} {a : Nat} (h : ∀ p ∈ m, a < p.1) : memRead m a = 0 := by
  induction m with
  | nil => rfl
  | cons p r ih =>
    unfold memRead smGet
    rw [if_neg (Nat.ne_of_gt (h p (List.mem_cons_self ..)))]
    exact ih (fun q hq => h q (List.mem_cons_of_mem _ hq))

/-- A canonical memory lists a key exactly where it does not read 0. -/
theorem any_key {m : List Host.Cell} (h : Memory.wf m = true) (k : Nat) : m.any (fun p => p.1 == k) = decide (memRead m k ≠ 0) := by
  induction m with
  | nil => rfl
  | cons p r ih =>
    have h := (smWf_iff (d := (0 : Byte)) (p :: r)).mp h
    have o := List.pairwise_cons.mp h.1
    have wr : Memory.wf r = true := (smWf_iff (d := (0 : Byte)) r).mpr ⟨o.2, fun q hq => h.2 q (List.mem_cons_of_mem _ hq)⟩
    have hp := h.2 p (List.mem_cons_self ..)
    have e : memRead (p :: r) k = if p.1 = k then p.2 else memRead r k := rfl
    rw [List.any_cons, ih wr, e]
    by_cases hk : p.1 = k
    · simpa [hk] using hp
    · simp [hk]

/-- The entries of memDiff have the keys of the entries of the two memories. -/
theorem memDiff_keys (n : Nat) (a b : List Host.Cell) (p : Host.Cell) (hp : p ∈ memDiff n a b) :
    p.1 ∈ a.map (·.1) ∨ p.1 ∈ b.map (·.1) := by
  induction n generalizing a b with
  | zero => cases hp
  | succ n ih =>
    cases a with
    | nil =>
      obtain ⟨q, hq, e⟩ := List.mem_map.mp hp
      subst e
      exact .inr (List.mem_map.mpr ⟨q, hq, rfl⟩)
    | cons x r =>
      cases b with
      | nil => exact .inl (List.mem_map.mpr ⟨p, hp, rfl⟩)
      | cons y t =>
        unfold memDiff at hp
        simp only [List.map_cons, List.mem_cons]
        repeat' split at hp
        · rcases List.mem_cons.mp hp with e | e
          · subst e; exact .inl (.inl rfl)
          · rcases ih _ _ e with k | k
            · exact .inl (.inr k)
            · exact .inr (by simpa using k)
        · rcases List.mem_cons.mp hp with e | e
          · subst e; exact .inr (.inl rfl)
          · rcases ih _ _ e with k | k
            · exact .inl (by simpa using k)
            · exact .inr (.inr k)
        · rcases ih _ _ hp with k | k
          · exact .inl (.inr k)
          · exact .inr (.inr k)
        · rcases List.mem_cons.mp hp with e | e
          · subst e; exact .inl (.inl rfl)
          · rcases ih _ _ e with k | k
            · exact .inl (.inr k)
            · exact .inr (.inr k)

/-- memDiff has an entry at a key exactly where the two memories read differently there. -/
theorem memDiff_any (n : Nat) (a b : List Host.Cell) (ha : Memory.wf a = true) (hb : Memory.wf b = true) (hn : a.length + b.length < n)
    (k : Nat) : (memDiff n a b).any (fun p => p.1 == k) = decide (memRead a k ≠ memRead b k) := by
  induction n generalizing a b with
  | zero => omega
  | succ n ih =>
    have wfTail {p : Host.Cell} {r : List Host.Cell} (h : Memory.wf (p :: r) = true) :
        Memory.wf r = true ∧ p.2 ≠ 0 ∧ ∀ q ∈ r, p.1 < q.1 := by
      have h := (smWf_iff (d := (0 : Byte)) (p :: r)).mp h
      have o := List.pairwise_cons.mp h.1
      exact ⟨(smWf_iff (d := (0 : Byte)) r).mpr ⟨o.2, fun q hq => h.2 q (List.mem_cons_of_mem _ hq)⟩, h.2 p (List.mem_cons_self ..), o.1⟩
    have notin {c : Nat} {a b : List Host.Cell} (h1 : ∀ q ∈ a, c < q.1) (h2 : ∀ q ∈ b, c < q.1) :
        (memDiff n a b).any (fun p => p.1 == c) = false := by
      rw [List.any_eq_false]
      intro p hp e
      have e : p.1 = c := by simpa using e
      rcases memDiff_keys _ _ _ _ hp with k | k <;> obtain ⟨q, hq, hk⟩ := List.mem_map.mp k
      · have := h1 q hq; omega
      · have := h2 q hq; omega
    have head (p : Host.Cell) (r : List Host.Cell) : memRead (p :: r) k = if p.1 = k then p.2 else memRead r k := rfl
    cases a with
    | nil =>
      have e : memRead ([] : List Host.Cell) k = 0 := rfl
      have f : (memDiff (n + 1) [] b).any (fun p => p.1 == k) = b.any (fun p => p.1 == k) := by
        unfold memDiff
        rw [List.any_map]
        rfl
      rw [f, any_key hb, e]
      simp [eq_comm]
    | cons x r =>
      obtain ⟨wr, nx, lx⟩ := wfTail ha
      cases b with
      | nil => exact any_key ha k
      | cons y t =>
        obtain ⟨wt, ny, ly⟩ := wfTail hb
        simp only [List.length_cons] at hn
        unfold memDiff
        split
        · rename_i hlt
          rw [List.any_cons, ih _ _ wr hb (by simp only [List.length_cons]; omega), head x]
          by_cases e : x.1 = k
          · subst e
            rw [memRead_below (m := y :: t) (fun q hq => (List.mem_cons.mp hq).elim (fun e => e ▸ hlt) (fun h => Nat.lt_trans hlt (ly q h)))]
            simpa using nx
          · simp [e]
        · split
          · rename_i _ hlt
            rw [List.any_cons, ih _ _ ha wt (by simp only [List.length_cons]; omega), head y]
            by_cases e : y.1 = k
            · subst e
              rw [memRead_below (m := x :: r) (fun q hq => (List.mem_cons.mp hq).elim (fun e => e ▸ hlt) (fun h => Nat.lt_trans hlt (lx q h)))]
              simpa using Ne.symm ny
            · simp [e]
          · have e : x.1 = y.1 := by omega
            rw [head x, head y, ← e]
            split
            · rename_i e2
              rw [ih _ _ wr wt (by omega), e2]
              by_cases hk : x.1 = k
              · subst hk
                rw [memRead_below lx, memRead_below (fun q hq => e ▸ ly q hq)]
                simp
              · simp [hk]
            · rw [List.any_cons, ih _ _ wr wt (by omega)]
              by_cases hk : x.1 = k
              · subst hk; simp [*]
              · simp [hk]

/-- The scratch bytes that changed. -/
theorem changedBytes_any {a b : List Host.Cell} (ha : Memory.wf a = true) (hb : Memory.wf b = true) {k : Nat} (hk : k < 2 ^ 32) :
    (changedBytes a b).any (fun p => p.1 == k) = decide (memRead a k ≠ memRead b k) := by
  rw [← memDiff_any (a.length + b.length + 1) a b ha hb (by omega)]
  unfold changedBytes
  rw [List.any_filter]
  congr 1
  funext p
  by_cases e : p.1 = k
  · simp [e]; omega
  · simp [e]

theorem wf_memBefore {s : State} (h : Memory.wf s.mem = true) : Memory.wf s.memBefore = true := smWf_foldl_smSet _ _ _ h

/-- Memory after work on a sound state is what the work left where it changed it, and else as it stood. -/
theorem landed_afterAll {s r : State} (hs : s.Sound) (hr : Memory.wf r.mem = true) (k : Nat) : Landed s (s.afterAll r k) r.mem := by
  intro a
  have hb := wf_memBefore hs.mem
  unfold State.afterAll
  simp only []
  rw [memRead_foldl_keys (List.filter _ s.old) (fun k => memRead s.mem k)]
  by_cases hm : a ∈ s.old.map (·.key)
  · obtain ⟨o, ho, e⟩ := List.mem_map.mp hm
    have ha : a < 2 ^ 32 := e ▸ hs.old o ho
    have hc := changedBytes_any hb hr ha
    by_cases hd : memRead r.mem a = memRead s.memBefore a
    · rw [if_pos hd, if_pos]
      rw [hd] at hc
      exact List.mem_map.mpr ⟨o, List.mem_filter.mpr ⟨ho, by simpa [e] using hc⟩, e⟩
    · rw [if_neg hd, if_neg]
      intro h
      obtain ⟨p, hp, ep⟩ := List.mem_map.mp h
      have := (List.mem_filter.mp hp).2
      rw [ep, hc] at this
      simp [Ne.symm hd] at this
  · rw [if_neg (fun h => hm (by
      obtain ⟨p, hp, ep⟩ := List.mem_map.mp h
      exact List.mem_map.mpr ⟨p, (List.mem_filter.mp hp).1, ep⟩))]
    split
    · rename_i hd
      rw [hd]
      exact memRead_foldl_other _ _ _ hm
    · rfl

end Sys2Proof.Machine
end

