-- ==== Sys2Proof/Laws/Issue.lean ====
section
/-! SUPPORT. What issuing an instruction comes to where it is admitted. -/

namespace Sys2Proof.Machine

variable {s : State} {t : Nat} {st : Stream} {k : OpInfo} {w : Insn} {pre : Seq → Option Nat} {c : Nat}

/-- A reachable instruction is ready. -/
theorem reach_ready (h : CanReach s t st k w pre c) : s.reach t st k w pre = .ready := by
  unfold State.reach
  have h1 : ¬ (s.seq t st).plen ≤ (s.seq t st).pc := Nat.not_le.mpr h.inside
  have h2 : (k.desc && decide ((s.seq t st).loops.length < lsel w)) = false := by
    cases hd : k.desc
    · rfl
    · have := h.loops hd
      simp; omega
  have h3 : (w.last && (!(s.seq t st).loops.isEmpty || !(s.seq t st).calls.isEmpty)) = false := by
    cases hl : w.last
    · rfl
    · have := h.last hl
      simp [this.1, this.2]
  simp only [h.free, h.quar, Bool.or_false, h1, h.line, h.clean, h.listed, h.named, h.legal, h2, h3, h.own, Bool.not_true,
    Bool.false_eq_true, if_false]

/-- The state in which an instruction is admitted: its sequence number is taken and the clk is used. -/
def State.letIn (s : State) (t : Nat) (st : Stream) : State := s.modSeq t st (·.admitted s.beat.now)

/-- An admitted instruction: its work is done on the state in which it is admitted, with scratch as it stood before what others changed in
the clk (R51), then the stream goes on; an instruction that comes too late in its clk is not reached in it. -/
theorem issue_admitted (h : CanIssue s t st k w pre c) (flow : Seq → Seq) (body : Nat → InFlight → State → Ran) :
    s.issue t st k w pre flow body =
      (let r := body c (s.newEntry t st w) (s.letIn t st).asBefore
       if r.skip then s else
       let a := (s.letIn t st).afterAll r.st 0
       match r.fault with
       | some f => a.progFault t st r.fl f.code f.xinfo 0
       | none =>
         let b := a.modSeq t st (fun q => { q.goOn flow r.jump with lastSeen := w.last, inflight := q.inflight ++ [r.fl] })
         if k.cls = 0 then b.retire t st r.fl else b) := by
  unfold State.issue
  have h1 : (w.ord && !(s.seq t st).inflight.isEmpty) = false := by
    cases ho : w.ord
    · rfl
    · simp [h.ord ho]
  have h2 : ¬ 16 ≤ (s.seq t st).inflight.length := Nat.not_le.mpr h.room
  simp only [h.ctx, reach_ready h.toCanReach, h1, h2, h.admitted, h.budget, Bool.false_eq_true, if_false]
  rfl

/-- The descriptor that an instruction reads does not depend on the sequencers. -/
theorem readDesc_modSeq (f : Seq → Seq) (l : List LoopLevel) (cls : Nat) (ops : List Nat) :
    (s.modSeq t st f).readDesc t w l cls ops = s.readDesc t w l cls ops := rfl

theorem asBefore_modSeq (f : Seq → Seq) : (s.modSeq t st f).asBefore = s.asBefore.modSeq t st f := rfl

/-- An admitted descriptor instruction is an admitted instruction whose work gets the descriptor's offset and bits. -/
theorem issueDesc_admitted {ops : List Nat} {o d : Nat} (h : CanIssueDesc s t st k w noPre ops c o d)
    (body : Nat → Nat → Nat → InFlight → State → Ran) :
    s.issueDesc t st k w ops body =
      (let r := body c o d (s.descEntry t st w o d) (s.letIn t st).asBefore
       if r.skip then s else
       let a := (s.letIn t st).afterAll r.st 0
       match r.fault with
       | some f => a.progFault t st r.fl f.code f.xinfo 0
       | none =>
         let b := a.modSeq t st (fun q => { q.goOn Seq.next r.jump with lastSeen := w.last, inflight := q.inflight ++ [r.fl] })
         if k.cls = 0 then b.retire t st r.fl else b) := by
  unfold State.issueDesc
  rw [issue_admitted h.toCanIssue]
  have hl : ((s.letIn t st).asBefore.seq t st).loops = (s.seq t st).loops := by simp [State.letIn, Seq.admitted]
  have hd : (s.letIn t st).asBefore.readDesc t w (s.seq t st).loops k.cls ops = .ok (o, d) := h.desc
  simp only [hl, hd]
  rfl

/-- Two sequencers with the same program counter, stacks, sequence number, prefetches and fault. -/
structure SameFlow (q q' : Seq) : Prop where
  pc : q'.pc = q.pc
  loops : q'.loops = q.loops
  calls : q'.calls = q.calls
  seqNo : q'.seqNo = q.seqNo
  prefetching : q'.prefetching = q.prefetching
  run : q'.run = q.run

theorem SameFlow.refl (q : Seq) : SameFlow q q := ⟨rfl, rfl, rfl, rfl, rfl, rfl⟩

theorem SameFlow.trans {p q r : Seq} (h : SameFlow p q) (k : SameFlow q r) : SameFlow p r :=
  ⟨k.1.trans h.1, k.2.trans h.2, k.3.trans h.3, k.4.trans h.4, k.5.trans h.5, k.6.trans h.6⟩

/-- The state after the work of an admitted instruction that is no CTRL instruction and did not fault. -/
def State.afterIssue (s : State) (r : Ran) (t : Nat) (st : Stream) (w : Insn) (flow : Seq → Seq) : State :=
  ((s.letIn t st).afterAll r.st 0).modSeq t st (fun q => { q.goOn flow r.jump with lastSeen := w.last, inflight := q.inflight ++ [r.fl] })

/-- An admitted instruction that is no CTRL instruction, in time in its clk, and whose work does not fault. -/
theorem issue_work (h : CanIssue s t st k w pre c) (hk : k.cls ≠ 0) (flow : Seq → Seq) (body : Nat → InFlight → State → Ran) {r : Ran}
    (hr : body c (s.newEntry t st w) (s.letIn t st).asBefore = r) (hs : r.skip = false) (hf : r.fault = none) :
    s.issue t st k w pre flow body = s.afterIssue r t st w flow := by
  rw [issue_admitted h]
  subst hr
  simp only [hf, hs, hk, if_false, State.afterIssue, Bool.false_eq_true]

/-- An admitted descriptor instruction that is no CTRL instruction, in time in its clk, and whose work does not fault. -/
theorem issueDesc_work {ops : List Nat} {o d : Nat} (h : CanIssueDesc s t st k w noPre ops c o d) (hk : k.cls ≠ 0)
    (body : Nat → Nat → Nat → InFlight → State → Ran) {r : Ran}
    (hr : body c o d (s.descEntry t st w o d) (s.letIn t st).asBefore = r) (hs : r.skip = false) (hf : r.fault = none) :
    s.issueDesc t st k w ops body = s.afterIssue r t st w Seq.next := by
  rw [issueDesc_admitted h]
  subst hr
  simp only [hf, hs, hk, if_false, State.afterIssue, Bool.false_eq_true]

section
variable {r : Ran} {flow : Seq → Seq}

/-- The stream after such an instruction. -/
theorem afterIssue_seq : SameFlow ((r.st.seq t st).goOn flow r.jump) ((s.afterIssue r t st w flow).seq t st) := by
  unfold State.afterIssue
  simp only [modSeq_same, afterAll_seq]
  exact ⟨rfl, rfl, rfl, rfl, rfl, rfl⟩

/-- The instruction is outstanding after those before it. -/
theorem afterIssue_inflight : ((s.afterIssue r t st w flow).seq t st).inflight = (r.st.seq t st).inflight ++ [r.fl] := by
  unfold State.afterIssue
  simp only [modSeq_same, afterAll_seq]

/-- The stream goes on to the next instruction where the work leaves its flow alone and does not branch. -/
theorem afterIssue_next (hs : SameFlow ((s.seq t st).admitted s.beat.now) (r.st.seq t st)) (hj : r.jump = none) :
    WentNext s (s.afterIssue r t st w Seq.next) t st := by
  have h := afterIssue_seq (s := s) (r := r) (t := t) (st := st) (w := w) (flow := Seq.next)
  rw [hj] at h
  refine ⟨?_, ?_, ?_, ?_⟩
  · rw [h.seqNo]; exact hs.seqNo
  · rw [h.pc]; unfold Seq.goOn Seq.next; simp only []; rw [hs.pc, hs.loops]; rfl
  · rw [h.loops]; unfold Seq.goOn Seq.next; simp only []; rw [hs.pc, hs.loops]; rfl
  · rw [h.calls]; exact hs.calls

/-- Every other tile is as the work left it. -/
theorem afterIssue_tile {t' : Nat} (h : t' ≠ t) : (s.afterIssue r t st w flow).tile t' = r.st.tile t' := by
  unfold State.afterIssue State.modSeq
  rw [modTile_other _ _ h, afterAll_tile]

/-- Issuing itself changes the tiles, memory and what is noted of this clk's changes alone. -/
theorem afterIssue_other : Chg [.tiles, .mem, .old] r.st (s.afterIssue r t st w flow) :=
  chg_modSeq (chg_afterAll _ (Chg.refl _) (fun _ h => by revert h; decide +revert) _) (fun _ h => by revert h; decide +revert) _ _ _

/-- Work that changes no byte leaves memory as it stands. -/
theorem afterIssue_mem (h : r.st.mem = s.memBefore) : SameMem s (s.afterIssue r t st w flow) := fun a => by
  unfold State.afterIssue
  rw [modSeq_mem]
  exact afterAll_read_same (s := s.letIn t st) h 0 a

end

/-! ### Completion of CTRL instructions -/

/-- A stream that has not admitted LAST is not finished. -/
theorem finishStream_running (h : (s.seq t st).lastSeen = false) : s.finishStream t st = s := by
  unfold State.finishStream
  simp [h]

theorem tile_congr {u : State} (h : u.tiles = s.tiles) (i : Nat) : u.tile i = s.tile i := by unfold State.tile; rw [h]

theorem seq_congr {u : State} (h : u.tiles = s.tiles) (i : Nat) (b : Stream) : u.seq i b = s.seq i b := by
  unfold State.seq; rw [tile_congr h]

/-- A completion record changes no tile. -/
@[simp] theorem writeRecord_tiles {x : InFlight} {used : Nat} : (s.writeRecord t st x used).tiles = s.tiles := by
  unfold State.writeRecord
  simp only []
  split
  · exact wrClk_tiles ..
  · rfl

@[simp] theorem writeRecord_seq {x : InFlight} {used : Nat} (i : Nat) (b : Stream) : (s.writeRecord t st x used).seq i b = s.seq i b :=
  seq_congr writeRecord_tiles _ _

/-- Completion of an instruction without LAST leaves the stream's flow alone. -/
theorem retire_flow {x : InFlight} (h : (s.seq t st).lastSeen = false) : SameFlow (s.seq t st) ((s.retire t st x).seq t st) := by
  have e : SameFlow (s.seq t st) (((s.modSeq t st (fun q => { q with inflight := q.inflight.filter (fun y => y.seq != x.seq || y.step != x.step) })).modTile t
      (·.addCounts x.counts)).seq t st) ∧ (((s.modSeq t st (fun q => { q with inflight := q.inflight.filter (fun y => y.seq != x.seq || y.step != x.step) })).modTile t
      (·.addCounts x.counts)).seq t st).lastSeen = (s.seq t st).lastSeen := by
    unfold State.modSeq State.seq
    simp only [modTile_same, Tile.addCounts]
    cases st <;> exact ⟨⟨rfl, rfl, rfl, rfl, rfl, rfl⟩, rfl⟩
  unfold State.retire
  simp only []
  rw [finishStream_running]
  · rw [writeRecord_seq]; exact e.1
  · rw [writeRecord_seq]; exact e.2.trans h

/-- The flow of an admitted CTRL instruction without LAST. -/
theorem issue_ctrl (h : CanIssue s t st k w pre c) (hk : k.cls = 0) (hl : w.last = false) (flow : Seq → Seq) :
    SameFlow (((s.seq t st).admitted s.beat.now).goOn flow none) ((s.issue t st k w pre flow noWork).seq t st) := by
  rw [issue_admitted h]
  simp only [noWork, hk, if_true, Bool.false_eq_true, if_false]
  refine SameFlow.trans ?_ (retire_flow ?_)
  · simp only [modSeq_same, afterAll_seq, asBefore_seq, State.letIn]; exact ⟨rfl, rfl, rfl, rfl, rfl, rfl⟩
  · simp only [modSeq_same]; exact hl

/-- A program fault changes the tiles only in the stream that faults. -/
theorem progFault_tiles {x : InFlight} {code xi u : Nat} : (s.progFault t st x code xi u).tiles =
    (s.modSeq t st (fun q => { q with faulted := true, faultCode := BitVec.ofNat 16 code, held := false, waiting := false })).tiles := by
  unfold State.progFault
  have e : ∀ y : State, Chg [.fns, .old, .mem, .poison, .evt, .outbox, .ctxs] y ((y.logTile code (s.tileCtx t) t st x.pc x.seq 0).writeRecord t st
      { x with status := BitVec.ofNat 16 code, xinfo := xi } u) := fun y =>
    chg_writeRecord (chg_logTile (Chg.refl _) (fun _ h => by revert h; decide +revert) _ _ _ _ _ _ _) (fun _ h => by revert h; decide +revert) _ _ _ _
  simp only []
  split
  · exact ((chg_requestAbort (F := [.ctxs]) (Chg.refl _) (fun _ h => by revert h; decide +revert) _ _ _ _ _).tiles (by decide)).trans
      ((e _).tiles (by decide))
  · exact (e _).tiles (by decide)

theorem whenLive_live (h : s.live = true) (f : State → State) : whenLive s f = f s := by simp [whenLive, h]

end Sys2Proof.Machine
end

