-- ==== Sys2Proof/Laws/Keeps.lean ====
section
/-! SUPPORT. Every operation of the machine keeps the variant, the queue, the canonical memory and a hub epoch that is not 0, and
notes changes of scratch bytes alone: one lemma for each operation, in the order of the files. -/


namespace Sys2Proof.Machine

set_option linter.all false

/-- The state s has variant v and queue q, its memory is canonical, its hub epoch is not 0, and the bytes noted as
changed in this clk lie in scratch. -/
structure Keeps (v : Variant) (q : List Instr) (s : State) : Prop where
  variant : s.variant = v
  pending : s.pending = q
  mem : Memory.wf s.mem = true
  epoch : s.evt.hubEpoch ≠ 0
  old : ∀ o ∈ s.old, o.key < 2 ^ 32

variable {v : Variant} {q : List Instr}

theorem keeps_upd {s : State} {a_beat a_cfg a_rwi a_rwiNew a_hub a_arbs a_tiles a_ctxs a_fns a_hports a_units a_poison a_hdrs a_hdrPoison a_place a_mig a_ras a_xfers a_upds a_contribs a_rsigs a_heldWrites a_ports a_board a_cel a_boot a_pwr a_outbox} : Keeps v q (State.mk s.variant a_beat a_cfg a_rwi a_rwiNew s.old a_hub a_arbs a_tiles a_ctxs a_fns a_hports a_units s.mem a_poison a_hdrs a_hdrPoison a_place a_mig a_ras a_xfers a_upds a_contribs a_rsigs a_heldWrites a_ports a_board a_cel s.evt a_boot a_pwr a_outbox s.pending) ↔ Keeps v q s :=
  ⟨fun h => ⟨h.1, h.2, h.3, h.4, h.5⟩, fun h => ⟨h.1, h.2, h.3, h.4, h.5⟩⟩

theorem keeps_upd_evt {s : State} {a_beat a_cfg a_rwi a_rwiNew a_hub a_arbs a_tiles a_ctxs a_fns a_hports a_units a_poison a_hdrs a_hdrPoison a_place a_mig a_ras a_xfers a_upds a_contribs a_rsigs a_heldWrites a_ports a_board a_cel a_boot a_pwr a_outbox e_next e_log e_nor e_cls e_rstLevel e_rstCode e_l3Cnt e_l4Cnt e_reqL4 e_l4Code e_l3Times e_wdog e_wdogTicks e_since e_norRecord e_fromNor} : Keeps v q (State.mk s.variant a_beat a_cfg a_rwi a_rwiNew s.old a_hub a_arbs a_tiles a_ctxs a_fns a_hports a_units s.mem a_poison a_hdrs a_hdrPoison a_place a_mig a_ras a_xfers a_upds a_contribs a_rsigs a_heldWrites a_ports a_board a_cel (Evt.mk e_next e_log e_nor e_cls s.evt.hubEpoch e_rstLevel e_rstCode e_l3Cnt e_l4Cnt e_reqL4 e_l4Code e_l3Times e_wdog e_wdogTicks e_since e_norRecord e_fromNor) a_boot a_pwr a_outbox s.pending) ↔ Keeps v q s :=
  ⟨fun h => ⟨h.1, h.2, h.3, h.4, h.5⟩, fun h => ⟨h.1, h.2, h.3, h.4, h.5⟩⟩

theorem keeps_foldl {α : Type} {s : State} {f : State → α → State} {l : List α} (h : Keeps v q s)
    (hf : ∀ b a, Keeps v q b → Keeps v q (f b a)) : Keeps v q (l.foldl f s) := by
  induction l generalizing s with
  | nil => exact h
  | cons x l ih => exact ih (hf _ _ h)

theorem keeps_foldl_fst {α β : Type} {p : State × β} {f : State × β → α → State × β} {l : List α}
    (h : Keeps v q p.1) (hf : ∀ b a, Keeps v q b.1 → Keeps v q (f b a).1) : Keeps v q (l.foldl f p).1 := by
  induction l generalizing p with
  | nil => exact h
  | cons x l ih => exact ih (hf _ _ h)

theorem keeps_ite {c : Prop} [Decidable c] {a b : State} (ha : Keeps v q a) (hb : Keeps v q b) :
    Keeps v q (if c then a else b) := by
  split <;> assumption

theorem keeps_of_fst {β : Type} {p : State × β} {s : State} {x : β} (e : p = (s, x)) (h : Keeps v q p.1) : Keeps v q s := by
  subst e; exact h

theorem keeps_rwiSet {s : State} (h : Keeps v q s) (x1 : _) (x2 : _) : Keeps v q (State.rwiSet s x1 x2) := by
  unfold State.rwiSet
  repeat' first | intro _ | with_reducible assumption | with_reducible exact keeps_of_fst (by assumption) (by assumption) | with_reducible apply keeps_ite | simp only [keeps_upd, keeps_upd_evt, id_eq] | split

theorem keeps_rwiTake {s : State} (h : Keeps v q s) : Keeps v q (State.rwiTake s) := by
  unfold State.rwiTake
  repeat' first | intro _ | with_reducible assumption | with_reducible apply keeps_foldl | with_reducible apply keeps_foldl_fst | with_reducible exact keeps_of_fst (by assumption) (by assumption) | with_reducible apply keeps_ite | simp only [keeps_upd, keeps_upd_evt, id_eq] | split

theorem keeps_modTile {s : State} (h : Keeps v q s) (x1 : _) (x2 : _) : Keeps v q (State.modTile s x1 x2) := by
  unfold State.modTile
  repeat' first | intro _ | with_reducible assumption | with_reducible exact keeps_of_fst (by assumption) (by assumption) | with_reducible apply keeps_ite | simp only [keeps_upd, keeps_upd_evt, id_eq] | split

theorem keeps_modCtx {s : State} (h : Keeps v q s) (x1 : _) (x2 : _) : Keeps v q (State.modCtx s x1 x2) := by
  unfold State.modCtx
  repeat' first | intro _ | with_reducible assumption | with_reducible exact keeps_of_fst (by assumption) (by assumption) | with_reducible apply keeps_ite | simp only [keeps_upd, keeps_upd_evt, id_eq] | split

theorem keeps_modStep {s : State} (h : Keeps v q s) (x1 : _) (x2 : _) : Keeps v q (State.modStep s x1 x2) := by
  unfold State.modStep
  repeat' first | intro _ | with_reducible assumption | with_reducible apply keeps_modCtx | with_reducible exact keeps_of_fst (by assumption) (by assumption) | with_reducible apply keeps_ite | simp only [keeps_upd, keeps_upd_evt, id_eq] | split

theorem keeps_modFn {s : State} (h : Keeps v q s) (x1 : _) (x2 : _) : Keeps v q (State.modFn s x1 x2) := by
  unfold State.modFn
  repeat' first | intro _ | with_reducible assumption | with_reducible exact keeps_of_fst (by assumption) (by assumption) | with_reducible apply keeps_ite | simp only [keeps_upd, keeps_upd_evt, id_eq] | split

theorem keeps_modHport {s : State} (h : Keeps v q s) (x1 : _) (x2 : _) : Keeps v q (State.modHport s x1 x2) := by
  unfold State.modHport
  repeat' first | intro _ | with_reducible assumption | with_reducible exact keeps_of_fst (by assumption) (by assumption) | with_reducible apply keeps_ite | simp only [keeps_upd, keeps_upd_evt, id_eq] | split

theorem keeps_modUnit {s : State} (h : Keeps v q s) (x1 : _) (x2 : _) : Keeps v q (State.modUnit s x1 x2) := by
  unfold State.modUnit
  repeat' first | intro _ | with_reducible assumption | with_reducible exact keeps_of_fst (by assumption) (by assumption) | with_reducible apply keeps_ite | simp only [keeps_upd, keeps_upd_evt, id_eq] | split

theorem keeps_modPort {s : State} (h : Keeps v q s) (x1 : _) (x2 : _) : Keeps v q (State.modPort s x1 x2) := by
  unfold State.modPort
  repeat' first | intro _ | with_reducible assumption | with_reducible exact keeps_of_fst (by assumption) (by assumption) | with_reducible apply keeps_ite | simp only [keeps_upd, keeps_upd_evt, id_eq] | split

theorem keeps_modArb {s : State} (h : Keeps v q s) (x1 : _) (x2 : _) : Keeps v q (State.modArb s x1 x2) := by
  unfold State.modArb
  repeat' first | intro _ | with_reducible assumption | with_reducible exact keeps_of_fst (by assumption) (by assumption) | with_reducible apply keeps_ite | simp only [keeps_upd, keeps_upd_evt, id_eq] | split

theorem keeps_freeUnits {s : State} (h : Keeps v q s) (x1 : _) : Keeps v q (State.freeUnits s x1) := by
  unfold State.freeUnits
  repeat' first | intro _ | with_reducible assumption | with_reducible exact keeps_of_fst (by assumption) (by assumption) | with_reducible apply keeps_ite | simp only [keeps_upd, keeps_upd_evt, id_eq] | split

theorem keeps_modSeq {s : State} (h : Keeps v q s) (x1 : _) (x2 : _) (x3 : _) : Keeps v q (State.modSeq s x1 x2 x3) := by
  unfold State.modSeq
  repeat' first | intro _ | with_reducible assumption | with_reducible apply keeps_modTile | with_reducible exact keeps_of_fst (by assumption) (by assumption) | with_reducible apply keeps_ite | simp only [keeps_upd, keeps_upd_evt, id_eq] | split

theorem keeps_send {s : State} (h : Keeps v q s) (x1 : _) : Keeps v q (State.send s x1) := by
  unfold State.send
  repeat' first | intro _ | with_reducible assumption | with_reducible exact keeps_of_fst (by assumption) (by assumption) | with_reducible apply keeps_ite | simp only [keeps_upd, keeps_upd_evt, id_eq] | split

theorem keeps_whenLive {s : State} (h : Keeps v q s) (f : State → State) (hf : ∀ s, Keeps v q s → Keeps v q (f s)) :
    Keeps v q (whenLive s f) := by
  unfold whenLive
  split
  · exact hf _ h
  · exact h

theorem keeps_msix {s : State} (h : Keeps v q s) (x1 : _) (x2 : _) : Keeps v q (State.msix s x1 x2) := by
  unfold State.msix
  repeat' first | intro _ | with_reducible assumption | with_reducible apply keeps_modFn | with_reducible apply keeps_send | with_reducible exact keeps_of_fst (by assumption) (by assumption) | with_reducible apply keeps_ite | simp only [keeps_upd, keeps_upd_evt, id_eq] | split

theorem keeps_flushPba {s : State} (h : Keeps v q s) (x1 : _) : Keeps v q (State.flushPba s x1) := by
  unfold State.flushPba
  repeat' first | intro _ | with_reducible assumption | with_reducible apply keeps_foldl | with_reducible apply keeps_foldl_fst | with_reducible apply keeps_msix | with_reducible apply keeps_modFn | with_reducible exact keeps_of_fst (by assumption) (by assumption) | with_reducible apply keeps_ite | simp only [keeps_upd, keeps_upd_evt, id_eq] | split

theorem keeps_logEvent {s : State} (h : Keeps v q s) (x1 : _) (x2 : _) (x3 : _) (x4 : _) (x5 : _) (x6 : _) (x7 : _) : Keeps v q (State.logEvent s x1 x2 x3 x4 x5 x6 x7) := by
  unfold State.logEvent
  repeat' first | intro _ | with_reducible assumption | with_reducible apply keeps_foldl | with_reducible apply keeps_foldl_fst | with_reducible apply keeps_msix | with_reducible exact keeps_of_fst (by assumption) (by assumption) | with_reducible apply keeps_ite | simp only [keeps_upd, keeps_upd_evt, id_eq] | split

theorem keeps_logDev {s : State} (h : Keeps v q s) (x1 : _) (x2 : _) (x3 : _) : Keeps v q (State.logDev s x1 x2 x3) := by
  unfold State.logDev
  repeat' first | intro _ | with_reducible assumption | with_reducible apply keeps_logEvent | with_reducible exact keeps_of_fst (by assumption) (by assumption) | with_reducible apply keeps_ite | simp only [keeps_upd, keeps_upd_evt, id_eq] | split

theorem keeps_logTile {s : State} (h : Keeps v q s) (x1 : _) (x2 : _) (x3 : _) (x4 : _) (x5 : _) (x6 : _) (x7 : _) : Keeps v q (State.logTile s x1 x2 x3 x4 x5 x6 x7) := by
  unfold State.logTile
  repeat' first | intro _ | with_reducible assumption | with_reducible apply keeps_logEvent | with_reducible exact keeps_of_fst (by assumption) (by assumption) | with_reducible apply keeps_ite | simp only [keeps_upd, keeps_upd_evt, id_eq] | split

theorem keeps_logLevel {s : State} (h : Keeps v q s) (x1 : _) (x2 : _) (x3 : _) (x4 : _) : Keeps v q (State.logLevel s x1 x2 x3 x4) := by
  unfold State.logLevel
  repeat' first | intro _ | with_reducible assumption | with_reducible apply keeps_logEvent | with_reducible exact keeps_of_fst (by assumption) (by assumption) | with_reducible apply keeps_ite | simp only [keeps_upd, keeps_upd_evt, id_eq] | split

theorem keeps_requestAbort {s : State} (h : Keeps v q s) (x1 : _) (x2 : _) (x3 : _) (x4 : _) (x5 : _) : Keeps v q (State.requestAbort s x1 x2 x3 x4 x5) := by
  unfold State.requestAbort
  repeat' first | intro _ | with_reducible assumption | with_reducible apply keeps_modStep | with_reducible exact keeps_of_fst (by assumption) (by assumption) | with_reducible apply keeps_ite | simp only [keeps_upd, keeps_upd_evt, id_eq] | split

theorem keeps_abortAll {s : State} (h : Keeps v q s) (x1 : _) (x2 : _) : Keeps v q (State.abortAll s x1 x2) := by
  unfold State.abortAll
  repeat' first | intro _ | with_reducible assumption | with_reducible apply keeps_foldl | with_reducible apply keeps_foldl_fst | with_reducible apply keeps_requestAbort | with_reducible exact keeps_of_fst (by assumption) (by assumption) | with_reducible apply keeps_ite | simp only [keeps_upd, keeps_upd_evt, id_eq] | split

theorem keeps_advanceEpoch {s : State} (h : Keeps v q s) : Keeps v q s.advanceEpoch := by
  unfold State.advanceEpoch
  split
  · exact ⟨h.1, h.2, h.3, by simp, h.5⟩
  · rename_i hn
    refine ⟨h.1, h.2, h.3, fun e => hn ?_, h.5⟩
    have e1 : s.evt.hubEpoch + 1 = 0 := e
    have e2 := congrArg BitVec.toNat e1
    rw [BitVec.toNat_add] at e2
    have := s.evt.hubEpoch.isLt
    simp at e2
    omega

theorem keeps_wr {s : State} (h : Keeps v q s) (a : Nat) (l : List Byte) : Keeps v q (s.wr a l) :=
  ⟨h.1, h.2, wf_memWriteList _ _ h.3, h.4, h.5⟩

theorem keeps_wrPoison {s : State} (h : Keeps v q s) (a : Nat) (l : List Byte) : Keeps v q (s.wrPoison a l) :=
  ⟨h.1, h.2, wf_memWriteList _ _ h.3, h.4, h.5⟩

theorem keeps_zero {s : State} (h : Keeps v q s) (lo hi : Nat) : Keeps v q (s.zero lo hi) :=
  ⟨h.1, h.2, wf_memZero _ _ h.3, h.4, h.5⟩

theorem keeps_asBefore {s : State} (h : Keeps v q s) : Keeps v q s.asBefore :=
  ⟨h.1, h.2, smWf_foldl_smSet _ _ _ h.3, h.4, fun _ ho => by cases ho⟩

theorem keeps_afterAll {s r : State} (h0 : Keeps v q s) (h : Keeps v q r) (k : Nat) : Keeps v q (s.afterAll r k) := by
  refine ⟨h.1, h.2, smWf_foldl_smSet _ _ _ h.3, h.4, fun o ho => ?_⟩
  unfold State.afterAll at ho
  simp only [] at ho
  rcases List.mem_append.mp ho with ho | ho
  · exact h0.5 o ho
  · obtain ⟨p, hp, e⟩ := List.mem_map.mp ho
    subst e
    have := (List.mem_filter.mp (List.mem_filter.mp hp).1).2
    simpa using this

theorem keeps_wrClk {s : State} (h : Keeps v q s) (a : Nat) (l : List Byte) : Keeps v q (s.wrClk a l) := by
  refine ⟨h.1, h.2, wf_memWriteList _ _ h.3, h.4, fun o ho => ?_⟩
  unfold State.wrClk at ho
  rcases List.mem_append.mp ho with ho | ho
  · exact h.5 o ho
  · obtain ⟨i, hi, e⟩ := List.mem_map.mp ho
    subst e
    have := (List.mem_filter.mp hi).2
    simp only [Bool.and_eq_true, decide_eq_true_eq] at this
    exact this.1.1

theorem keeps_visible {s : State} (h : Keeps v q s) (x1 : _) : Keeps v q (State.visible s x1) :=
  ⟨h.1, h.2, h.3, h.4, fun o ho => h.5 o (List.mem_filter.mp ho).1⟩

theorem keeps_modPent {s : State} (h : Keeps v q s) (x1 : _) (x2 : _) : Keeps v q (State.modPent s x1 x2) := by
  unfold State.modPent
  repeat' first | intro _ | with_reducible assumption | with_reducible exact keeps_of_fst (by assumption) (by assumption) | with_reducible apply keeps_ite | simp only [keeps_upd, keeps_upd_evt, id_eq] | split

theorem keeps_markPoison {s : State} (h : Keeps v q s) (x1 : _) : Keeps v q (State.markPoison s x1) := by
  unfold State.markPoison
  repeat' first | intro _ | with_reducible assumption | with_reducible apply keeps_modPent | with_reducible exact keeps_of_fst (by assumption) (by assumption) | with_reducible apply keeps_ite | simp only [keeps_upd, keeps_upd_evt, id_eq] | split

theorem keeps_zeroFill {s : State} (h : Keeps v q s) (x1 : _) : Keeps v q (State.zeroFill s x1) := by
  unfold State.zeroFill
  repeat' first | intro _ | with_reducible assumption | with_reducible apply keeps_modPent | with_reducible apply keeps_zero | with_reducible exact keeps_of_fst (by assumption) (by assumption) | with_reducible apply keeps_ite | simp only [keeps_upd, keeps_upd_evt, id_eq] | split

theorem keeps_wrCaPiece {s : State} (h : Keeps v q s) (x1 : _) (x2 : _) (x3 : _) (x4 : _) : Keeps v q (State.wrCaPiece s x1 x2 x3 x4) := by
  unfold State.wrCaPiece
  repeat' first | intro _ | with_reducible assumption | with_reducible apply keeps_wrPoison | with_reducible apply keeps_wr | with_reducible apply keeps_zeroFill | with_reducible apply keeps_markPoison | with_reducible exact keeps_of_fst (by assumption) (by assumption) | with_reducible apply keeps_ite | simp only [keeps_upd, keeps_upd_evt, id_eq] | split

theorem keeps_wrCa {s : State} (h : Keeps v q s) (x1 : _) (x2 : _) (x3 : _) (x4 : _) : Keeps v q (State.wrCa s x1 x2 x3 x4) := by
  unfold State.wrCa
  repeat' first | intro _ | with_reducible assumption | with_reducible apply keeps_foldl | with_reducible apply keeps_foldl_fst | with_reducible apply keeps_wrCaPiece | with_reducible exact keeps_of_fst (by assumption) (by assumption) | with_reducible apply keeps_ite | simp only [keeps_upd, keeps_upd_evt, id_eq] | split

theorem keeps_countNand {s : State} (h : Keeps v q s) (x1 : _) : Keeps v q (State.countNand s x1) := by
  unfold State.countNand
  repeat' first | intro _ | with_reducible assumption | with_reducible exact keeps_of_fst (by assumption) (by assumption) | with_reducible apply keeps_ite | simp only [keeps_upd, keeps_upd_evt, id_eq] | split

theorem keeps_celCheck {s : State} (h : Keeps v q s) : Keeps v q (State.celCheck s) := by
  unfold State.celCheck
  repeat' first | intro _ | with_reducible assumption | with_reducible apply keeps_logDev | with_reducible exact keeps_of_fst (by assumption) (by assumption) | with_reducible apply keeps_ite | simp only [keeps_upd, keeps_upd_evt, id_eq] | split

theorem keeps_celThrottle {s : State} (h : Keeps v q s) : Keeps v q (State.celThrottle s) := by
  unfold State.celThrottle
  repeat' first | intro _ | with_reducible assumption | with_reducible apply keeps_logDev | with_reducible exact keeps_of_fst (by assumption) (by assumption) | with_reducible apply keeps_ite | simp only [keeps_upd, keeps_upd_evt, id_eq] | split

theorem keeps_celCharge {s : State} (h : Keeps v q s) (x1 : _) : Keeps v q (State.celCharge s x1) := by
  unfold State.celCharge
  repeat' first | intro _ | with_reducible assumption | with_reducible apply keeps_celThrottle | with_reducible exact keeps_of_fst (by assumption) (by assumption) | with_reducible apply keeps_ite | simp only [keeps_upd, keeps_upd_evt, id_eq] | split

theorem keeps_celRefill {s : State} (h : Keeps v q s) (x1 : _) : Keeps v q (State.celRefill s x1) := by
  unfold State.celRefill
  repeat' first | intro _ | with_reducible assumption | with_reducible apply keeps_celThrottle | with_reducible exact keeps_of_fst (by assumption) (by assumption) | with_reducible apply keeps_ite | simp only [keeps_upd, keeps_upd_evt, id_eq] | split

theorem keeps_celStart {s : State} (h : Keeps v q s) (f n : Nat) : ∀ t, s.celStart f n = some t → Keeps v q t := by
  intro t e
  unfold State.celStart at e
  split at e
  · cases e
  · cases e; exact keeps_upd.2 h

theorem keeps_celRewrite {s : State} (h : Keeps v q s) (x1 : _) : Keeps v q (State.celRewrite s x1) := by
  unfold State.celRewrite
  repeat' first | intro _ | with_reducible assumption | with_reducible apply keeps_countNand | with_reducible exact keeps_of_fst (by assumption) (by assumption) | with_reducible apply keeps_ite | simp only [keeps_upd, keeps_upd_evt, id_eq] | split

theorem keeps_celEmpty {s : State} (h : Keeps v q s) (x1 : _) : Keeps v q (State.celEmpty s x1) := by
  unfold State.celEmpty
  repeat' first | intro _ | with_reducible assumption | with_reducible apply keeps_foldl | with_reducible apply keeps_foldl_fst | with_reducible apply keeps_celRewrite | with_reducible exact keeps_of_fst (by assumption) (by assumption) | with_reducible apply keeps_ite | simp only [keeps_upd, keeps_upd_evt, id_eq] | split

theorem keeps_doCellarWriteDone {s : State} (h : Keeps v q s) (x0 : _) : Keeps v q (doCellarWriteDone x0 s) := by
  unfold doCellarWriteDone
  repeat' first | intro _ | with_reducible assumption | with_reducible apply keeps_foldl | with_reducible apply keeps_foldl_fst | with_reducible apply keeps_celCheck | with_reducible apply keeps_countNand | with_reducible exact keeps_of_fst (by assumption) (by assumption) | with_reducible apply keeps_ite | simp only [keeps_upd, keeps_upd_evt, id_eq] | split

theorem keeps_poisonSlots {s : State} (h : Keeps v q s) (x1 : _) (x2 : _) : Keeps v q (State.poisonSlots s x1 x2) := by
  unfold State.poisonSlots
  repeat' first | intro _ | with_reducible assumption | with_reducible apply keeps_foldl | with_reducible apply keeps_foldl_fst | with_reducible apply keeps_markPoison | with_reducible exact keeps_of_fst (by assumption) (by assumption) | with_reducible apply keeps_ite | simp only [keeps_upd, keeps_upd_evt, id_eq] | split

theorem keeps_celLost {s : State} (h : Keeps v q s) (x1 : _) (x2 : _) (x3 : _) : Keeps v q (State.celLost s x1 x2 x3) := by
  unfold State.celLost
  repeat' first | intro _ | with_reducible assumption | with_reducible apply keeps_foldl | with_reducible apply keeps_foldl_fst | with_reducible apply keeps_poisonSlots | with_reducible apply keeps_logEvent | with_reducible exact keeps_of_fst (by assumption) (by assumption) | with_reducible apply keeps_ite | simp only [keeps_upd, keeps_upd_evt, id_eq] | split

theorem keeps_dieFail {s : State} (h : Keeps v q s) (x1 : _) (x2 : _) : Keeps v q (State.dieFail s x1 x2) := by
  unfold State.dieFail
  repeat' first | intro _ | with_reducible assumption | with_reducible apply keeps_foldl | with_reducible apply keeps_foldl_fst | with_reducible apply keeps_logEvent | with_reducible apply keeps_celLost | with_reducible exact keeps_of_fst (by assumption) (by assumption) | with_reducible apply keeps_ite | simp only [keeps_upd, keeps_upd_evt, id_eq] | split

theorem keeps_celDeliver {s : State} (h : Keeps v q s) (x1 : _) (x2 : _) (x3 : _) : Keeps v q (State.celDeliver s x1 x2 x3) := by
  unfold State.celDeliver
  repeat' first | intro _ | with_reducible assumption | with_reducible apply keeps_logEvent | with_reducible exact keeps_of_fst (by assumption) (by assumption) | with_reducible apply keeps_ite | simp only [keeps_upd, keeps_upd_evt, id_eq] | split

theorem keeps_celStep9 {s : State} (h : Keeps v q s) (x1 : _) : Keeps v q (State.celStep9 s x1) := by
  unfold State.celStep9
  repeat' first | intro _ | with_reducible assumption | with_reducible apply keeps_dieFail | with_reducible exact keeps_of_fst (by assumption) (by assumption) | with_reducible apply keeps_ite | simp only [keeps_upd, keeps_upd_evt, id_eq] | split

theorem keeps_celOthers {s : State} (h : Keeps v q s) (x1 : _) (x2 : _) : Keeps v q (State.celOthers s x1 x2) := by
  unfold State.celOthers
  repeat' first | intro _ | with_reducible assumption | with_reducible apply keeps_foldl | with_reducible apply keeps_foldl_fst | with_reducible apply keeps_celDeliver | with_reducible exact keeps_of_fst (by assumption) (by assumption) | with_reducible apply keeps_ite | simp only [keeps_upd, keeps_upd_evt, id_eq] | split

theorem keeps_celOutcome {s : State} (h : Keeps v q s) (x1 : _) (x2 : _) (x3 : _) : Keeps v q (State.celOutcome s x1 x2 x3) := by
  unfold State.celOutcome
  repeat' first | intro _ | with_reducible assumption | with_reducible apply keeps_celDeliver | with_reducible apply keeps_celStep9 | with_reducible apply keeps_celOthers | with_reducible apply keeps_celLost | with_reducible exact keeps_of_fst (by assumption) (by assumption) | with_reducible apply keeps_ite | simp only [keeps_upd, keeps_upd_evt, id_eq] | split

theorem keeps_doCellarRead {s : State} (h : Keeps v q s) (x0 : _) (x1 : _) (x2 : _) : Keeps v q (doCellarRead x0 x1 x2 s) := by
  unfold doCellarRead
  repeat' first | intro _ | with_reducible assumption | with_reducible apply keeps_celOutcome | with_reducible exact keeps_of_fst (by assumption) (by assumption) | with_reducible apply keeps_ite | simp only [keeps_upd, keeps_upd_evt, id_eq] | split

theorem keeps_doCellarPatrol {s : State} (h : Keeps v q s) (x0 : _) : Keeps v q (doCellarPatrol x0 s) := by
  unfold doCellarPatrol
  repeat' first | intro _ | with_reducible assumption | with_reducible apply keeps_foldl | with_reducible apply keeps_foldl_fst | with_reducible apply keeps_celOutcome | with_reducible exact keeps_of_fst (by assumption) (by assumption) | with_reducible apply keeps_ite | simp only [keeps_upd, keeps_upd_evt, id_eq] | split

theorem keeps_doCellarRefresh {s : State} (h : Keeps v q s) (x0 : _) : Keeps v q (doCellarRefresh x0 s) := by
  unfold doCellarRefresh
  repeat' first | intro _ | with_reducible assumption | with_reducible apply keeps_celRewrite | with_reducible exact keeps_of_fst (by assumption) (by assumption) | with_reducible apply keeps_ite | simp only [keeps_upd, keeps_upd_evt, id_eq] | split

theorem keeps_doCelDie {s : State} (h : Keeps v q s) (x0 : _) (x1 : _) : Keeps v q (doCelDie x0 x1 s) := by
  unfold doCelDie
  repeat' first | intro _ | with_reducible assumption | with_reducible apply keeps_dieFail | with_reducible exact keeps_of_fst (by assumption) (by assumption) | with_reducible apply keeps_ite | simp only [keeps_upd, keeps_upd_evt, id_eq] | split

theorem keeps_readThrough {s : State} (h : Keeps v q s) (x1 : _) (x2 : _) : Keeps v q (State.readThrough s x1 x2) := by
  unfold State.readThrough
  repeat' first | intro _ | with_reducible assumption | with_reducible apply keeps_foldl | with_reducible apply keeps_foldl_fst | with_reducible apply keeps_celDeliver | with_reducible exact keeps_of_fst (by assumption) (by assumption) | with_reducible apply keeps_ite | simp only [keeps_upd, keeps_upd_evt, id_eq] | split

theorem keeps_reformSb {s : State} (h : Keeps v q s) (x1 : _) (x2 : _) : Keeps v q (State.reformSb s x1 x2) := by
  unfold State.reformSb
  repeat' first | intro _ | with_reducible assumption | with_reducible apply keeps_celEmpty | with_reducible apply keeps_readThrough | with_reducible exact keeps_of_fst (by assumption) (by assumption) | with_reducible apply keeps_ite | simp only [keeps_upd, keeps_upd_evt, id_eq] | split

theorem keeps_doCellarRebuildDone {s : State} (h : Keeps v q s) : Keeps v q (doCellarRebuildDone s) := by
  unfold doCellarRebuildDone
  repeat' first | intro _ | with_reducible assumption | with_reducible apply keeps_foldl | with_reducible apply keeps_foldl_fst | with_reducible apply keeps_reformSb | with_reducible apply keeps_celCheck | with_reducible exact keeps_of_fst (by assumption) (by assumption) | with_reducible apply keeps_ite | simp only [keeps_upd, keeps_upd_evt, id_eq] | split

theorem keeps_dissolve {s : State} (h : Keeps v q s) (x1 : _) : Keeps v q (State.dissolve s x1) := by
  unfold State.dissolve
  repeat' first | intro _ | with_reducible assumption | with_reducible apply keeps_celCheck | with_reducible exact keeps_of_fst (by assumption) (by assumption) | with_reducible apply keeps_ite | simp only [keeps_upd, keeps_upd_evt, id_eq] | split

theorem keeps_retireBlock {s : State} (h : Keeps v q s) (x1 : _) (x2 : _) : Keeps v q (State.retireBlock s x1 x2) := by
  unfold State.retireBlock
  repeat' first | intro _ | with_reducible assumption | with_reducible apply keeps_foldl | with_reducible apply keeps_foldl_fst | with_reducible apply keeps_logEvent | with_reducible apply keeps_dissolve | with_reducible apply keeps_celRewrite | with_reducible exact keeps_of_fst (by assumption) (by assumption) | with_reducible apply keeps_ite | simp only [keeps_upd, keeps_upd_evt, id_eq] | split

theorem keeps_writeAgain {s : State} (h : Keeps v q s) (x1 : _) (x2 : _) : Keeps v q (State.writeAgain s x1 x2) := by
  unfold State.writeAgain
  repeat' first | intro _ | with_reducible assumption | with_reducible exact keeps_of_fst (by assumption) (by assumption) | with_reducible apply keeps_ite | simp only [keeps_upd, keeps_upd_evt, id_eq] | split

theorem keeps_doProgramFail {s : State} (h : Keeps v q s) (x0 : _) (x1 : _) (x2 : _) : Keeps v q (doProgramFail x0 x1 x2 s) := by
  unfold doProgramFail
  repeat' first | intro _ | with_reducible assumption | with_reducible apply keeps_foldl | with_reducible apply keeps_foldl_fst | with_reducible apply keeps_writeAgain | with_reducible apply keeps_retireBlock | with_reducible exact keeps_of_fst (by assumption) (by assumption) | with_reducible apply keeps_ite | simp only [keeps_upd, keeps_upd_evt, id_eq] | split

theorem keeps_doEraseFail {s : State} (h : Keeps v q s) (x0 : _) (x1 : _) : Keeps v q (doEraseFail x0 x1 s) := by
  unfold doEraseFail
  repeat' first | intro _ | with_reducible assumption | with_reducible apply keeps_retireBlock | with_reducible exact keeps_of_fst (by assumption) (by assumption) | with_reducible apply keeps_ite | simp only [keeps_upd, keeps_upd_evt, id_eq] | split

theorem keeps_doCompaction {s : State} (h : Keeps v q s) : Keeps v q (doCompaction s) := by
  unfold doCompaction
  repeat' first | intro _ | with_reducible assumption | with_reducible apply keeps_foldl | with_reducible apply keeps_foldl_fst | with_reducible apply keeps_dissolve | with_reducible apply keeps_celRewrite | with_reducible apply keeps_celEmpty | with_reducible apply keeps_celCheck | with_reducible exact keeps_of_fst (by assumption) (by assumption) | with_reducible apply keeps_ite | simp only [keeps_upd, keeps_upd_evt, id_eq] | split

theorem keeps_moveSb {s : State} (h : Keeps v q s) (x1 : _) (x2 : _) : Keeps v q (State.moveSb s x1 x2) := by
  unfold State.moveSb
  repeat' first | intro _ | with_reducible assumption | with_reducible apply keeps_foldl | with_reducible apply keeps_foldl_fst | with_reducible exact keeps_of_fst (by assumption) (by assumption) | with_reducible apply keeps_ite | simp only [keeps_upd, keeps_upd_evt, id_eq] | split

theorem keeps_doWearLevel {s : State} (h : Keeps v q s) : Keeps v q (doWearLevel s) := by
  unfold doWearLevel
  repeat' first | intro _ | with_reducible assumption | with_reducible apply keeps_celCheck | with_reducible apply keeps_countNand | with_reducible apply keeps_moveSb | with_reducible exact keeps_of_fst (by assumption) (by assumption) | with_reducible apply keeps_ite | simp only [keeps_upd, keeps_upd_evt, id_eq] | split

theorem keeps_countWait {s : State} (h : Keeps v q s) : Keeps v q (State.countWait s) := by
  unfold State.countWait
  repeat' first | intro _ | with_reducible assumption | with_reducible exact keeps_of_fst (by assumption) (by assumption) | with_reducible apply keeps_ite | simp only [keeps_upd, keeps_upd_evt, id_eq] | split

theorem keeps_freeTags {s : State} (h : Keeps v q s) (x1 : _) : Keeps v q (State.freeTags s x1) := by
  unfold State.freeTags
  repeat' first | intro _ | with_reducible assumption | with_reducible exact keeps_of_fst (by assumption) (by assumption) | with_reducible apply keeps_ite | simp only [keeps_upd, keeps_upd_evt, id_eq] | split

theorem keeps_markHigh {s : State} (h : Keeps v q s) : Keeps v q (State.markHigh s) := by
  unfold State.markHigh
  repeat' first | intro _ | with_reducible assumption | with_reducible exact keeps_of_fst (by assumption) (by assumption) | with_reducible apply keeps_ite | simp only [keeps_upd, keeps_upd_evt, id_eq] | split

theorem keeps_requestMove {s : State} (h : Keeps v q s) (x1 : _) (x2 : _) (x3 : _) (x4 : _) (x5 : _) : Keeps v q (State.requestMove s x1 x2 x3 x4 x5) := by
  unfold State.requestMove
  repeat' first | intro _ | with_reducible assumption | with_reducible exact keeps_of_fst (by assumption) (by assumption) | with_reducible apply keeps_ite | simp only [keeps_upd, keeps_upd_evt, id_eq] | split

theorem keeps_heat1 {s : State} (h : Keeps v q s) (x1 : _) (x2 : _) (x3 : _) : Keeps v q (State.heat1 s x1 x2 x3) := by
  unfold State.heat1
  repeat' first | intro _ | with_reducible assumption | with_reducible apply keeps_modPent | with_reducible apply keeps_requestMove | with_reducible exact keeps_of_fst (by assumption) (by assumption) | with_reducible apply keeps_ite | simp only [keeps_upd, keeps_upd_evt, id_eq] | split

theorem keeps_heatCa {s : State} (h : Keeps v q s) (x1 : _) (x2 : _) (x3 : _) : Keeps v q (State.heatCa s x1 x2 x3) := by
  unfold State.heatCa
  repeat' first | intro _ | with_reducible assumption | with_reducible apply keeps_foldl | with_reducible apply keeps_foldl_fst | with_reducible apply keeps_heat1 | with_reducible exact keeps_of_fst (by assumption) (by assumption) | with_reducible apply keeps_ite | simp only [keeps_upd, keeps_upd_evt, id_eq] | split

theorem keeps_getD {o : Option State} {s : State} (ho : ∀ t, o = some t → Keeps v q t) (h : Keeps v q s) : Keeps v q (o.getD s) := by
  cases o with
  | none => exact h
  | some t => exact ho t rfl

theorem keeps_startMove {s : State} (h : Keeps v q s) (m : Move) (k : Nat) : Keeps v q (s.startMove m k) := by
  unfold State.startMove
  simp only []
  split
  · exact h
  · refine keeps_markHigh (keeps_upd.2 (keeps_modPent ?_ _ _))
    refine keeps_ite (keeps_celCharge ?_ _) ?_ <;>
      exact keeps_ite (keeps_getD (keeps_celStart h _ _) h) h

theorem keeps_startEvict {s : State} (h : Keeps v q s) (x1 : _) (x2 : _) (x3 : _) (x4 : _) : Keeps v q (State.startEvict s x1 x2 x3 x4) := by
  unfold State.startEvict
  repeat' first | intro _ | with_reducible assumption | with_reducible apply keeps_startMove | with_reducible exact keeps_of_fst (by assumption) (by assumption) | with_reducible apply keeps_ite | simp only [keeps_upd, keeps_upd_evt, id_eq] | split

theorem keeps_dropMove {s : State} (h : Keeps v q s) (x1 : _) : Keeps v q (State.dropMove s x1) := by
  unfold State.dropMove
  repeat' first | intro _ | with_reducible assumption | with_reducible exact keeps_of_fst (by assumption) (by assumption) | with_reducible apply keeps_ite | simp only [keeps_upd, keeps_upd_evt, id_eq] | split

theorem keeps_modQueued {s : State} (h : Keeps v q s) (x1 : _) (x2 : _) : Keeps v q (State.modQueued s x1 x2) := by
  unfold State.modQueued
  repeat' first | intro _ | with_reducible assumption | with_reducible exact keeps_of_fst (by assumption) (by assumption) | with_reducible apply keeps_ite | simp only [keeps_upd, keeps_upd_evt, id_eq] | split

theorem keeps_noRoomLog {s : State} (h : Keeps v q s) (x1 : _) : Keeps v q (State.noRoomLog s x1) := by
  unfold State.noRoomLog
  repeat' first | intro _ | with_reducible assumption | with_reducible apply keeps_modQueued | with_reducible apply keeps_modStep | with_reducible apply keeps_logDev | with_reducible exact keeps_of_fst (by assumption) (by assumption) | with_reducible apply keeps_ite | simp only [keeps_upd, keeps_upd_evt, id_eq] | split

theorem keeps_startOr {s : State} (h : Keeps v q s) (m : Move) (k : Nat) : ∀ t, s.startOr m k = .acted t → Keeps v q t := by
  intro t e
  unfold State.startOr at e
  split at e
  · cases e
  · cases e; exact keeps_startMove h _ _

theorem keeps_makeRoom {s : State} (h : Keeps v q s) (m : Move) (r : Region) (k : Nat) :
    ∀ t, s.makeRoom m r k = .acted t → Keeps v q t := by
  intro t e
  unfold State.makeRoom at e
  simp only [] at e
  repeat' first
    | split at e
    | (cases e; first | exact keeps_startEvict h _ _ _ _ | exact keeps_upd.2 (keeps_startEvict h _ _ _ _))
    | (cases e; done)

theorem keeps_tryMove {s : State} (h : Keeps v q s) (m : Move) : ∀ t, s.tryMove m = .acted t → Keeps v q t := by
  intro t e
  unfold State.tryMove at e
  simp only [] at e
  repeat' split at e
  all_goals first
    | exact keeps_startOr h _ _ _ e
    | exact keeps_makeRoom h _ _ _ _ e
    | (cases e; done)

theorem keeps_serveMoves (l : List Move) {s : State} (h : Keeps v q s) : Keeps v q (serveMoves l s) := by
  induction l generalizing s with
  | nil => exact h
  | cons m r ih =>
    unfold serveMoves
    split
    · exact keeps_tryMove h m _ (by assumption)
    · exact ih (keeps_dropMove h _)
    · exact ih h
    · exact ih (keeps_ite h (keeps_countWait (keeps_modQueued h _ _)))
    · exact ih (keeps_noRoomLog h _)

theorem keeps_askRoom {s : State} (h : Keeps v q s) : Keeps v q (State.askRoom s) := by
  unfold State.askRoom
  repeat' first | intro _ | with_reducible assumption | with_reducible exact keeps_of_fst (by assumption) (by assumption) | with_reducible apply keeps_ite | simp only [keeps_upd, keeps_upd_evt, id_eq] | split

theorem keeps_doMoveStart {s : State} (h : Keeps v q s) : Keeps v q (doMoveStart s) := by
  unfold doMoveStart
  repeat' first | intro _ | with_reducible assumption | with_reducible apply keeps_serveMoves | with_reducible apply keeps_askRoom | with_reducible exact keeps_of_fst (by assumption) (by assumption) | with_reducible apply keeps_ite | simp only [keeps_upd, keeps_upd_evt, id_eq] | split

theorem keeps_convertHdrs {s : State} (h : Keeps v q s) (x1 : _) (x2 : _) : Keeps v q (State.convertHdrs s x1 x2) := by
  unfold State.convertHdrs
  repeat' first | intro _ | with_reducible assumption | with_reducible apply keeps_foldl | with_reducible apply keeps_foldl_fst | with_reducible exact keeps_of_fst (by assumption) (by assumption) | with_reducible apply keeps_ite | simp only [keeps_upd, keeps_upd_evt, id_eq] | split

theorem keeps_moveFrame {s : State} (h : Keeps v q s) (a b c d : Nat) : Keeps v q (s.moveFrame a b c d) := by
  have hm : Memory.wf (smShift 0 s.mem (daKey a b 0) granule (daKey c d 0)) = true := smWf_smShift _ _ _ h.3
  unfold State.moveFrame
  refine keeps_ite (keeps_convertHdrs ?_ _ _) ?_ <;> exact ⟨h.1, h.2, hm, h.4, h.5⟩

theorem keeps_clearFrame {s : State} (h : Keeps v q s) (x1 : _) (x2 : _) : Keeps v q (State.clearFrame s x1 x2) := by
  unfold State.clearFrame
  repeat' first | intro _ | with_reducible assumption | with_reducible apply keeps_zero | with_reducible exact keeps_of_fst (by assumption) (by assumption) | with_reducible apply keeps_ite | simp only [keeps_upd, keeps_upd_evt, id_eq] | split

theorem keeps_takeRoom {s : State} (h : Keeps v q s) (m : Move) : Keeps v q (s.takeRoom m) := by
  unfold State.takeRoom
  repeat' split
  all_goals first
    | exact h
    | exact keeps_tryMove h _ _ (by assumption)

theorem keeps_finishMove {s : State} (h : Keeps v q s) (x1 : _) : Keeps v q (State.finishMove s x1) := by
  unfold State.finishMove
  repeat' first | intro _ | with_reducible assumption | with_reducible apply keeps_moveFrame | with_reducible apply keeps_modPent | with_reducible apply keeps_modCtx | with_reducible apply keeps_requestMove | with_reducible apply keeps_takeRoom | with_reducible apply keeps_advanceEpoch | with_reducible exact keeps_of_fst (by assumption) (by assumption) | with_reducible apply keeps_ite | simp only [keeps_upd, keeps_upd_evt, id_eq] | split

theorem keeps_startFill {s : State} (h : Keeps v q s) (x1 : _) : Keeps v q (State.startFill s x1) := by
  unfold State.startFill
  repeat' first | intro _ | with_reducible assumption | with_reducible apply keeps_modPent | with_reducible exact keeps_of_fst (by assumption) (by assumption) | with_reducible apply keeps_ite | simp only [keeps_upd, keeps_upd_evt, id_eq] | split

theorem keeps_fillDone {s : State} (h : Keeps v q s) (x1 : _) : Keeps v q (State.fillDone s x1) := by
  unfold State.fillDone
  repeat' first | intro _ | with_reducible assumption | with_reducible apply keeps_modPent | with_reducible apply keeps_clearFrame | with_reducible exact keeps_of_fst (by assumption) (by assumption) | with_reducible apply keeps_ite | simp only [keeps_upd, keeps_upd_evt, id_eq] | split

theorem keeps_doHeatDecay {s : State} (h : Keeps v q s) : Keeps v q (doHeatDecay s) := by
  unfold doHeatDecay
  repeat' first | intro _ | with_reducible assumption | with_reducible exact keeps_of_fst (by assumption) (by assumption) | with_reducible apply keeps_ite | simp only [keeps_upd, keeps_upd_evt, id_eq] | split

theorem keeps_cancelMoves {s : State} (h : Keeps v q s) (x1 : _) : Keeps v q (State.cancelMoves s x1) := by
  unfold State.cancelMoves
  repeat' first | intro _ | with_reducible assumption | with_reducible apply keeps_foldl | with_reducible apply keeps_foldl_fst | with_reducible apply keeps_modPent | with_reducible exact keeps_of_fst (by assumption) (by assumption) | with_reducible apply keeps_ite | simp only [keeps_upd, keeps_upd_evt, id_eq] | split

theorem keeps_freeGranules {s : State} (h : Keeps v q s) (x1 : _) : Keeps v q (State.freeGranules s x1) := by
  unfold State.freeGranules
  repeat' first | intro _ | with_reducible assumption | with_reducible apply keeps_foldl | with_reducible apply keeps_foldl_fst | with_reducible apply keeps_modPent | with_reducible apply keeps_clearFrame | with_reducible exact keeps_of_fst (by assumption) (by assumption) | with_reducible apply keeps_ite | simp only [keeps_upd, keeps_upd_evt, id_eq] | split

theorem keeps_doRegionRelease {s : State} (h : Keeps v q s) (x0 : _) (x1 : _) : Keeps v q (doRegionRelease x0 x1 s) := by
  unfold doRegionRelease
  repeat' first | intro _ | with_reducible assumption | with_reducible apply keeps_freeGranules | with_reducible apply keeps_modCtx | with_reducible exact keeps_of_fst (by assumption) (by assumption) | with_reducible apply keeps_ite | simp only [keeps_upd, keeps_upd_evt, id_eq] | split

theorem keeps_displace {s : State} (h : Keeps v q s) (x1 : _) : Keeps v q (State.displace s x1) := by
  unfold State.displace
  repeat' first | intro _ | with_reducible assumption | with_reducible exact keeps_of_fst (by assumption) (by assumption) | with_reducible apply keeps_ite | simp only [keeps_upd, keeps_upd_evt, id_eq] | split

theorem keeps_evacuate {s : State} (h : Keeps v q s) (x1 : _) (x2 : _) : Keeps v q (State.evacuate s x1 x2) := by
  unfold State.evacuate
  repeat' first | intro _ | with_reducible assumption | with_reducible apply keeps_displace | with_reducible apply keeps_requestMove | with_reducible apply keeps_modPent | with_reducible exact keeps_of_fst (by assumption) (by assumption) | with_reducible apply keeps_ite | simp only [keeps_upd, keeps_upd_evt, id_eq] | split

theorem keeps_countFret {s : State} (h : Keeps v q s) (x1 : _) (x2 : _) (x3 : _) : Keeps v q (State.countFret s x1 x2 x3) := by
  unfold State.countFret
  repeat' first | intro _ | with_reducible assumption | with_reducible exact keeps_of_fst (by assumption) (by assumption) | with_reducible apply keeps_ite | simp only [keeps_upd, keeps_upd_evt, id_eq] | split

theorem keeps_retireFrame {s : State} (h : Keeps v q s) (x1 : _) (x2 : _) (x3 : _) : Keeps v q (State.retireFrame s x1 x2 x3) := by
  unfold State.retireFrame
  repeat' first | intro _ | with_reducible assumption | with_reducible apply keeps_evacuate | with_reducible apply keeps_countFret | with_reducible exact keeps_of_fst (by assumption) (by assumption) | with_reducible apply keeps_ite | simp only [keeps_upd, keeps_upd_evt, id_eq] | split

theorem keeps_logRetired {s : State} (h : Keeps v q s) (x1 : _) (x2 : _) : Keeps v q (State.logRetired s x1 x2) := by
  unfold State.logRetired
  repeat' first | intro _ | with_reducible assumption | with_reducible apply keeps_logEvent | with_reducible exact keeps_of_fst (by assumption) (by assumption) | with_reducible apply keeps_ite | simp only [keeps_upd, keeps_upd_evt, id_eq] | split

theorem keeps_retirePc {s : State} (h : Keeps v q s) (x1 : _) (x2 : _) : Keeps v q (State.retirePc s x1 x2) := by
  unfold State.retirePc
  repeat' first | intro _ | with_reducible assumption | with_reducible apply keeps_foldl | with_reducible apply keeps_foldl_fst | with_reducible apply keeps_retireFrame | with_reducible apply keeps_logRetired | with_reducible exact keeps_of_fst (by assumption) (by assumption) | with_reducible apply keeps_ite | simp only [keeps_upd, keeps_upd_evt, id_eq] | split

theorem keeps_retireBank {s : State} (h : Keeps v q s) (x1 : _) (x2 : _) : Keeps v q (State.retireBank s x1 x2) := by
  unfold State.retireBank
  repeat' first | intro _ | with_reducible assumption | with_reducible apply keeps_foldl | with_reducible apply keeps_foldl_fst | with_reducible apply keeps_retireFrame | with_reducible apply keeps_logRetired | with_reducible exact keeps_of_fst (by assumption) (by assumption) | with_reducible apply keeps_ite | simp only [keeps_upd, keeps_upd_evt, id_eq] | split

theorem keeps_retireRowBank {s : State} (h : Keeps v q s) (x1 : _) : Keeps v q (State.retireRowBank s x1) := by
  unfold State.retireRowBank
  repeat' first | intro _ | with_reducible assumption | with_reducible apply keeps_logRetired | with_reducible apply keeps_retireFrame | with_reducible apply keeps_retirePc | with_reducible exact keeps_of_fst (by assumption) (by assumption) | with_reducible apply keeps_ite | simp only [keeps_upd, keeps_upd_evt, id_eq] | split

theorem keeps_retireRowBulk {s : State} (h : Keeps v q s) (x1 : _) : Keeps v q (State.retireRowBulk s x1) := by
  unfold State.retireRowBulk
  repeat' first | intro _ | with_reducible assumption | with_reducible apply keeps_foldl | with_reducible apply keeps_foldl_fst | with_reducible apply keeps_logRetired | with_reducible apply keeps_retireFrame | with_reducible apply keeps_retireBank | with_reducible exact keeps_of_fst (by assumption) (by assumption) | with_reducible apply keeps_ite | simp only [keeps_upd, keeps_upd_evt, id_eq] | split

theorem keeps_retireLine {s : State} (h : Keeps v q s) (x1 : _) : Keeps v q (State.retireLine s x1) := by
  unfold State.retireLine
  repeat' first | intro _ | with_reducible assumption | with_reducible apply keeps_logRetired | with_reducible exact keeps_of_fst (by assumption) (by assumption) | with_reducible apply keeps_ite | simp only [keeps_upd, keeps_upd_evt, id_eq] | split

theorem keeps_rasCount {s : State} (h : Keeps v q s) (x1 : _) (x2 : _) : Keeps v q (State.rasCount s x1 x2) := by
  unfold State.rasCount
  repeat' first | intro _ | with_reducible assumption | with_reducible exact keeps_of_fst (by assumption) (by assumption) | with_reducible apply keeps_ite | simp only [keeps_upd, keeps_upd_evt, id_eq] | split

theorem keeps_retireRow {s : State} (h : Keeps v q s) (x1 : _) : Keeps v q (State.retireRow s x1) := by
  unfold State.retireRow
  repeat' first | intro _ | with_reducible assumption | with_reducible apply keeps_retireLine | with_reducible apply keeps_retireRowBank | with_reducible apply keeps_retireRowBulk | with_reducible exact keeps_of_fst (by assumption) (by assumption) | with_reducible apply keeps_ite | simp only [keeps_upd, keeps_upd_evt, id_eq] | split

theorem keeps_poisonHeaders {s : State} (h : Keeps v q s) (x1 : _) (x2 : _) : Keeps v q (State.poisonHeaders s x1 x2) := by
  unfold State.poisonHeaders
  repeat' first | intro _ | with_reducible assumption | with_reducible apply keeps_foldl | with_reducible apply keeps_foldl_fst | with_reducible exact keeps_of_fst (by assumption) (by assumption) | with_reducible apply keeps_ite | simp only [keeps_upd, keeps_upd_evt, id_eq] | split

theorem keeps_logUe {s : State} (h : Keeps v q s) (x1 : _) (x2 : _) (x3 : _) (x4 : _) : Keeps v q (State.logUe s x1 x2 x3 x4) := by
  unfold State.logUe
  repeat' first | intro _ | with_reducible assumption | with_reducible apply keeps_logEvent | with_reducible exact keeps_of_fst (by assumption) (by assumption) | with_reducible apply keeps_ite | simp only [keeps_upd, keeps_upd_evt, id_eq] | split

theorem keeps_poisonWord {s : State} (h : Keeps v q s) (x1 : _) (x2 : _) : Keeps v q (State.poisonWord s x1 x2) := by
  unfold State.poisonWord
  repeat' first | intro _ | with_reducible assumption | with_reducible apply keeps_logUe | with_reducible apply keeps_poisonHeaders | with_reducible apply keeps_markPoison | with_reducible exact keeps_of_fst (by assumption) (by assumption) | with_reducible apply keeps_ite | simp only [keeps_upd, keeps_upd_evt, id_eq] | split

theorem keeps_rasFind {s : State} (h : Keeps v q s) (x0 : _) (x2 : _) : Keeps v q (State.rasFind x0 s x2) := by
  unfold State.rasFind
  repeat' first | intro _ | with_reducible assumption | with_reducible apply keeps_rasCount | with_reducible apply keeps_retireRow | with_reducible apply keeps_logDev | with_reducible apply keeps_poisonWord | with_reducible exact keeps_of_fst (by assumption) (by assumption) | with_reducible apply keeps_ite | simp only [keeps_upd, keeps_upd_evt, id_eq] | split

theorem keeps_doPatrolScrub {s : State} (h : Keeps v q s) (x0 : _) (x1 : _) : Keeps v q (doPatrolScrub x0 x1 s) := by
  unfold doPatrolScrub
  repeat' first | intro _ | with_reducible assumption | with_reducible apply keeps_foldl | with_reducible apply keeps_foldl_fst | with_reducible apply keeps_rasFind | with_reducible exact keeps_of_fst (by assumption) (by assumption) | with_reducible apply keeps_ite | simp only [keeps_upd, keeps_upd_evt, id_eq] | split

theorem keeps_doPhyFault {s : State} (h : Keeps v q s) (x0 : _) : Keeps v q (doPhyFault x0 s) := by
  unfold doPhyFault
  repeat' first | intro _ | with_reducible assumption | with_reducible apply keeps_retirePc | with_reducible apply keeps_retireBank | with_reducible exact keeps_of_fst (by assumption) (by assumption) | with_reducible apply keeps_ite | simp only [keeps_upd, keeps_upd_evt, id_eq] | split

theorem keeps_writeRecord {s : State} (h : Keeps v q s) (x1 : _) (x2 : _) (x3 : _) (x4 : _) : Keeps v q (State.writeRecord s x1 x2 x3 x4) := by
  unfold State.writeRecord
  repeat' first | intro _ | with_reducible assumption | with_reducible apply keeps_wrClk | with_reducible exact keeps_of_fst (by assumption) (by assumption) | with_reducible apply keeps_ite | simp only [keeps_upd, keeps_upd_evt, id_eq] | split

theorem keeps_progFault {s : State} (h : Keeps v q s) (x1 : _) (x2 : _) (x3 : _) (x4 : _) (x5 : _) (x6 : _) : Keeps v q (State.progFault s x1 x2 x3 x4 x5 x6) := by
  unfold State.progFault
  repeat' first | intro _ | with_reducible assumption | with_reducible apply keeps_modSeq | with_reducible apply keeps_logTile | with_reducible apply keeps_writeRecord | with_reducible apply keeps_requestAbort | with_reducible exact keeps_of_fst (by assumption) (by assumption) | with_reducible apply keeps_ite | simp only [keeps_upd, keeps_upd_evt, id_eq] | split

theorem keeps_semSet {s : State} (h : Keeps v q s) (x1 : _) (x2 : _) (x3 : _) (x4 : _) (x5 : _) : Keeps v q (State.semSet s x1 x2 x3 x4 x5) := by
  unfold State.semSet
  repeat' first | intro _ | with_reducible assumption | with_reducible apply keeps_modTile | with_reducible exact keeps_of_fst (by assumption) (by assumption) | with_reducible apply keeps_ite | simp only [keeps_upd, keeps_upd_evt, id_eq] | split

theorem keeps_semAdd {s : State} (h : Keeps v q s) (x1 : _) (x2 : _) (x3 : _) (x4 : _) (x5 : _) : Keeps v q (State.semAdd s x1 x2 x3 x4 x5) := by
  unfold State.semAdd
  repeat' first | intro _ | with_reducible assumption | with_reducible apply keeps_modTile | with_reducible exact keeps_of_fst (by assumption) (by assumption) | with_reducible apply keeps_ite | simp only [keeps_upd, keeps_upd_evt, id_eq] | split

theorem keeps_semFault {s : State} (h : Keeps v q s) (x1 : _) (x2 : _) (x3 : _) : Keeps v q (State.semFault s x1 x2 x3) := by
  unfold State.semFault
  repeat' first | intro _ | with_reducible assumption | with_reducible apply keeps_progFault | with_reducible exact keeps_of_fst (by assumption) (by assumption) | with_reducible apply keeps_ite | simp only [keeps_upd, keeps_upd_evt, id_eq] | split

theorem keeps_semFaults {s : State} (h : Keeps v q s) (x1 : _) (x2 : _) (x3 : _) : Keeps v q (State.semFaults s x1 x2 x3) := by
  unfold State.semFaults
  repeat' first | intro _ | with_reducible assumption | with_reducible apply keeps_foldl | with_reducible apply keeps_foldl_fst | with_reducible apply keeps_semFault | with_reducible exact keeps_of_fst (by assumption) (by assumption) | with_reducible apply keeps_ite | simp only [keeps_upd, keeps_upd_evt, id_eq] | split

theorem keeps_finishStream {s : State} (h : Keeps v q s) (x1 : _) (x2 : _) : Keeps v q (State.finishStream s x1 x2) := by
  unfold State.finishStream
  repeat' first | intro _ | with_reducible assumption | with_reducible apply keeps_modSeq | with_reducible exact keeps_of_fst (by assumption) (by assumption) | with_reducible apply keeps_ite | simp only [keeps_upd, keeps_upd_evt, id_eq] | split

theorem keeps_retire {s : State} (h : Keeps v q s) (x1 : _) (x2 : _) (x3 : _) : Keeps v q (State.retire s x1 x2 x3) := by
  unfold State.retire
  repeat' first | intro _ | with_reducible assumption | with_reducible apply keeps_modSeq | with_reducible apply keeps_modTile | with_reducible apply keeps_finishStream | with_reducible apply keeps_writeRecord | with_reducible exact keeps_of_fst (by assumption) (by assumption) | with_reducible apply keeps_ite | simp only [keeps_upd, keeps_upd_evt, id_eq] | split

theorem keeps_reachFault {s : State} (h : Keeps v q s) (x1 : _) (x2 : _) (x3 : _) (x4 : _) : Keeps v q (State.reachFault s x1 x2 x3 x4) := by
  unfold State.reachFault
  repeat' first | intro _ | with_reducible assumption | with_reducible apply keeps_progFault | with_reducible exact keeps_of_fst (by assumption) (by assumption) | with_reducible apply keeps_ite | simp only [keeps_upd, keeps_upd_evt, id_eq] | split

theorem keeps_budgetUnfit {s : State} (h : Keeps v q s) (x1 : _) (x2 : _) (x3 : _) : Keeps v q (State.budgetUnfit s x1 x2 x3) := by
  unfold State.budgetUnfit
  repeat' first | intro _ | with_reducible assumption | with_reducible apply keeps_logTile | with_reducible apply keeps_modSeq | with_reducible apply keeps_requestAbort | with_reducible exact keeps_of_fst (by assumption) (by assumption) | with_reducible apply keeps_ite | simp only [keeps_upd, keeps_upd_evt, id_eq] | split

theorem keeps_reach {s : State} (h : Keeps v q s) (t : Nat) (st : Stream) (k : OpInfo) (w : Insn) (pre : Seq → Option Nat) :
    ∀ x, s.reach t st k w pre = .stop x → Keeps v q x := by
  intro x e
  unfold State.reach at e
  simp only [] at e
  repeat' first
    | split at e
    | (cases e; first | exact h | exact keeps_modSeq h _ _ _)
    | (cases e; done)

theorem keeps_issue {s : State} (h : Keeps v q s) (t : Nat) (st : Stream) (k : OpInfo) (w : Insn) (pre : Seq → Option Nat)
    (flow : Seq → Seq) (body : Nat → InFlight → State → Ran) (hb : ∀ c x s, Keeps v q s → Keeps v q (body c x s).st) :
    Keeps v q (s.issue t st k w pre flow body) := by
  unfold State.issue
  simp only []
  split
  · exact h
  · split
    · exact keeps_reach h _ _ _ _ _ _ (by assumption)
    · exact keeps_reachFault h _ _ _ _
    · refine keeps_ite (keeps_modSeq h _ _ _) (keeps_ite (keeps_modSeq h _ _ _) (keeps_ite h ?_))
      split
      · exact keeps_modSeq h _ _ _
      · exact keeps_budgetUnfit h _ _ _
      · refine keeps_ite h ?_
        split
        · exact keeps_progFault (keeps_afterAll (keeps_modSeq h _ _ _) (hb _ _ _ (keeps_asBefore (keeps_modSeq h _ _ _))) _) _ _ _ _ _ _
        · refine keeps_ite (keeps_retire ?_ _ _ _) ?_ <;>
            exact keeps_modSeq (keeps_afterAll (keeps_modSeq h _ _ _) (hb _ _ _ (keeps_asBefore (keeps_modSeq h _ _ _))) _) _ _ _

theorem keeps_noWork {s : State} (h : Keeps v q s) (x0 : _) (x1 : _) : Keeps v q (noWork x0 x1 s).st := by
  unfold noWork
  repeat' first | intro _ | with_reducible assumption | with_reducible exact keeps_of_fst (by assumption) (by assumption) | with_reducible apply keeps_ite | simp only [keeps_upd, keeps_upd_evt, id_eq] | split

theorem keeps_issueDesc {s : State} (h : Keeps v q s) (t : Nat) (st : Stream) (k : OpInfo) (w : Insn) (ops : List Nat)
    (body : Nat → Nat → Nat → InFlight → State → Ran) (hb : ∀ a b c x s, Keeps v q s → Keeps v q (body a b c x s).st) :
    Keeps v q (s.issueDesc t st k w ops body) := by
  unfold State.issueDesc
  refine keeps_issue h _ _ _ _ _ _ _ ?_
  intro c x s hs
  split
  · exact hs
  · exact hb _ _ _ _ _ hs

theorem keeps_passSync {s : State} (h : Keeps v q s) (x1 : _) (x2 : _) (x3 : _) : Keeps v q (State.passSync s x1 x2 x3) := by
  unfold State.passSync
  repeat' first | intro _ | with_reducible assumption | with_reducible apply keeps_modSeq | with_reducible apply keeps_finishStream | with_reducible apply keeps_writeRecord | with_reducible exact keeps_of_fst (by assumption) (by assumption) | with_reducible apply keeps_ite | simp only [keeps_upd, keeps_upd_evt, id_eq] | split

theorem keeps_reachSync {s : State} (h : Keeps v q s) (t : Nat) (st : Stream) (k : OpInfo) (w : Insn)
    (act : Nat → InFlight → State → State) (ha : ∀ c x s, Keeps v q s → Keeps v q (act c x s)) :
    Keeps v q (s.reachSync t st k w act) := by
  unfold State.reachSync
  simp only []
  split
  · exact h
  · split
    · exact keeps_reach h _ _ _ _ _ _ (by assumption)
    · exact keeps_reachFault h _ _ _ _
    · exact keeps_ite (keeps_modSeq h _ _ _) (ha _ _ _ (keeps_modSeq h _ _ _))

theorem keeps_slip {s : State} (h : Keeps v q s) (x1 : _) (x2 : _) (x3 : _) (x4 : _) (x5 : _) : Keeps v q (State.slip s x1 x2 x3 x4 x5) := by
  unfold State.slip
  repeat' first | intro _ | with_reducible assumption | with_reducible apply keeps_modStep | with_reducible apply keeps_logTile | with_reducible apply keeps_requestAbort | with_reducible exact keeps_of_fst (by assumption) (by assumption) | with_reducible apply keeps_ite | simp only [keeps_upd, keeps_upd_evt, id_eq] | split

theorem keeps_testSems {s : State} (h : Keeps v q s) (x1 : _) (x2 : _) : Keeps v q (State.testSems s x1 x2) := by
  unfold State.testSems
  repeat' first | intro _ | with_reducible assumption | with_reducible apply keeps_modTile | with_reducible exact keeps_of_fst (by assumption) (by assumption) | with_reducible apply keeps_ite | simp only [keeps_upd, keeps_upd_evt, id_eq] | split

theorem keeps_doRemoteSignalApply {s : State} (h : Keeps v q s) (x0 : _) : Keeps v q (doRemoteSignalApply x0 s) := by
  unfold doRemoteSignalApply
  repeat' first | intro _ | with_reducible assumption | with_reducible apply keeps_semFaults | with_reducible apply keeps_semAdd | with_reducible exact keeps_of_fst (by assumption) (by assumption) | with_reducible apply keeps_ite | simp only [keeps_upd, keeps_upd_evt, id_eq] | split

theorem keeps_consume {s : State} (h : Keeps v q s) (x1 : _) (x2 : _) : Keeps v q (State.consume s x1 x2).1 := by
  unfold State.consume
  repeat' first | intro _ | with_reducible assumption | with_reducible apply keeps_freeTags | with_reducible apply keeps_visible | with_reducible exact keeps_of_fst (by assumption) (by assumption) | with_reducible apply keeps_ite | simp only [keeps_upd, keeps_upd_evt, id_eq] | split

theorem keeps_doIcacheFill {s : State} (h : Keeps v q s) (x0 : _) (x1 : _) : Keeps v q (doIcacheFill x0 x1 s) := by
  unfold doIcacheFill
  repeat' first | intro _ | with_reducible assumption | with_reducible apply keeps_foldl | with_reducible apply keeps_foldl_fst | with_reducible apply keeps_heatCa | with_reducible apply keeps_modSeq | with_reducible exact keeps_of_fst (by assumption) (by assumption) | with_reducible apply keeps_ite | simp only [keeps_upd, keeps_upd_evt, id_eq] | split

theorem keeps_putRow {s : State} (h : Keeps v q s) (x1 : _) (x2 : _) (x3 : _) : Keeps v q (State.putRow s x1 x2 x3) := by
  unfold State.putRow
  repeat' first | intro _ | with_reducible assumption | with_reducible apply keeps_foldl | with_reducible apply keeps_foldl_fst | with_reducible apply keeps_wr | with_reducible exact keeps_of_fst (by assumption) (by assumption) | with_reducible apply keeps_ite | simp only [keeps_upd, keeps_upd_evt, id_eq] | split

theorem keeps_putBlks {s : State} (h : Keeps v q s) (x1 : _) (x2 : _) (x3 : _) : Keeps v q (State.putBlks s x1 x2 x3) := by
  unfold State.putBlks
  repeat' first | intro _ | with_reducible assumption | with_reducible apply keeps_wr | with_reducible apply keeps_putRow | with_reducible exact keeps_of_fst (by assumption) (by assumption) | with_reducible apply keeps_ite | simp only [keeps_upd, keeps_upd_evt, id_eq] | split

theorem keeps_putBitmap {s : State} (h : Keeps v q s) (x1 : _) (x2 : _) (x3 : _) (x4 : _) : Keeps v q (State.putBitmap s x1 x2 x3 x4) := by
  unfold State.putBitmap
  repeat' first | intro _ | with_reducible assumption | with_reducible apply keeps_foldl | with_reducible apply keeps_foldl_fst | with_reducible apply keeps_wrCa | with_reducible exact keeps_of_fst (by assumption) (by assumption) | with_reducible apply keeps_ite | simp only [keeps_upd, keeps_upd_evt, id_eq] | split

theorem keeps_metPoison {s : State} (h : Keeps v q s) (x1 : _) (x2 : _) (x3 : _) (x4 : _) : Keeps v q (State.metPoison s x1 x2 x3 x4).1 := by
  unfold State.metPoison
  repeat' first | intro _ | with_reducible assumption | with_reducible apply keeps_requestAbort | with_reducible apply keeps_logTile | with_reducible exact keeps_of_fst (by assumption) (by assumption) | with_reducible apply keeps_ite | simp only [keeps_upd, keeps_upd_evt, id_eq] | split

theorem keeps_rowred {s : State} (h : Keeps v q s) (x1 : _) (x2 : _) (x3 : _) : Keeps v q (State.rowred s x1 x2 x3).1 := by
  unfold State.rowred
  repeat' first | intro _ | with_reducible assumption | with_reducible apply keeps_wr | with_reducible exact keeps_of_fst (by assumption) (by assumption) | with_reducible apply keeps_ite | simp only [keeps_upd, keeps_upd_evt, id_eq] | split

theorem keeps_runStages (k : RowCtx) (l : List Stage) (p : State × List Lane × Nat) (h : Keeps v q p.1) :
    Keeps v q (runStages k l p).1 := by
  induction l generalizing p with
  | nil => exact h
  | cons x r ih =>
    unfold runStages
    split
    · exact ih _ (keeps_rowred h _ _ _)
    · exact ih _ h

theorem keeps_packRow {s : State} (h : Keeps v q s) (x1 : _) (x2 : _) (x3 : _) : Keeps v q (State.packRow s x1 x2 x3).1 := by
  unfold State.packRow
  repeat' first | intro _ | with_reducible assumption | with_reducible apply keeps_putRow | with_reducible apply keeps_wr | with_reducible apply keeps_putBlks | with_reducible apply keeps_wrCa | with_reducible apply keeps_putBitmap | with_reducible exact keeps_of_fst (by assumption) (by assumption) | with_reducible apply keeps_ite | simp only [keeps_upd, keeps_upd_evt, id_eq] | split

theorem keeps_chainRow {s : State} (h : Keeps v q s) (t c : Nat) (k : RowCtx) (src : ChainSrc) :
    Keeps v q (s.chainRow t c k src).1 := by
  unfold State.chainRow
  simp only []
  split
  · refine keeps_runStages _ _ _ ?_
    split
    · exact keeps_modTile h _ _
    · exact h
  · refine keeps_packRow (keeps_runStages _ _ _ ?_) _ _ _
    split
    · exact keeps_modTile h _ _
    · exact h

theorem keeps_runChain {s : State} (h : Keeps v q s) (x1 : _) (x2 : _) (x3 : _) (x4 : _) (x5 : _) (x6 : _) (x7 : _) (x8 : _) : Keeps v q (State.runChain s x1 x2 x3 x4 x5 x6 x7 x8).1 := by
  unfold State.runChain
  repeat' first | intro _ | with_reducible assumption | with_reducible apply keeps_foldl | with_reducible apply keeps_foldl_fst | with_reducible apply keeps_metPoison | with_reducible apply keeps_chainRow | with_reducible exact keeps_of_fst (by assumption) (by assumption) | with_reducible apply keeps_ite | simp only [keeps_upd, keeps_upd_evt, id_eq] | split

theorem keeps_runMm {s : State} (h : Keeps v q s) (x1 : _) (x2 : _) (x3 : _) (x4 : _) (x5 : _) (x6 : _) : Keeps v q (State.runMm s x1 x2 x3 x4 x5 x6).1 := by
  unfold State.runMm
  repeat' first | intro _ | with_reducible assumption | with_reducible apply keeps_foldl | with_reducible apply keeps_foldl_fst | with_reducible apply keeps_metPoison | with_reducible apply keeps_modTile | with_reducible exact keeps_of_fst (by assumption) (by assumption) | with_reducible apply keeps_ite | simp only [keeps_upd, keeps_upd_evt, id_eq] | split

theorem keeps_register {s : State} (h : Keeps v q s) (x1 : _) (x2 : _) (x3 : _) (x4 : _) (x5 : _) (x6 : _) (x7 : _) : Keeps v q (State.register s x1 x2 x3 x4 x5 x6 x7).1 := by
  unfold State.register
  repeat' first | intro _ | with_reducible assumption | with_reducible exact keeps_of_fst (by assumption) (by assumption) | with_reducible apply keeps_ite | simp only [keeps_upd, keeps_upd_evt, id_eq] | split

theorem keeps_modXfer {s : State} (h : Keeps v q s) (x1 : _) (x2 : _) : Keeps v q (State.modXfer s x1 x2) := by
  unfold State.modXfer
  repeat' first | intro _ | with_reducible assumption | with_reducible exact keeps_of_fst (by assumption) (by assumption) | with_reducible apply keeps_ite | simp only [keeps_upd, keeps_upd_evt, id_eq] | split

theorem keeps_modTable {s : State} (h : Keeps v q s) (x1 : _) (x2 : _) (x3 : _) : Keeps v q (State.modTable s x1 x2 x3) := by
  unfold State.modTable
  repeat' first | intro _ | with_reducible assumption | with_reducible apply keeps_modCtx | with_reducible exact keeps_of_fst (by assumption) (by assumption) | with_reducible apply keeps_ite | simp only [keeps_upd, keeps_upd_evt, id_eq] | split

theorem keeps_startXfer {s : State} (h : Keeps v q s) (x1 : _) (x2 : _) (x3 : _) : Keeps v q (State.startXfer s x1 x2 x3) := by
  unfold State.startXfer
  repeat' first | intro _ | with_reducible assumption | with_reducible apply keeps_modTable | with_reducible exact keeps_of_fst (by assumption) (by assumption) | with_reducible apply keeps_ite | simp only [keeps_upd, keeps_upd_evt, id_eq] | split

theorem keeps_giveTag {s : State} (h : Keeps v q s) (x1 : _) (x2 : _) (x3 : _) (x4 : _) : Keeps v q (State.giveTag s x1 x2 x3 x4) := by
  unfold State.giveTag
  repeat' first | intro _ | with_reducible assumption | with_reducible apply keeps_startXfer | with_reducible apply keeps_markHigh | with_reducible apply keeps_modXfer | with_reducible exact keeps_of_fst (by assumption) (by assumption) | with_reducible apply keeps_ite | simp only [keeps_upd, keeps_upd_evt, id_eq] | split

theorem keeps_takeTag {s : State} (h : Keeps v q s) (x1 : _) (x2 : _) (x3 : _) (x4 : _) : Keeps v q (State.takeTag s x1 x2 x3 x4).1 := by
  unfold State.takeTag
  repeat' first | intro _ | with_reducible assumption | with_reducible apply keeps_giveTag | with_reducible apply keeps_countWait | with_reducible apply keeps_modXfer | with_reducible exact keeps_of_fst (by assumption) (by assumption) | with_reducible apply keeps_ite | simp only [keeps_upd, keeps_upd_evt, id_eq] | split

theorem keeps_issueXfer {s : State} (h : Keeps v q s) (x1 : _) (x2 : _) (x3 : _) (x4 : _) (x5 : _) (x6 : _) (x7 : _) (x8 : _) : Keeps v q (State.issueXfer s x1 x2 x3 x4 x5 x6 x7 x8).1 := by
  unfold State.issueXfer
  repeat' first | intro _ | with_reducible assumption | with_reducible apply keeps_register | with_reducible apply keeps_takeTag | with_reducible exact keeps_of_fst (by assumption) (by assumption) | with_reducible apply keeps_ite | simp only [keeps_upd, keeps_upd_evt, id_eq] | split

theorem keeps_tagGrant {s : State} (h : Keeps v q s) (t : Nat) (st : Stream) (n : Nat) :
    ∀ r, s.tagGrant t st n = some r → Keeps v q r.1 := by
  intro r e
  unfold State.tagGrant at e
  simp only [] at e
  repeat' split at e
  all_goals first
    | (cases e; done)
    | (cases e; exact keeps_giveTag (keeps_modArb h _ _) _ _ _ _)
    | (cases e; exact keeps_giveTag h _ _ _ _)

theorem keeps_consumeAt {s : State} (h : Keeps v q s) (x1 : _) (x2 : _) (x3 : _) (x4 : _) : Keeps v q (State.consumeAt s x1 x2 x3 x4).st := by
  unfold State.consumeAt
  repeat' first | intro _ | with_reducible assumption | with_reducible apply keeps_modXfer | with_reducible exact keeps_of_fst (by assumption) (by assumption) | with_reducible apply keeps_ite | simp only [keeps_upd, keeps_upd_evt, id_eq] | split

theorem keeps_hostFail {s : State} (h : Keeps v q s) (x1 : _) (x2 : _) : Keeps v q (State.hostFail s x1 x2) := by
  unfold State.hostFail
  repeat' first | intro _ | with_reducible assumption | with_reducible apply keeps_logEvent | with_reducible exact keeps_of_fst (by assumption) (by assumption) | with_reducible apply keeps_ite | simp only [keeps_upd, keeps_upd_evt, id_eq] | split

theorem keeps_flagVisible {s : State} (h : Keeps v q s) (x1 : _) (x2 : _) (x3 : _) : Keeps v q (State.flagVisible s x1 x2 x3) := by
  unfold State.flagVisible
  repeat' first | intro _ | with_reducible assumption | with_reducible apply keeps_modFn | with_reducible apply keeps_msix | with_reducible exact keeps_of_fst (by assumption) (by assumption) | with_reducible apply keeps_ite | simp only [keeps_upd, keeps_upd_evt, id_eq] | split

theorem keeps_hostPut {s : State} (h : Keeps v q s) (x1 : _) (x2 : _) (x3 : _) (x4 : _) (x5 : _) : Keeps v q (State.hostPut s x1 x2 x3 x4 x5) := by
  unfold State.hostPut
  repeat' first | intro _ | with_reducible assumption | with_reducible apply keeps_flagVisible | with_reducible apply keeps_send | with_reducible apply keeps_hostFail | with_reducible exact keeps_of_fst (by assumption) (by assumption) | with_reducible apply keeps_ite | simp only [keeps_upd, keeps_upd_evt, id_eq] | split

theorem keeps_unblock {s : State} (h : Keeps v q s) (x1 : _) : Keeps v q (State.unblock s x1) := by
  unfold State.unblock
  repeat' first | intro _ | with_reducible assumption | with_reducible apply keeps_requestMove | with_reducible apply keeps_startFill | with_reducible exact keeps_of_fst (by assumption) (by assumption) | with_reducible apply keeps_ite | simp only [keeps_upd, keeps_upd_evt, id_eq] | split

theorem keeps_markBytes {s : State} (h : Keeps v q s) (x1 : _) (x2 : _) (x3 : _) : Keeps v q (State.markBytes s x1 x2 x3) := by
  unfold State.markBytes
  repeat' first | intro _ | with_reducible assumption | with_reducible apply keeps_foldl | with_reducible apply keeps_foldl_fst | with_reducible apply keeps_markPoison | with_reducible exact keeps_of_fst (by assumption) (by assumption) | with_reducible apply keeps_ite | simp only [keeps_upd, keeps_upd_evt, id_eq] | split

theorem keeps_setHdr {s : State} (h : Keeps v q s) (x1 : _) (x2 : _) : Keeps v q (State.setHdr s x1 x2) := by
  unfold State.setHdr
  repeat' first | intro _ | with_reducible assumption | with_reducible exact keeps_of_fst (by assumption) (by assumption) | with_reducible apply keeps_ite | simp only [keeps_upd, keeps_upd_evt, id_eq] | split

theorem keeps_putSlot {s : State} (h : Keeps v q s) (x1 : _) (x2 : _) (x3 : _) (x4 : _) (x5 : _) : Keeps v q (State.putSlot s x1 x2 x3 x4 x5).st := by
  unfold State.putSlot
  repeat' first | intro _ | with_reducible assumption | with_reducible apply keeps_markBytes | with_reducible apply keeps_wrCa | with_reducible apply keeps_hostPut | with_reducible apply keeps_logDev | with_reducible apply keeps_setHdr | with_reducible exact keeps_of_fst (by assumption) (by assumption) | with_reducible apply keeps_ite | simp only [keeps_upd, keeps_upd_evt, id_eq] | split

theorem keeps_foldl_wrote {α : Type} {f : Wrote → α → Wrote} {l : List α} {w : Wrote} (h : Keeps v q w.st)
    (hf : ∀ w a, Keeps v q w.st → Keeps v q (f w a).st) : Keeps v q (l.foldl f w).st := by
  induction l generalizing w with
  | nil => exact h
  | cons x l ih => exact ih (hf _ _ h)

theorem keeps_putRowCa {s : State} (h : Keeps v q s) (c ca : Nat) (l : List MByte) (full : Nat → Bool) (ok : Bool) :
    Keeps v q (s.putRowCa c ca l full ok).st :=
  keeps_foldl_wrote h fun _ _ hw => keeps_putSlot hw _ _ _ _ _

theorem keeps_wrEngine {s : State} (h : Keeps v q s) (x1 : _) (x2 : _) (x3 : _) : Keeps v q (State.wrEngine s x1 x2 x3) := by
  unfold State.wrEngine
  repeat' first | intro _ | with_reducible assumption | with_reducible apply keeps_foldl | with_reducible apply keeps_foldl_fst | with_reducible apply keeps_wrCa | with_reducible apply keeps_setHdr | with_reducible apply keeps_logDev | with_reducible exact keeps_of_fst (by assumption) (by assumption) | with_reducible apply keeps_ite | simp only [keeps_upd, keeps_upd_evt, id_eq] | split

theorem keeps_putBlock {s : State} (h : Keeps v q s) (x1 : _) (x2 : _) (x3 : _) (x4 : _) (x5 : _) : Keeps v q (State.putBlock s x1 x2 x3 x4 x5).st := by
  unfold State.putBlock
  repeat' first | intro _ | with_reducible assumption | with_reducible apply keeps_zeroFill | with_reducible apply keeps_setHdr | with_reducible apply keeps_markPoison | with_reducible apply keeps_wrPoison | with_reducible apply keeps_wr | with_reducible exact keeps_of_fst (by assumption) (by assumption) | with_reducible apply keeps_ite | simp only [keeps_upd, keeps_upd_evt, id_eq] | split

theorem keeps_logXfer {s : State} (h : Keeps v q s) (x1 : _) (x2 : _) (x3 : _) : Keeps v q (State.logXfer s x1 x2 x3) := by
  unfold State.logXfer
  repeat' first | intro _ | with_reducible assumption | with_reducible apply keeps_logTile | with_reducible exact keeps_of_fst (by assumption) (by assumption) | with_reducible apply keeps_ite | simp only [keeps_upd, keeps_upd_evt, id_eq] | split

theorem keeps_reportXfer {s : State} (h : Keeps v q s) (x1 : _) (x2 : _) (x3 : _) (x4 : _) : Keeps v q (State.reportXfer s x1 x2 x3 x4) := by
  unfold State.reportXfer
  repeat' first | intro _ | with_reducible assumption | with_reducible apply keeps_modStep | with_reducible apply keeps_logXfer | with_reducible exact keeps_of_fst (by assumption) (by assumption) | with_reducible apply keeps_ite | simp only [keeps_upd, keeps_upd_evt, id_eq] | split

theorem keeps_dmaHistogram {s : State} (h : Keeps v q s) (x1 : _) (x2 : _) : Keeps v q (State.dmaHistogram s x1 x2) := by
  unfold State.dmaHistogram
  repeat' first | intro _ | with_reducible assumption | with_reducible apply keeps_foldl | with_reducible apply keeps_foldl_fst | with_reducible apply keeps_modTable | with_reducible exact keeps_of_fst (by assumption) (by assumption) | with_reducible apply keeps_ite | simp only [keeps_upd, keeps_upd_evt, id_eq] | split

theorem keeps_endXfer {s : State} (h : Keeps v q s) (x1 : _) (x2 : _) (x3 : _) (x4 : _) : Keeps v q (State.endXfer s x1 x2 x3 x4) := by
  unfold State.endXfer
  repeat' first | intro _ | with_reducible assumption | with_reducible apply keeps_reportXfer | with_reducible apply keeps_modXfer | with_reducible exact keeps_of_fst (by assumption) (by assumption) | with_reducible apply keeps_ite | simp only [keeps_upd, keeps_upd_evt, id_eq] | split

theorem keeps_foldl_wrote_fst {α β : Type} {f : Wrote × β → α → Wrote × β} {l : List α} {w : Wrote × β} (h : Keeps v q w.1.st)
    (hf : ∀ w a, Keeps v q w.1.st → Keeps v q (f w a).1.st) : Keeps v q (l.foldl f w).1.st := by
  induction l generalizing w with
  | nil => exact h
  | cons x l ih => exact ih (hf _ _ h)

theorem keeps_dmaStore {s : State} (h : Keeps v q s) (f : Xfer) (g : Grist) (rows : List (List MByte)) (ok : Bool) :
    Keeps v q (s.dmaStore f g rows ok).st := by
  unfold State.dmaStore
  simp only []
  split
  · refine keeps_foldl_wrote_fst ?_ fun _ _ hw => ?_
    · exact h
    · exact keeps_putBlock hw _ _ _ _ _
  · refine keeps_foldl_wrote ?_ fun _ _ hw => ?_
    · exact h
    · exact keeps_putRowCa hw _ _ _ _ _

theorem keeps_ledgerRead {s : State} (h : Keeps v q s) (x1 : _) (x2 : _) : Keeps v q (State.ledgerRead s x1 x2) := by
  unfold State.ledgerRead
  repeat' first | intro _ | with_reducible assumption | with_reducible apply keeps_requestAbort | with_reducible exact keeps_of_fst (by assumption) (by assumption) | with_reducible apply keeps_ite | simp only [keeps_upd, keeps_upd_evt, id_eq] | split

theorem keeps_dmaMove {s : State} (h : Keeps v q s) (x1 : _) (x2 : _) (x3 : _) (x4 : _) : Keeps v q (State.dmaMove s x1 x2 x3 x4) := by
  unfold State.dmaMove
  repeat' first | intro _ | with_reducible assumption | with_reducible apply keeps_foldl | with_reducible apply keeps_foldl_fst | with_reducible apply keeps_endXfer | with_reducible apply keeps_unblock | with_reducible apply keeps_send | with_reducible apply keeps_hostFail | with_reducible apply keeps_heatCa | with_reducible apply keeps_ledgerRead | with_reducible apply keeps_modXfer | with_reducible apply keeps_dmaStore | with_reducible apply keeps_dmaHistogram | with_reducible apply keeps_logXfer | with_reducible apply keeps_reportXfer | with_reducible exact keeps_of_fst (by assumption) (by assumption) | with_reducible apply keeps_ite | simp only [keeps_upd, keeps_upd_evt, id_eq] | split

theorem keeps_dmaRun {s : State} (h : Keeps v q s) (x1 : _) (x2 : _) (x3 : _) (x4 : _) : Keeps v q (State.dmaRun s x1 x2 x3 x4) := by
  unfold State.dmaRun
  repeat' first | intro _ | with_reducible assumption | with_reducible apply keeps_dmaMove | with_reducible exact keeps_of_fst (by assumption) (by assumption) | with_reducible apply keeps_ite | simp only [keeps_upd, keeps_upd_evt, id_eq] | split

theorem keeps_dmaIssue {s : State} (h : Keeps v q s) (x1 : _) (x2 : _) (x3 : _) (x4 : _) (x5 : _) : Keeps v q (State.dmaIssue s x1 x2 x3 x4 x5) := by
  unfold State.dmaIssue
  repeat' first | intro _ | with_reducible assumption | with_reducible apply keeps_issueDesc | with_reducible apply keeps_issueXfer | with_reducible exact keeps_of_fst (by assumption) (by assumption) | with_reducible apply keeps_ite | simp only [keeps_upd, keeps_upd_evt, id_eq] | split

theorem keeps_putFlit {s : State} (h : Keeps v q s) (x1 : _) (x2 : _) (x3 : _) (x4 : _) : Keeps v q (State.putFlit s x1 x2 x3 x4) := by
  unfold State.putFlit
  repeat' first | intro _ | with_reducible assumption | with_reducible apply keeps_send | with_reducible apply keeps_modPort | with_reducible exact keeps_of_fst (by assumption) (by assumption) | with_reducible apply keeps_ite | simp only [keeps_upd, keeps_upd_evt, id_eq] | split

theorem keeps_putTransfer {s : State} (h : Keeps v q s) (x1 : _) (x2 : _) (x3 : _) (x4 : _) (x5 : _) : Keeps v q (State.putTransfer s x1 x2 x3 x4 x5) := by
  unfold State.putTransfer
  repeat' first | intro _ | with_reducible assumption | with_reducible apply keeps_foldl | with_reducible apply keeps_foldl_fst | with_reducible apply keeps_putFlit | with_reducible exact keeps_of_fst (by assumption) (by assumption) | with_reducible apply keeps_ite | simp only [keeps_upd, keeps_upd_evt, id_eq] | split

theorem keeps_putControl {s : State} (h : Keeps v q s) (x1 : _) (x2 : _) (x3 : _) (x4 : _) : Keeps v q (State.putControl s x1 x2 x3 x4) := by
  unfold State.putControl
  repeat' first | intro _ | with_reducible assumption | with_reducible apply keeps_putFlit | with_reducible exact keeps_of_fst (by assumption) (by assumption) | with_reducible apply keeps_ite | simp only [keeps_upd, keeps_upd_evt, id_eq] | split

theorem keeps_doLinkNak {s : State} (h : Keeps v q s) (x0 : _) (x1 : _) : Keeps v q (doLinkNak x0 x1 s) := by
  unfold doLinkNak
  repeat' first | intro _ | with_reducible assumption | with_reducible apply keeps_foldl | with_reducible apply keeps_foldl_fst | with_reducible apply keeps_send | with_reducible apply keeps_modPort | with_reducible exact keeps_of_fst (by assumption) (by assumption) | with_reducible apply keeps_ite | simp only [keeps_upd, keeps_upd_evt, id_eq] | split

theorem keeps_linkMove {s : State} (h : Keeps v q s) (x1 : _) (x2 : _) (x3 : _) (x4 : _) : Keeps v q (State.linkMove s x1 x2 x3 x4) := by
  unfold State.linkMove
  repeat' first | intro _ | with_reducible assumption | with_reducible apply keeps_foldl | with_reducible apply keeps_foldl_fst | with_reducible apply keeps_modXfer | with_reducible apply keeps_modPort | with_reducible apply keeps_countWait | with_reducible apply keeps_send | with_reducible apply keeps_hostFail | with_reducible apply keeps_heatCa | with_reducible apply keeps_putTransfer | with_reducible apply keeps_reportXfer | with_reducible apply keeps_markHigh | with_reducible exact keeps_of_fst (by assumption) (by assumption) | with_reducible apply keeps_ite | simp only [keeps_upd, keeps_upd_evt, id_eq] | split

theorem keeps_doNotPosted {s : State} (h : Keeps v q s) (x0 : _) (x1 : _) : Keeps v q (doNotPosted x0 x1 s) := by
  unfold doNotPosted
  repeat' first | intro _ | with_reducible assumption | with_reducible apply keeps_foldl | with_reducible apply keeps_foldl_fst | with_reducible apply keeps_modXfer | with_reducible exact keeps_of_fst (by assumption) (by assumption) | with_reducible apply keeps_ite | simp only [keeps_upd, keeps_upd_evt, id_eq] | split

theorem keeps_scalarTry {s : State} (h : Keeps v q s) (c d : Nat) : ∀ t, s.scalarTry c d = some t → Keeps v q t := by
  intro t e
  unfold State.scalarTry at e
  simp only [] at e
  split at e
  · cases e; exact keeps_upd.2 (keeps_wrClk h _ _)
  · cases e

theorem keeps_reduceRun {s : State} (h : Keeps v q s) (t c : Nat) (st : Stream) (d : Nat) (x : InFlight) :
    Keeps v q (s.reduceRun t c st d x).st := by
  unfold State.reduceRun
  simp only []
  have hp : Keeps v q (if s.poisoned (32 * dfield d 128 32) (4 * scalarCount d) = true then s.metPoison t c st x else (s, x)).1 := by
    split
    · exact keeps_metPoison h _ _ _ _
    · exact h
  split
  · exact keeps_scalarTry (keeps_upd.2 (keeps_foldl hp fun _ _ hb => keeps_putFlit hb _ _ _ _)) _ _ _ (by assumption)
  · exact keeps_upd.2 (keeps_foldl hp fun _ _ hb => keeps_putFlit hb _ _ _ _)

theorem keeps_doScalarReceive {s : State} (h : Keeps v q s) (p c tag n : Nat) (l : List F32) :
    Keeps v q (doScalarReceive p c tag n l s) := by
  unfold doScalarReceive
  simp only []
  split
  · exact h
  · refine keeps_ite h ?_
    split
    · exact keeps_upd.2 h
    · split
      · exact keeps_modSeq (keeps_scalarTry (keeps_upd.2 h) _ _ _ (by assumption)) _ _ _
      · exact keeps_upd.2 h

theorem keeps_postStore {s : State} (h : Keeps v q s) (f : Xfer) (data : List (List MByte)) : Keeps v q (s.postStore f data).st := by
  unfold State.postStore
  simp only []
  refine keeps_foldl_wrote ?_ fun _ _ hw => ?_
  · exact h
  · exact keeps_putRowCa hw _ _ _ _ _

theorem keeps_postMove {s : State} (h : Keeps v q s) (x1 : _) (x2 : _) : Keeps v q (State.postMove s x1 x2) := by
  unfold State.postMove
  repeat' first | intro _ | with_reducible assumption | with_reducible apply keeps_foldl | with_reducible apply keeps_foldl_fst | with_reducible apply keeps_countWait | with_reducible apply keeps_modXfer | with_reducible apply keeps_unblock | with_reducible apply keeps_modPort | with_reducible apply keeps_postStore | with_reducible apply keeps_heatCa | with_reducible apply keeps_logXfer | with_reducible apply keeps_endXfer | with_reducible apply keeps_reportXfer | with_reducible exact keeps_of_fst (by assumption) (by assumption) | with_reducible apply keeps_ite | simp only [keeps_upd, keeps_upd_evt, id_eq] | split

theorem keeps_keepFlit {s : State} (h : Keeps v q s) (x1 : _) (x2 : _) : Keeps v q (State.keepFlit s x1 x2) := by
  unfold State.keepFlit
  repeat' first | intro _ | with_reducible assumption | with_reducible apply keeps_modPort | with_reducible exact keeps_of_fst (by assumption) (by assumption) | with_reducible apply keeps_ite | simp only [keeps_upd, keeps_upd_evt, id_eq] | split

theorem keeps_dataFlit {s : State} (h : Keeps v q s) (x1 : _) (x2 : _) : Keeps v q (State.dataFlit s x1 x2) := by
  unfold State.dataFlit
  repeat' first | intro _ | with_reducible assumption | with_reducible apply keeps_send | with_reducible apply keeps_modPort | with_reducible apply keeps_keepFlit | with_reducible apply keeps_modXfer | with_reducible apply keeps_progFault | with_reducible exact keeps_of_fst (by assumption) (by assumption) | with_reducible apply keeps_ite | simp only [keeps_upd, keeps_upd_evt, id_eq] | split

theorem keeps_ledgerFlit {s : State} (h : Keeps v q s) (x1 : _) (x2 : _) : Keeps v q (State.ledgerFlit s x1 x2) := by
  unfold State.ledgerFlit
  repeat' first | intro _ | with_reducible assumption | with_reducible apply keeps_keepFlit | with_reducible apply keeps_modPort | with_reducible exact keeps_of_fst (by assumption) (by assumption) | with_reducible apply keeps_ite | simp only [keeps_upd, keeps_upd_evt, id_eq] | split

theorem keeps_controlFlit {s : State} (h : Keeps v q s) (x1 : _) : Keeps v q (State.controlFlit s x1) := by
  unfold State.controlFlit
  repeat' first | intro _ | with_reducible assumption | with_reducible exact keeps_of_fst (by assumption) (by assumption) | with_reducible apply keeps_ite | simp only [keeps_upd, keeps_upd_evt, id_eq] | split

theorem keeps_takeoverFlit {s : State} (h : Keeps v q s) (x1 : _) : Keeps v q (State.takeoverFlit s x1) := by
  unfold State.takeoverFlit
  repeat' first | intro _ | with_reducible assumption | with_reducible apply keeps_wrCa | with_reducible apply keeps_wrEngine | with_reducible exact keeps_of_fst (by assumption) (by assumption) | with_reducible apply keeps_ite | simp only [keeps_upd, keeps_upd_evt, id_eq] | split

theorem keeps_doFlitReceive {s : State} (h : Keeps v q s) (x0 : _) (x1 : _) : Keeps v q (doFlitReceive x0 x1 s) := by
  unfold doFlitReceive
  repeat' first | intro _ | with_reducible assumption | with_reducible apply keeps_send | with_reducible apply keeps_modPort | with_reducible apply keeps_dataFlit | with_reducible apply keeps_ledgerFlit | with_reducible apply keeps_controlFlit | with_reducible apply keeps_takeoverFlit | with_reducible exact keeps_of_fst (by assumption) (by assumption) | with_reducible apply keeps_ite | simp only [keeps_upd, keeps_upd_evt, id_eq] | split

theorem keeps_putShadow {s : State} (h : Keeps v q s) (x1 : _) (x2 : _) : Keeps v q (State.putShadow s x1 x2) := by
  unfold State.putShadow
  repeat' first | intro _ | with_reducible assumption | with_reducible exact keeps_of_fst (by assumption) (by assumption) | with_reducible apply keeps_ite | simp only [keeps_upd, keeps_upd_evt, id_eq] | split

theorem keeps_setShadow {s : State} (h : Keeps v q s) (x1 : _) (x2 : _) : Keeps v q (State.setShadow s x1 x2) := by
  unfold State.setShadow
  repeat' first | intro _ | with_reducible assumption | with_reducible exact keeps_of_fst (by assumption) (by assumption) | with_reducible apply keeps_ite | simp only [keeps_upd, keeps_upd_evt, id_eq] | split

theorem keeps_shadowTake {s : State} (h : Keeps v q s) : Keeps v q (State.shadowTake s) := by
  unfold State.shadowTake
  repeat' first | intro _ | with_reducible assumption | with_reducible exact keeps_of_fst (by assumption) (by assumption) | with_reducible apply keeps_ite | simp only [keeps_upd, keeps_upd_evt, id_eq] | split

theorem keeps_applyGroup {s : State} (h : Keeps v q s) (x1 : _) : Keeps v q (State.applyGroup s x1) := by
  unfold State.applyGroup
  repeat' first | intro _ | with_reducible assumption | with_reducible apply keeps_foldl | with_reducible apply keeps_foldl_fst | with_reducible exact keeps_of_fst (by assumption) (by assumption) | with_reducible apply keeps_ite | simp only [keeps_upd, keeps_upd_evt, id_eq] | split

theorem keeps_keepRef {s : State} (h : Keeps v q s) (x1 : _) : Keeps v q (State.keepRef s x1) := by
  unfold State.keepRef
  repeat' first | intro _ | with_reducible assumption | with_reducible apply keeps_rwiSet | with_reducible exact keeps_of_fst (by assumption) (by assumption) | with_reducible apply keeps_ite | simp only [keeps_upd, keeps_upd_evt, id_eq] | split

theorem keeps_applyGroups {s : State} (h : Keeps v q s) (x1 : _) (x2 : _) : Keeps v q (State.applyGroups s x1 x2) := by
  unfold State.applyGroups
  repeat' first | intro _ | with_reducible assumption | with_reducible apply keeps_foldl | with_reducible apply keeps_foldl_fst | with_reducible apply keeps_applyGroup | with_reducible exact keeps_of_fst (by assumption) (by assumption) | with_reducible apply keeps_ite | simp only [keeps_upd, keeps_upd_evt, id_eq] | split

theorem keeps_maltsterSet {s : State} (h : Keeps v q s) (x1 : _) : Keeps v q (State.maltsterSet s x1) := by
  unfold State.maltsterSet
  repeat' first | intro _ | with_reducible assumption | with_reducible apply keeps_foldl | with_reducible apply keeps_foldl_fst | with_reducible apply keeps_setShadow | with_reducible apply keeps_keepRef | with_reducible apply keeps_applyGroups | with_reducible exact keeps_of_fst (by assumption) (by assumption) | with_reducible apply keeps_ite | simp only [keeps_upd, keeps_upd_evt, id_eq] | split

theorem keeps_doCfgStrobe {s : State} (h : Keeps v q s) (x0 : _) : Keeps v q (doCfgStrobe x0 s) := by
  unfold doCfgStrobe
  repeat' first | intro _ | with_reducible assumption | with_reducible exact keeps_of_fst (by assumption) (by assumption) | with_reducible apply keeps_ite | simp only [keeps_upd, keeps_upd_evt, id_eq] | split

theorem keeps_arm {s : State} (h : Keeps v q s) (x1 : _) (x2 : _) (x3 : _) : Keeps v q (State.arm s x1 x2 x3) := by
  unfold State.arm
  repeat' first | intro _ | with_reducible assumption | with_reducible exact keeps_of_fst (by assumption) (by assumption) | with_reducible apply keeps_ite | simp only [keeps_upd, keeps_upd_evt, id_eq] | split

theorem keeps_doCfgStrobeAt {s : State} (h : Keeps v q s) (x0 : _) (x1 : _) : Keeps v q (doCfgStrobeAt x0 x1 s) := by
  unfold doCfgStrobeAt
  repeat' first | intro _ | with_reducible assumption | with_reducible apply keeps_arm | with_reducible exact keeps_of_fst (by assumption) (by assumption) | with_reducible apply keeps_ite | simp only [keeps_upd, keeps_upd_evt, id_eq] | split

theorem keeps_armDue {s : State} (h : Keeps v q s) : Keeps v q (State.armDue s) := by
  unfold State.armDue
  repeat' first | intro _ | with_reducible assumption | with_reducible apply keeps_foldl | with_reducible apply keeps_foldl_fst | with_reducible exact keeps_of_fst (by assumption) (by assumption) | with_reducible apply keeps_ite | simp only [keeps_upd, keeps_upd_evt, id_eq] | split

theorem keeps_doStrobeAtApply {s : State} (h : Keeps v q s) : Keeps v q (doStrobeAtApply s) := by
  unfold doStrobeAtApply
  repeat' first | intro _ | with_reducible assumption | with_reducible apply keeps_foldl | with_reducible apply keeps_foldl_fst | with_reducible apply keeps_applyGroups | with_reducible apply keeps_keepRef | with_reducible exact keeps_of_fst (by assumption) (by assumption) | with_reducible apply keeps_ite | simp only [keeps_upd, keeps_upd_evt, id_eq] | split

theorem keeps_draw {s : State} (h : Keeps v q s) (x1 : _) (x2 : _) (x3 : _) : Keeps v q (State.draw s x1 x2 x3) := by
  unfold State.draw
  repeat' first | intro _ | with_reducible assumption | with_reducible apply keeps_modArb | with_reducible exact keeps_of_fst (by assumption) (by assumption) | with_reducible apply keeps_ite | simp only [keeps_upd, keeps_upd_evt, id_eq] | split

theorem keeps_portDraw {s : State} (h : Keeps v q s) (x1 : _) (x2 : _) (x3 : _) : Keeps v q (State.portDraw s x1 x2 x3) := by
  unfold State.portDraw
  repeat' first | intro _ | with_reducible assumption | with_reducible apply keeps_modArb | with_reducible apply keeps_draw | with_reducible exact keeps_of_fst (by assumption) (by assumption) | with_reducible apply keeps_ite | simp only [keeps_upd, keeps_upd_evt, id_eq] | split

theorem keeps_withdraw {s : State} (h : Keeps v q s) (x1 : _) : Keeps v q (State.withdraw s x1) := by
  unfold State.withdraw
  repeat' first | intro _ | with_reducible assumption | with_reducible exact keeps_of_fst (by assumption) (by assumption) | with_reducible apply keeps_ite | simp only [keeps_upd, keeps_upd_evt, id_eq] | split

theorem keeps_doArbPreempt {s : State} (h : Keeps v q s) (x0 : _) (x1 : _) : Keeps v q (doArbPreempt x0 x1 s) := by
  unfold doArbPreempt
  repeat' first | intro _ | with_reducible assumption | with_reducible apply keeps_draw | with_reducible apply keeps_modArb | with_reducible exact keeps_of_fst (by assumption) (by assumption) | with_reducible apply keeps_ite | simp only [keeps_upd, keeps_upd_evt, id_eq] | split

theorem keeps_compareGroup {s : State} (h : Keeps v q s) (f : State → State) (n : Nat) (hf : ∀ s, Keeps v q s → Keeps v q (f s)) :
    Keeps v q (compareGroup f s n) := by
  unfold compareGroup
  simp only []
  refine keeps_ite (keeps_upd.2 h) ?_
  refine keeps_ite (hf _ ?_) ?_ <;>
    refine keeps_ite (keeps_abortAll ?_ _ _) ?_ <;>
    exact keeps_ite (keeps_logEvent (keeps_upd.2 (keeps_upd.2 h)) _ _ _ _ _ _ _) (keeps_upd.2 h)

theorem keeps_joinDraw {s : State} (h : Keeps v q s) (x1 : _) (x2 : _) (x3 : _) : Keeps v q (State.joinDraw s x1 x2 x3) := by
  unfold State.joinDraw
  repeat' first | intro _ | with_reducible assumption | with_reducible apply keeps_modArb | with_reducible exact keeps_of_fst (by assumption) (by assumption) | with_reducible apply keeps_ite | simp only [keeps_upd, keeps_upd_evt, id_eq] | split

theorem keeps_handReg {s : State} (h : Keeps v q s) (x1 : _) (x2 : _) (x3 : _) (x4 : _) (x5 : _) : Keeps v q (State.handReg s x1 x2 x3 x4 x5).1 := by
  unfold State.handReg
  repeat' first | intro _ | with_reducible assumption | with_reducible apply keeps_register | with_reducible exact keeps_of_fst (by assumption) (by assumption) | with_reducible apply keeps_ite | simp only [keeps_upd, keeps_upd_evt, id_eq] | split

theorem keeps_meWork {s : State} (h : Keeps v q s) (x1 : _) (x2 : _) (x3 : _) (x4 : _) : Keeps v q (State.meWork s x1 x2 x3 x4).1 := by
  unfold State.meWork
  repeat' first | intro _ | with_reducible assumption | with_reducible apply keeps_runMm | with_reducible exact keeps_of_fst (by assumption) (by assumption) | with_reducible apply keeps_ite | simp only [keeps_upd, keeps_upd_evt, id_eq] | split

theorem keeps_vcWork {s : State} (h : Keeps v q s) (x1 : _) (x2 : _) (x3 : _) (x4 : _) : Keeps v q (State.vcWork s x1 x2 x3 x4).1 := by
  unfold State.vcWork
  repeat' first | intro _ | with_reducible assumption | with_reducible apply keeps_runChain | with_reducible apply keeps_takeTag | with_reducible exact keeps_of_fst (by assumption) (by assumption) | with_reducible apply keeps_ite | simp only [keeps_upd, keeps_upd_evt, id_eq] | split

theorem keeps_zeroWork {s : State} (h : Keeps v q s) (x1 : _) (x2 : _) : Keeps v q (State.zeroWork s x1 x2).1 := by
  unfold State.zeroWork
  repeat' first | intro _ | with_reducible assumption | with_reducible apply keeps_modTile | with_reducible exact keeps_of_fst (by assumption) (by assumption) | with_reducible apply keeps_ite | simp only [keeps_upd, keeps_upd_evt, id_eq] | split

theorem keeps_doWork {s : State} (h : Keeps v q s) (t : Nat) (st : Stream) (x : InFlight) (f : State → State × InFlight)
    (hf : ∀ s, Keeps v q s → Keeps v q (f s).1) : Keeps v q (s.doWork t st x f) := by
  unfold State.doWork
  exact keeps_modSeq (keeps_afterAll h (hf _ (keeps_asBefore h)) _) _ _ _

theorem keeps_granted {s : State} (h : Keeps v q s) (x1 : _) (x2 : _) (x3 : _) : Keeps v q (State.granted s x1 x2 x3) := by
  unfold State.granted
  repeat' first | intro _ | with_reducible assumption | with_reducible apply keeps_modArb | with_reducible apply keeps_doWork | with_reducible apply keeps_meWork | with_reducible apply keeps_vcWork | with_reducible apply keeps_modSeq | with_reducible exact keeps_of_fst (by assumption) (by assumption) | with_reducible apply keeps_ite | simp only [keeps_upd, keeps_upd_evt, id_eq] | split

theorem keeps_serveUnit {s : State} (h : Keeps v q s) (x1 : _) (x2 : _) : Keeps v q (State.serveUnit s x1 x2) := by
  unfold State.serveUnit
  repeat' first | intro _ | with_reducible assumption | with_reducible apply keeps_draw | with_reducible apply keeps_granted | with_reducible exact keeps_of_fst (by assumption) (by assumption) | with_reducible apply keeps_ite | simp only [keeps_upd, keeps_upd_evt, id_eq] | split

theorem keeps_serveBank {s : State} (h : Keeps v q s) (x1 : _) (x2 : _) : Keeps v q (State.serveBank s x1 x2) := by
  unfold State.serveBank
  repeat' first | intro _ | with_reducible assumption | with_reducible apply keeps_doWork | with_reducible apply keeps_zeroWork | with_reducible apply keeps_modSeq | with_reducible exact keeps_of_fst (by assumption) (by assumption) | with_reducible apply keeps_ite | simp only [keeps_upd, keeps_upd_evt, id_eq] | split

theorem keeps_settle {s : State} (h : Keeps v q s) (x1 : _) : Keeps v q (State.settle s x1) := by
  unfold State.settle
  repeat' first | intro _ | with_reducible assumption | with_reducible apply keeps_serveUnit | with_reducible apply keeps_serveBank | with_reducible exact keeps_of_fst (by assumption) (by assumption) | with_reducible apply keeps_ite | simp only [keeps_upd, keeps_upd_evt, id_eq] | split

theorem keeps_endGrants {s : State} (h : Keeps v q s) (x1 : _) (x2 : _) (x3 : _) : Keeps v q (State.endGrants s x1 x2 x3) := by
  unfold State.endGrants
  repeat' first | intro _ | with_reducible assumption | with_reducible apply keeps_modArb | with_reducible exact keeps_of_fst (by assumption) (by assumption) | with_reducible apply keeps_ite | simp only [keeps_upd, keeps_upd_evt, id_eq] | split

theorem keeps_unitDraw {s : State} (h : Keeps v q s) (x1 : _) (x2 : _) (x3 : _) : Keeps v q (State.unitDraw s x1 x2 x3) := by
  unfold State.unitDraw
  repeat' first | intro _ | with_reducible assumption | with_reducible apply keeps_settle | with_reducible apply keeps_modArb | with_reducible exact keeps_of_fst (by assumption) (by assumption) | with_reducible apply keeps_ite | simp only [keeps_upd, keeps_upd_evt, id_eq] | split

theorem keeps_ask {s : State} (h : Keeps v q s) (x1 : _) (x2 : _) (x3 : _) (x4 : _) : Keeps v q (State.ask s x1 x2 x3 x4).st := by
  unfold State.ask
  repeat' first | intro _ | with_reducible assumption | with_reducible apply keeps_joinDraw | with_reducible exact keeps_of_fst (by assumption) (by assumption) | with_reducible apply keeps_ite | simp only [keeps_upd, keeps_upd_evt, id_eq] | split

theorem keeps_mmIssue {s : State} (h : Keeps v q s) (x1 : _) (x2 : _) (x3 : _) (x4 : _) : Keeps v q (State.mmIssue s x1 x2 x3 x4) := by
  unfold State.mmIssue
  repeat' first | intro _ | with_reducible assumption | with_reducible apply keeps_settle | with_reducible apply keeps_issueDesc | with_reducible apply keeps_ask | with_reducible exact keeps_of_fst (by assumption) (by assumption) | with_reducible apply keeps_ite | simp only [keeps_upd, keeps_upd_evt, id_eq] | split

theorem keeps_chainAsk {s : State} (h : Keeps v q s) (x1 : _) (x2 : _) (x3 : _) (x4 : _) (x5 : _) (x6 : _) : Keeps v q (State.chainAsk s x1 x2 x3 x4 x5 x6).st := by
  unfold State.chainAsk
  repeat' first | intro _ | with_reducible assumption | with_reducible apply keeps_ask | with_reducible apply keeps_handReg | with_reducible exact keeps_of_fst (by assumption) (by assumption) | with_reducible apply keeps_ite | simp only [keeps_upd, keeps_upd_evt, id_eq] | split

theorem keeps_dmaGrant {s : State} (h : Keeps v q s) (x1 : _) (x2 : _) : Keeps v q (State.dmaGrant s x1 x2) := by
  unfold State.dmaGrant
  repeat' first | intro _ | with_reducible assumption | with_reducible apply keeps_markHigh | with_reducible apply keeps_modXfer | with_reducible apply keeps_countWait | with_reducible exact keeps_of_fst (by assumption) (by assumption) | with_reducible apply keeps_ite | simp only [keeps_upd, keeps_upd_evt, id_eq] | split

theorem keeps_dmaDraw {s : State} (h : Keeps v q s) (x1 : _) (x2 : _) : Keeps v q (State.dmaDraw s x1 x2) := by
  unfold State.dmaDraw
  repeat' first | intro _ | with_reducible assumption | with_reducible apply keeps_modArb | with_reducible apply keeps_draw | with_reducible apply keeps_dmaGrant | with_reducible exact keeps_of_fst (by assumption) (by assumption) | with_reducible apply keeps_ite | simp only [keeps_upd, keeps_upd_evt, id_eq] | split

theorem keeps_doArbDraw {s : State} (h : Keeps v q s) (x0 : _) (x1 : _) (x2 : _) : Keeps v q (doArbDraw x0 x1 x2 s) := by
  unfold doArbDraw
  repeat' first | intro _ | with_reducible assumption | with_reducible apply keeps_portDraw | with_reducible apply keeps_dmaDraw | with_reducible apply keeps_unitDraw | with_reducible exact keeps_of_fst (by assumption) (by assumption) | with_reducible apply keeps_ite | simp only [keeps_upd, keeps_upd_evt, id_eq] | split

theorem keeps_reply {s : State} (h : Keeps v q s) (x1 : _) (x2 : _) (x3 : _) (x4 : _) (x5 : _) : Keeps v q (State.reply s x1 x2 x3 x4 x5) := by
  unfold State.reply
  repeat' first | intro _ | with_reducible assumption | with_reducible apply keeps_send | with_reducible apply keeps_msix | with_reducible apply keeps_modFn | with_reducible exact keeps_of_fst (by assumption) (by assumption) | with_reducible apply keeps_ite | simp only [keeps_upd, keeps_upd_evt, id_eq] | split

theorem keeps_doneEntry {s : State} (h : Keeps v q s) (x1 : _) (x2 : _) (x3 : _) (x4 : _) : Keeps v q (State.doneEntry s x1 x2 x3 x4) := by
  unfold State.doneEntry
  repeat' first | intro _ | with_reducible assumption | with_reducible apply keeps_modFn | with_reducible apply keeps_logEvent | with_reducible exact keeps_of_fst (by assumption) (by assumption) | with_reducible apply keeps_ite | simp only [keeps_upd, keeps_upd_evt, id_eq] | split

theorem keeps_lateReply {s : State} (h : Keeps v q s) (x1 : _) (x2 : _) (x3 : _) : Keeps v q (State.lateReply s x1 x2 x3) := by
  unfold State.lateReply
  repeat' first | intro _ | with_reducible assumption | with_reducible apply keeps_reply | with_reducible exact keeps_of_fst (by assumption) (by assumption) | with_reducible apply keeps_ite | simp only [keeps_upd, keeps_upd_evt, id_eq] | split

theorem keeps_freeCkpt {s : State} (h : Keeps v q s) (x1 : _) (x2 : _) : Keeps v q (State.freeCkpt s x1 x2) := by
  unfold State.freeCkpt
  repeat' first | intro _ | with_reducible assumption | with_reducible apply keeps_foldl | with_reducible apply keeps_foldl_fst | with_reducible exact keeps_of_fst (by assumption) (by assumption) | with_reducible apply keeps_ite | simp only [keeps_upd, keeps_upd_evt, id_eq] | split

theorem keeps_endDetached {s : State} (h : Keeps v q s) (x1 : _) : Keeps v q (State.endDetached s x1) := by
  unfold State.endDetached
  repeat' first | intro _ | with_reducible assumption | with_reducible apply keeps_foldl | with_reducible apply keeps_foldl_fst | with_reducible apply keeps_freeCkpt | with_reducible apply keeps_doneEntry | with_reducible exact keeps_of_fst (by assumption) (by assumption) | with_reducible apply keeps_ite | simp only [keeps_upd, keeps_upd_evt, id_eq] | split

theorem keeps_accept {s : State} (h : Keeps v q s) (x1 : _) (x2 : _) : Keeps v q (State.accept s x1 x2) := by
  unfold State.accept
  repeat' first | intro _ | with_reducible assumption | with_reducible apply keeps_modFn | with_reducible exact keeps_of_fst (by assumption) (by assumption) | with_reducible apply keeps_ite | simp only [keeps_upd, keeps_upd_evt, id_eq] | split

theorem keeps_lostPost {s : State} (h : Keeps v q s) (x1 : _) : Keeps v q (State.lostPost s x1) := by
  unfold State.lostPost
  repeat' first | intro _ | with_reducible assumption | with_reducible apply keeps_modFn | with_reducible exact keeps_of_fst (by assumption) (by assumption) | with_reducible apply keeps_ite | simp only [keeps_upd, keeps_upd_evt, id_eq] | split

theorem keeps_answer {s : State} (h : Keeps v q s) (x1 : _) (x2 : _) (x3 : _) : Keeps v q (State.answer s x1 x2 x3) := by
  unfold State.answer
  repeat' first | intro _ | with_reducible assumption | with_reducible apply keeps_reply | with_reducible apply keeps_modFn | with_reducible exact keeps_of_fst (by assumption) (by assumption) | with_reducible apply keeps_ite | simp only [keeps_upd, keeps_upd_evt, id_eq] | split

theorem keeps_serve {s : State} (h : Keeps v q s) (x : ReqHdr) (i : CmdInfo) (fs st : List (Option Nat))
    (act : State → State × Ans) (after : State → State) (ha : ∀ s, Keeps v q s → Keeps v q (act s).1)
    (hf : ∀ s, Keeps v q s → Keeps v q (after s)) : Keeps v q (s.serve x i fs st act after) := by
  unfold State.serve
  simp only []
  split
  · exact keeps_reply h _ _ _ _ _
  · refine keeps_ite (hf _ ?_) ?_ <;> exact keeps_answer (ha _ h) _ _ _

theorem keeps_mgmtCommand {s : State} (h : Keeps v q s) (x : ReqHdr) (i : CmdInfo) (fs st : List (Option Nat))
    (act : State → State × Ans) (after : State → State) (ha : ∀ s, Keeps v q s → Keeps v q (act s).1)
    (hf : ∀ s, Keeps v q s → Keeps v q (after s)) : Keeps v q (s.mgmtCommand x i fs st act after) := by
  unfold State.mgmtCommand
  simp only []
  refine keeps_ite (keeps_reply h _ _ _ _ _) ?_
  have h1 : Keeps v q (if (s.fn 16).mgmt.isSome then s.modFn 16 (fun x => { x with mgmt := none }) else s) := keeps_ite (keeps_modFn h _ _) h
  exact keeps_ite (keeps_reply (keeps_logEvent h1 _ _ _ _ _ _ _) _ _ _ _ _) (keeps_ite (keeps_reply h1 _ _ _ _ _)
    (keeps_ite (keeps_modFn h1 _ _) (keeps_serve h1 _ _ _ _ _ _ ha hf)))

theorem keeps_command {s : State} (h : Keeps v q s) (x : ReqHdr) (i : CmdInfo) (fs st : List (Option Nat))
    (act : State → State × Ans) (after : State → State) (ha : ∀ s, Keeps v q s → Keeps v q (act s).1)
    (hf : ∀ s, Keeps v q s → Keeps v q (after s)) : Keeps v q (s.command x i fs st act after) := by
  unfold State.command
  split
  · exact keeps_mgmtCommand h _ _ _ _ _ _ ha hf
  · refine keeps_ite h ?_
    split
    · exact keeps_lostPost h _
    · refine keeps_ite (keeps_lostPost h _) (keeps_ite (keeps_serve h _ _ _ _ _ _ ha hf) h)
    · simp only []
      refine keeps_ite (keeps_serve (keeps_accept h _ _) _ _ _ _ _ _ ha hf) ?_
      exact keeps_modFn (keeps_accept h _ _) _ _

theorem keeps_setLed {s : State} (h : Keeps v q s) (x1 : _) (x2 : _) (x3 : _) (x4 : _) : Keeps v q (State.setLed s x1 x2 x3 x4) := by
  unfold State.setLed
  repeat' first | intro _ | with_reducible assumption | with_reducible apply keeps_wrCa | with_reducible exact keeps_of_fst (by assumption) (by assumption) | with_reducible apply keeps_ite | simp only [keeps_upd, keeps_upd_evt, id_eq] | split

theorem keeps_setLedState {s : State} (h : Keeps v q s) (x1 : _) (x2 : _) (x3 : _) (x4 : _) : Keeps v q (State.setLedState s x1 x2 x3 x4) := by
  unfold State.setLedState
  repeat' first | intro _ | with_reducible assumption | with_reducible apply keeps_setLed | with_reducible exact keeps_of_fst (by assumption) (by assumption) | with_reducible apply keeps_ite | simp only [keeps_upd, keeps_upd_evt, id_eq] | split

theorem keeps_sendMirror {s : State} (h : Keeps v q s) (x1 : _) (x2 : _) (x3 : _) : Keeps v q (State.sendMirror s x1 x2 x3) := by
  unfold State.sendMirror
  repeat' first | intro _ | with_reducible assumption | with_reducible apply keeps_putTransfer | with_reducible exact keeps_of_fst (by assumption) (by assumption) | with_reducible apply keeps_ite | simp only [keeps_upd, keeps_upd_evt, id_eq] | split

theorem keeps_sendUpdate {s : State} (h : Keeps v q s) (x1 : _) (x2 : _) (x3 : _) : Keeps v q (State.sendUpdate s x1 x2 x3) := by
  unfold State.sendUpdate
  repeat' first | intro _ | with_reducible assumption | with_reducible apply keeps_putControl | with_reducible exact keeps_of_fst (by assumption) (by assumption) | with_reducible apply keeps_ite | simp only [keeps_upd, keeps_upd_evt, id_eq] | split

theorem keeps_completeSlice {s : State} (h : Keeps v q s) (x1 : _) (x2 : _) (x3 : _) : Keeps v q (State.completeSlice s x1 x2 x3) := by
  unfold State.completeSlice
  repeat' first | intro _ | with_reducible assumption | with_reducible apply keeps_setLedState | with_reducible apply keeps_sendMirror | with_reducible exact keeps_of_fst (by assumption) (by assumption) | with_reducible apply keeps_ite | simp only [keeps_upd, keeps_upd_evt, id_eq] | split

theorem keeps_dropContrib {s : State} (h : Keeps v q s) (x1 : _) : Keeps v q (State.dropContrib s x1) := by
  unfold State.dropContrib
  repeat' first | intro _ | with_reducible assumption | with_reducible exact keeps_of_fst (by assumption) (by assumption) | with_reducible apply keeps_ite | simp only [keeps_upd, keeps_upd_evt, id_eq] | split

theorem keeps_contribDone {s : State} (h : Keeps v q s) (x1 : _) (x2 : _) : Keeps v q (State.contribDone s x1 x2) := by
  unfold State.contribDone
  repeat' first | intro _ | with_reducible assumption | with_reducible apply keeps_modXfer | with_reducible exact keeps_of_fst (by assumption) (by assumption) | with_reducible apply keeps_ite | simp only [keeps_upd, keeps_upd_evt, id_eq] | split

theorem keeps_ledgerPoison {s : State} (h : Keeps v q s) (x1 : _) (x2 : _) (x3 : _) (x4 : _) : Keeps v q (State.ledgerPoison s x1 x2 x3 x4) := by
  unfold State.ledgerPoison
  repeat' first | intro _ | with_reducible assumption | with_reducible apply keeps_requestAbort | with_reducible apply keeps_logDev | with_reducible exact keeps_of_fst (by assumption) (by assumption) | with_reducible apply keeps_ite | simp only [keeps_upd, keeps_upd_evt, id_eq] | split

theorem keeps_combine {s : State} (h : Keeps v q s) (x1 : _) : Keeps v q (State.combine s x1) := by
  unfold State.combine
  repeat' first | intro _ | with_reducible assumption | with_reducible apply keeps_ledgerPoison | with_reducible apply keeps_contribDone | with_reducible apply keeps_dropContrib | with_reducible apply keeps_wrEngine | with_reducible apply keeps_heatCa | with_reducible apply keeps_setLed | with_reducible apply keeps_completeSlice | with_reducible exact keeps_of_fst (by assumption) (by assumption) | with_reducible apply keeps_ite | simp only [keeps_upd, keeps_upd_evt, id_eq] | split

theorem keeps_combineStaged {s : State} (h : Keeps v q s) (n c k step : Nat) : Keeps v q (combineStaged n c k step s) := by
  induction n generalizing s with
  | zero => exact h
  | succ n ih =>
    unfold combineStaged
    split
    · exact h
    · split
      · exact h
      · exact ih (keeps_combine (keeps_upd.2 h) _)

theorem keeps_doLedgerContribution {s : State} (h : Keeps v q s) (x0 : _) (x1 : _) (x2 : _) : Keeps v q (doLedgerContribution x0 x1 x2 s) := by
  unfold doLedgerContribution
  repeat' first | intro _ | with_reducible assumption | with_reducible apply keeps_foldl | with_reducible apply keeps_foldl_fst | with_reducible apply keeps_ledgerPoison | with_reducible apply keeps_contribDone | with_reducible apply keeps_dropContrib | with_reducible apply keeps_requestAbort | with_reducible apply keeps_logDev | with_reducible apply keeps_unblock | with_reducible apply keeps_setLed | with_reducible apply keeps_combineStaged | with_reducible apply keeps_combine | with_reducible apply keeps_modStep | with_reducible apply keeps_modCtx | with_reducible exact keeps_of_fst (by assumption) (by assumption) | with_reducible apply keeps_ite | simp only [keeps_upd, keeps_upd_evt, id_eq] | split

theorem keeps_modUpd {s : State} (h : Keeps v q s) (x1 : _) (x2 : _) : Keeps v q (State.modUpd s x1 x2) := by
  unfold State.modUpd
  repeat' first | intro _ | with_reducible assumption | with_reducible exact keeps_of_fst (by assumption) (by assumption) | with_reducible apply keeps_ite | simp only [keeps_upd, keeps_upd_evt, id_eq] | split

theorem keeps_pinFor {s : State} (h : Keeps v q s) (x1 : _) (x2 : _) : Keeps v q (State.pinFor s x1 x2) := by
  unfold State.pinFor
  repeat' first | intro _ | with_reducible assumption | with_reducible apply keeps_modUpd | with_reducible apply keeps_modPent | with_reducible exact keeps_of_fst (by assumption) (by assumption) | with_reducible apply keeps_ite | simp only [keeps_upd, keeps_upd_evt, id_eq] | split

theorem keeps_updDone {s : State} (h : Keeps v q s) (x1 : _) (x2 : _) (x3 : _) : Keeps v q (State.updDone s x1 x2 x3) := by
  unfold State.updDone
  repeat' first | intro _ | with_reducible assumption | with_reducible apply keeps_modXfer | with_reducible exact keeps_of_fst (by assumption) (by assumption) | with_reducible apply keeps_ite | simp only [keeps_upd, keeps_upd_evt, id_eq] | split

theorem keeps_updResolve {s : State} (h : Keeps v q s) (u : Upd) : ∀ t, s.updResolve u = some t → Keeps v q t := by
  intro t e
  unfold State.updResolve at e
  simp only [] at e
  split at e
  · cases e
  · split at e
    · cases e
      exact keeps_foldl (keeps_modUpd h _ _) fun _ _ hb => keeps_pinFor hb _ _
    · split at e
      · cases e
      · cases e
        refine keeps_updDone (keeps_ite (keeps_setLedState ?_ _ _ _ _) ?_) _ _ _ <;>
          exact keeps_modCtx (keeps_foldl (keeps_foldl (keeps_wrCa (keeps_modUpd h _ _) _ _ _ _) fun _ _ hb => keeps_pinFor hb _ _)
            fun _ _ hb => keeps_requestMove hb _ _ _ _ _) _ _

theorem keeps_logDeferFull {s : State} (h : Keeps v q s) (x1 : _) (x2 : _) : Keeps v q (State.logDeferFull s x1 x2) := by
  unfold State.logDeferFull
  repeat' first | intro _ | with_reducible assumption | with_reducible apply keeps_modStep | with_reducible apply keeps_logDev | with_reducible exact keeps_of_fst (by assumption) (by assumption) | with_reducible apply keeps_ite | simp only [keeps_upd, keeps_upd_evt, id_eq] | split

theorem keeps_updGo {s : State} (h : Keeps v q s) (u : Upd) : Keeps v q (s.updGo u).1 := by
  unfold State.updGo
  simp only []
  split
  · exact keeps_updResolve (keeps_modStep h _ _) _ _ (by assumption)
  · exact keeps_logDeferFull (keeps_modUpd (keeps_modStep h _ _) _ _) _ _

theorem keeps_updIssue {s : State} (h : Keeps v q s) (t c : Nat) (st : Stream) (o d : Nat) (x : InFlight) :
    Keeps v q (s.updIssue t c st o d x).st := by
  unfold State.updIssue
  simp only []
  have hg := fun u => keeps_takeTag (v := v) (q := q) (s := { (s.register t c st x o .kiln d).1 with upds := u })
    (keeps_upd.2 (keeps_register h _ _ _ _ _ _ _))
  split
  · exact keeps_updGo (hg _ _ _ _ _) _
  · exact hg _ _ _ _ _

theorem keeps_tagged {s : State} (h : Keeps v q s) (x1 : _) (x2 : _) (x3 : _) (x4 : _) : Keeps v q (State.tagged s x1 x2 x3 x4) := by
  unfold State.tagged
  repeat' first | intro _ | with_reducible assumption | with_reducible apply keeps_modSeq | with_reducible apply keeps_freeTags | with_reducible apply keeps_progFault | with_reducible apply keeps_updGo | with_reducible exact keeps_of_fst (by assumption) (by assumption) | with_reducible apply keeps_ite | simp only [keeps_upd, keeps_upd_evt, id_eq] | split

theorem keeps_doTagGrant {s : State} (h : Keeps v q s) (t : Nat) (st : Stream) (n : Nat) : Keeps v q (doTagGrant t st n s) := by
  unfold doTagGrant
  split
  · exact keeps_tagged (keeps_tagGrant h _ _ _ _ (by assumption)) _ _ _ _
  · exact h

theorem keeps_doDeferRecordTake {s : State} (h : Keeps v q s) (c : Nat) : Keeps v q (doDeferRecordTake c s) := by
  unfold doDeferRecordTake
  split
  · exact h
  · split
    · exact h
    · have ht := keeps_updResolve h _ _ (by assumption)
      split
      · exact ht
      · exact keeps_modSeq ht _ _ _

theorem keeps_noteArrival {s : State} (h : Keeps v q s) (x1 : _) : Keeps v q (State.noteArrival s x1) := by
  unfold State.noteArrival
  repeat' first | intro _ | with_reducible assumption | with_reducible apply keeps_modUpd | with_reducible exact keeps_of_fst (by assumption) (by assumption) | with_reducible apply keeps_ite | simp only [keeps_upd, keeps_upd_evt, id_eq] | split

theorem keeps_deferArrive {s : State} (h : Keeps v q s) (x1 : _) : Keeps v q (State.deferArrive s x1) := by
  unfold State.deferArrive
  repeat' first | intro _ | with_reducible assumption | with_reducible apply keeps_foldl | with_reducible apply keeps_foldl_fst | with_reducible apply keeps_noteArrival | with_reducible apply keeps_pinFor | with_reducible apply keeps_requestMove | with_reducible exact keeps_of_fst (by assumption) (by assumption) | with_reducible apply keeps_ite | simp only [keeps_upd, keeps_upd_evt, id_eq] | split

theorem keeps_torn {s : State} (h : Keeps v q s) (x1 : _) (x2 : _) (x3 : _) : Keeps v q (State.torn s x1 x2 x3) := by
  unfold State.torn
  repeat' first | intro _ | with_reducible assumption | with_reducible apply keeps_modCtx | with_reducible apply keeps_logEvent | with_reducible apply keeps_requestAbort | with_reducible exact keeps_of_fst (by assumption) (by assumption) | with_reducible apply keeps_ite | simp only [keeps_upd, keeps_upd_evt, id_eq] | split

theorem keeps_slotPoison {s : State} (h : Keeps v q s) (x1 : _) (x2 : _) (x3 : _) : Keeps v q (State.slotPoison s x1 x2 x3) := by
  unfold State.slotPoison
  repeat' first | intro _ | with_reducible assumption | with_reducible apply keeps_logEvent | with_reducible apply keeps_modXfer | with_reducible apply keeps_torn | with_reducible apply keeps_modUpd | with_reducible exact keeps_of_fst (by assumption) (by assumption) | with_reducible apply keeps_ite | simp only [keeps_upd, keeps_upd_evt, id_eq] | split

theorem keeps_kilnPoison {s : State} (h : Keeps v q s) (x1 : _) : Keeps v q (State.kilnPoison s x1) := by
  unfold State.kilnPoison
  repeat' first | intro _ | with_reducible assumption | with_reducible apply keeps_logEvent | with_reducible apply keeps_modXfer | with_reducible apply keeps_requestAbort | with_reducible apply keeps_modUpd | with_reducible exact keeps_of_fst (by assumption) (by assumption) | with_reducible apply keeps_ite | simp only [keeps_upd, keeps_upd_evt, id_eq] | split

theorem keeps_kilnRun {s : State} (h : Keeps v q s) (x1 : _) : Keeps v q (State.kilnRun s x1) := by
  unfold State.kilnRun
  repeat' first | intro _ | with_reducible assumption | with_reducible apply keeps_foldl | with_reducible apply keeps_foldl_fst | with_reducible apply keeps_heatCa | with_reducible apply keeps_logEvent | with_reducible apply keeps_requestAbort | with_reducible apply keeps_modUpd | with_reducible apply keeps_kilnPoison | with_reducible apply keeps_slotPoison | with_reducible apply keeps_setLedState | with_reducible apply keeps_sendUpdate | with_reducible apply keeps_modCtx | with_reducible apply keeps_wrEngine | with_reducible exact keeps_of_fst (by assumption) (by assumption) | with_reducible apply keeps_ite | simp only [keeps_upd, keeps_upd_evt, id_eq] | split

theorem keeps_doKilnStart {s : State} (h : Keeps v q s) (x0 : _) : Keeps v q (doKilnStart x0 s) := by
  unfold doKilnStart
  repeat' first | intro _ | with_reducible assumption | with_reducible apply keeps_foldl | with_reducible apply keeps_foldl_fst | with_reducible apply keeps_kilnRun | with_reducible apply keeps_unblock | with_reducible exact keeps_of_fst (by assumption) (by assumption) | with_reducible apply keeps_ite | simp only [keeps_upd, keeps_upd_evt, id_eq] | split

theorem keeps_condPack {s : State} (h : Keeps v q s) (x1 : _) (x2 : _) (x3 : _) (x4 : _) (x5 : _) : Keeps v q (State.condPack s x1 x2 x3 x4 x5).1 := by
  unfold State.condPack
  repeat' first | intro _ | with_reducible assumption | with_reducible apply keeps_foldl | with_reducible apply keeps_foldl_fst | with_reducible apply keeps_putRow | with_reducible apply keeps_wr | with_reducible apply keeps_putBlks | with_reducible apply keeps_wrEngine | with_reducible apply keeps_putBitmap | with_reducible exact keeps_of_fst (by assumption) (by assumption) | with_reducible apply keeps_ite | simp only [keeps_upd, keeps_upd_evt, id_eq] | split

theorem keeps_unpin {s : State} (h : Keeps v q s) (x1 : _) : Keeps v q (State.unpin s x1) := by
  unfold State.unpin
  repeat' first | intro _ | with_reducible assumption | with_reducible apply keeps_foldl | with_reducible apply keeps_foldl_fst | with_reducible apply keeps_deferArrive | with_reducible apply keeps_modPent | with_reducible exact keeps_of_fst (by assumption) (by assumption) | with_reducible apply keeps_ite | simp only [keeps_upd, keeps_upd_evt, id_eq] | split

theorem keeps_countUpd {s : State} (h : Keeps v q s) (x1 : _) : Keeps v q (State.countUpd s x1) := by
  unfold State.countUpd
  repeat' first | intro _ | with_reducible assumption | with_reducible apply keeps_modTile | with_reducible exact keeps_of_fst (by assumption) (by assumption) | with_reducible apply keeps_ite | simp only [keeps_upd, keeps_upd_evt, id_eq] | split

theorem keeps_dropUpds {s : State} (h : Keeps v q s) (x1 : _) : Keeps v q (State.dropUpds s x1) := by
  unfold State.dropUpds
  repeat' first | intro _ | with_reducible assumption | with_reducible apply keeps_foldl | with_reducible apply keeps_foldl_fst | with_reducible apply keeps_countUpd | with_reducible apply keeps_unpin | with_reducible exact keeps_of_fst (by assumption) (by assumption) | with_reducible apply keeps_ite | simp only [keeps_upd, keeps_upd_evt, id_eq] | split

theorem keeps_updFinish {s : State} (h : Keeps v q s) (x1 : _) (x2 : _) : Keeps v q (State.updFinish s x1 x2) := by
  unfold State.updFinish
  repeat' first | intro _ | with_reducible assumption | with_reducible apply keeps_setLedState | with_reducible apply keeps_updDone | with_reducible apply keeps_unpin | with_reducible apply keeps_modTile | with_reducible apply keeps_modUpd | with_reducible exact keeps_of_fst (by assumption) (by assumption) | with_reducible apply keeps_ite | simp only [keeps_upd, keeps_upd_evt, id_eq] | split

theorem keeps_updSignal {s : State} (h : Keeps v q s) (x1 : _) : Keeps v q (State.updSignal s x1) := by
  unfold State.updSignal
  repeat' first | intro _ | with_reducible assumption | with_reducible exact keeps_of_fst (by assumption) (by assumption) | with_reducible apply keeps_ite | simp only [keeps_upd, keeps_upd_evt, id_eq] | split

theorem keeps_condRun {s : State} (h : Keeps v q s) (x1 : _) : Keeps v q (State.condRun s x1) := by
  unfold State.condRun
  repeat' first | intro _ | with_reducible assumption | with_reducible apply keeps_foldl | with_reducible apply keeps_foldl_fst | with_reducible apply keeps_heatCa | with_reducible apply keeps_slotPoison | with_reducible apply keeps_wrEngine | with_reducible apply keeps_updFinish | with_reducible apply keeps_updSignal | with_reducible apply keeps_condPack | with_reducible apply keeps_modStep | with_reducible apply keeps_modUpd | with_reducible exact keeps_of_fst (by assumption) (by assumption) | with_reducible apply keeps_ite | simp only [keeps_upd, keeps_upd_evt, id_eq] | split

theorem keeps_condGo {s : State} (h : Keeps v q s) (x1 : _) : Keeps v q (State.condGo s x1) := by
  unfold State.condGo
  repeat' first | intro _ | with_reducible assumption | with_reducible apply keeps_foldl | with_reducible apply keeps_foldl_fst | with_reducible apply keeps_condRun | with_reducible apply keeps_unblock | with_reducible exact keeps_of_fst (by assumption) (by assumption) | with_reducible apply keeps_ite | simp only [keeps_upd, keeps_upd_evt, id_eq] | split

theorem keeps_doConditioning {s : State} (h : Keeps v q s) (x0 : _) : Keeps v q (doConditioning x0 s) := by
  unfold doConditioning
  repeat' first | intro _ | with_reducible assumption | with_reducible apply keeps_condGo | with_reducible exact keeps_of_fst (by assumption) (by assumption) | with_reducible apply keeps_ite | simp only [keeps_upd, keeps_upd_evt, id_eq] | split

theorem keeps_doDeferredRun {s : State} (h : Keeps v q s) (x0 : _) : Keeps v q (doDeferredRun x0 s) := by
  unfold doDeferredRun
  repeat' first | intro _ | with_reducible assumption | with_reducible apply keeps_foldl | with_reducible apply keeps_foldl_fst | with_reducible apply keeps_unblock | with_reducible apply keeps_condRun | with_reducible apply keeps_kilnRun | with_reducible exact keeps_of_fst (by assumption) (by assumption) | with_reducible apply keeps_ite | simp only [keeps_upd, keeps_upd_evt, id_eq] | split

theorem keeps_doUpdateRerun {s : State} (h : Keeps v q s) (x0 : _) : Keeps v q (doUpdateRerun x0 s) := by
  unfold doUpdateRerun
  repeat' first | intro _ | with_reducible assumption | with_reducible apply keeps_requestAbort | with_reducible apply keeps_modCtx | with_reducible apply keeps_countUpd | with_reducible apply keeps_setLedState | with_reducible apply keeps_modUpd | with_reducible exact keeps_of_fst (by assumption) (by assumption) | with_reducible apply keeps_ite | simp only [keeps_upd, keeps_upd_evt, id_eq] | split

theorem keeps_doLedgerTimeout {s : State} (h : Keeps v q s) (x0 : _) : Keeps v q (doLedgerTimeout x0 s) := by
  unfold doLedgerTimeout
  repeat' first | intro _ | with_reducible assumption | with_reducible apply keeps_foldl | with_reducible apply keeps_foldl_fst | with_reducible apply keeps_requestAbort | with_reducible apply keeps_logDev | with_reducible exact keeps_of_fst (by assumption) (by assumption) | with_reducible apply keeps_ite | simp only [keeps_upd, keeps_upd_evt, id_eq] | split

theorem keeps_doShadowUpdate {s : State} (h : Keeps v q s) (c n d : Nat) : Keeps v q (doShadowUpdate c n d s) := by
  unfold doShadowUpdate
  simp only []
  refine keeps_ite h ?_
  split
  · exact keeps_updResolve (keeps_upd.2 h) _ _ (by assumption)
  · exact keeps_logDeferFull (keeps_upd.2 h) _ _

theorem keeps_doMirrorSum {s : State} (h : Keeps v q s) (x0 : _) (x1 : _) (x2 : _) (x3 : _) (x4 : _) : Keeps v q (doMirrorSum x0 x1 x2 x3 x4 s) := by
  unfold doMirrorSum
  repeat' first | intro _ | with_reducible assumption | with_reducible apply keeps_requestAbort | with_reducible apply keeps_logDev | with_reducible apply keeps_wrEngine | with_reducible apply keeps_setLed | with_reducible exact keeps_of_fst (by assumption) (by assumption) | with_reducible apply keeps_ite | simp only [keeps_upd, keeps_upd_evt, id_eq] | split

theorem keeps_doWeightRebuild {s : State} (h : Keeps v q s) (x0 : _) : Keeps v q (doWeightRebuild x0 s) := by
  unfold doWeightRebuild
  repeat' first | intro _ | with_reducible assumption | with_reducible apply keeps_foldl | with_reducible apply keeps_foldl_fst | with_reducible apply keeps_unblock | with_reducible apply keeps_slotPoison | with_reducible apply keeps_condPack | with_reducible apply keeps_modStep | with_reducible exact keeps_of_fst (by assumption) (by assumption) | with_reducible apply keeps_ite | simp only [keeps_upd, keeps_upd_evt, id_eq] | split

theorem keeps_requestWake {s : State} (h : Keeps v q s) (x1 : _) : Keeps v q (State.requestWake s x1) := by
  unfold State.requestWake
  repeat' first | intro _ | with_reducible assumption | with_reducible apply keeps_modUnit | with_reducible exact keeps_of_fst (by assumption) (by assumption) | with_reducible apply keeps_ite | simp only [keeps_upd, keeps_upd_evt, id_eq] | split

theorem keeps_shutDown {s : State} (h : Keeps v q s) (x1 : _) : Keeps v q (State.shutDown s x1) := by
  unfold State.shutDown
  repeat' first | intro _ | with_reducible assumption | with_reducible apply keeps_modUnit | with_reducible exact keeps_of_fst (by assumption) (by assumption) | with_reducible apply keeps_ite | simp only [keeps_upd, keeps_upd_evt, id_eq] | split

theorem keeps_syncPorts {s : State} (h : Keeps v q s) : Keeps v q (State.syncPorts s) := by
  unfold State.syncPorts
  repeat' first | intro _ | with_reducible assumption | with_reducible apply keeps_foldl | with_reducible apply keeps_foldl_fst | with_reducible apply keeps_requestWake | with_reducible apply keeps_shutDown | with_reducible exact keeps_of_fst (by assumption) (by assumption) | with_reducible apply keeps_ite | simp only [keeps_upd, keeps_upd_evt, id_eq] | split

theorem keeps_grantWakes {s : State} (h : Keeps v q s) : Keeps v q (State.grantWakes s) := by
  unfold State.grantWakes
  repeat' first | intro _ | with_reducible assumption | with_reducible apply keeps_foldl | with_reducible apply keeps_foldl_fst | with_reducible apply keeps_modUnit | with_reducible exact keeps_of_fst (by assumption) (by assumption) | with_reducible apply keeps_ite | simp only [keeps_upd, keeps_upd_evt, id_eq] | split

theorem keeps_logUnit {s : State} (h : Keeps v q s) (x1 : _) (x2 : _) : Keeps v q (State.logUnit s x1 x2) := by
  unfold State.logUnit
  repeat' first | intro _ | with_reducible assumption | with_reducible apply keeps_logEvent | with_reducible exact keeps_of_fst (by assumption) (by assumption) | with_reducible apply keeps_ite | simp only [keeps_upd, keeps_upd_evt, id_eq] | split

theorem keeps_inService {s : State} (h : Keeps v q s) (x1 : _) : Keeps v q (State.inService s x1) := by
  unfold State.inService
  repeat' first | intro _ | with_reducible assumption | with_reducible apply keeps_modUnit | with_reducible apply keeps_modPort | with_reducible exact keeps_of_fst (by assumption) (by assumption) | with_reducible apply keeps_ite | simp only [keeps_upd, keeps_upd_evt, id_eq] | split

theorem keeps_zeroTile {s : State} (h : Keeps v q s) (x1 : _) : Keeps v q (State.zeroTile s x1) := by
  unfold State.zeroTile
  repeat' first | intro _ | with_reducible assumption | with_reducible apply keeps_zero | with_reducible exact keeps_of_fst (by assumption) (by assumption) | with_reducible apply keeps_ite | simp only [keeps_upd, keeps_upd_evt, id_eq] | split

theorem keeps_coldTile {s : State} (h : Keeps v q s) (x1 : _) : Keeps v q (State.coldTile s x1) := by
  unfold State.coldTile
  repeat' first | intro _ | with_reducible assumption | with_reducible apply keeps_modTile | with_reducible exact keeps_of_fst (by assumption) (by assumption) | with_reducible apply keeps_ite | simp only [keeps_upd, keeps_upd_evt, id_eq] | split

theorem keeps_reloadTile {s : State} (h : Keeps v q s) (x1 : _) : Keeps v q (State.reloadTile s x1) := by
  unfold State.reloadTile
  repeat' first | intro _ | with_reducible assumption | with_reducible apply keeps_coldTile | with_reducible apply keeps_zeroTile | with_reducible apply keeps_logUnit | with_reducible apply keeps_modUnit | with_reducible exact keeps_of_fst (by assumption) (by assumption) | with_reducible apply keeps_ite | simp only [keeps_upd, keeps_upd_evt, id_eq] | split

theorem keeps_poisonFrames {s : State} (h : Keeps v q s) (x1 : _) (x2 : _) : Keeps v q (State.poisonFrames s x1 x2) := by
  unfold State.poisonFrames
  repeat' first | intro _ | with_reducible assumption | with_reducible apply keeps_foldl | with_reducible apply keeps_foldl_fst | with_reducible apply keeps_modPent | with_reducible apply keeps_markPoison | with_reducible exact keeps_of_fst (by assumption) (by assumption) | with_reducible apply keeps_ite | simp only [keeps_upd, keeps_upd_evt, id_eq] | split

theorem keeps_rewritePort {s : State} (h : Keeps v q s) (x1 : _) : Keeps v q (State.rewritePort s x1) := by
  unfold State.rewritePort
  repeat' first | intro _ | with_reducible assumption | with_reducible apply keeps_foldl | with_reducible apply keeps_foldl_fst | with_reducible apply keeps_arm | with_reducible apply keeps_setShadow | with_reducible exact keeps_of_fst (by assumption) (by assumption) | with_reducible apply keeps_ite | simp only [keeps_upd, keeps_upd_evt, id_eq] | split

theorem keeps_reloadUnit {s : State} (h : Keeps v q s) (x1 : _) : Keeps v q (State.reloadUnit s x1) := by
  unfold State.reloadUnit
  repeat' first | intro _ | with_reducible assumption | with_reducible apply keeps_poisonFrames | with_reducible apply keeps_rewritePort | with_reducible apply keeps_logUnit | with_reducible apply keeps_modUnit | with_reducible apply keeps_inService | with_reducible exact keeps_of_fst (by assumption) (by assumption) | with_reducible apply keeps_ite | simp only [keeps_upd, keeps_upd_evt, id_eq] | split

theorem keeps_wakeKept {s : State} (h : Keeps v q s) (x1 : _) : Keeps v q (State.wakeKept s x1) := by
  unfold State.wakeKept
  repeat' first | intro _ | with_reducible assumption | with_reducible apply keeps_inService | with_reducible apply keeps_modUnit | with_reducible apply keeps_reloadUnit | with_reducible apply keeps_advanceEpoch | with_reducible apply keeps_logUnit | with_reducible exact keeps_of_fst (by assumption) (by assumption) | with_reducible apply keeps_ite | simp only [keeps_upd, keeps_upd_evt, id_eq] | split

theorem keeps_wakeFresh {s : State} (h : Keeps v q s) (x1 : _) : Keeps v q (State.wakeFresh s x1) := by
  unfold State.wakeFresh
  repeat' first | intro _ | with_reducible assumption | with_reducible apply keeps_modUnit | with_reducible apply keeps_inService | with_reducible exact keeps_of_fst (by assumption) (by assumption) | with_reducible apply keeps_ite | simp only [keeps_upd, keeps_upd_evt, id_eq] | split

theorem keeps_reachIdle {s : State} (h : Keeps v q s) (x1 : _) : Keeps v q (State.reachIdle s x1) := by
  unfold State.reachIdle
  repeat' first | intro _ | with_reducible assumption | with_reducible apply keeps_zeroTile | with_reducible apply keeps_modPort | with_reducible apply keeps_modUnit | with_reducible apply keeps_requestWake | with_reducible exact keeps_of_fst (by assumption) (by assumption) | with_reducible apply keeps_ite | simp only [keeps_upd, keeps_upd_evt, id_eq] | split

theorem keeps_doPendingEnable {s : State} (h : Keeps v q s) (x0 : _) : Keeps v q (doPendingEnable x0 s) := by
  unfold doPendingEnable
  repeat' first | intro _ | with_reducible assumption | with_reducible apply keeps_foldl | with_reducible apply keeps_foldl_fst | with_reducible apply keeps_modCtx | with_reducible apply keeps_modFn | with_reducible apply keeps_reachIdle | with_reducible exact keeps_of_fst (by assumption) (by assumption) | with_reducible apply keeps_ite | simp only [keeps_upd, keeps_upd_evt, id_eq] | split

theorem keeps_setCask {s : State} (h : Keeps v q s) (x1 : _) (x2 : _) : Keeps v q (State.setCask s x1 x2) := by
  unfold State.setCask
  repeat' first | intro _ | with_reducible assumption | with_reducible apply keeps_foldl | with_reducible apply keeps_foldl_fst | with_reducible apply keeps_modTile | with_reducible apply keeps_wrClk | with_reducible exact keeps_of_fst (by assumption) (by assumption) | with_reducible apply keeps_ite | simp only [keeps_upd, keeps_upd_evt, id_eq] | split

theorem keeps_caskStore {s : State} (h : Keeps v q s) (x1 : _) (x2 : _) (x3 : _) (x4 : _) (x5 : _) : Keeps v q (State.caskStore s x1 x2 x3 x4 x5) := by
  unfold State.caskStore
  repeat' first | intro _ | with_reducible assumption | with_reducible apply keeps_foldl | with_reducible apply keeps_foldl_fst | with_reducible apply keeps_heatCa | with_reducible apply keeps_putBlock | with_reducible apply keeps_putRowCa | with_reducible exact keeps_of_fst (by assumption) (by assumption) | with_reducible apply keeps_ite | simp only [keeps_upd, keeps_upd_evt, id_eq] | split

theorem keeps_caskLoad {s : State} (h : Keeps v q s) (x1 : _) (x2 : _) (x3 : _) (x4 : _) (x5 : _) : Keeps v q (State.caskLoad s x1 x2 x3 x4 x5).1 := by
  unfold State.caskLoad
  repeat' first | intro _ | with_reducible assumption | with_reducible apply keeps_heatCa | with_reducible apply keeps_putRowCa | with_reducible apply keeps_logTile | with_reducible exact keeps_of_fst (by assumption) (by assumption) | with_reducible apply keeps_ite | simp only [keeps_upd, keeps_upd_evt, id_eq] | split

theorem keeps_caskIssue {s : State} (h : Keeps v q s) (t : Nat) (st : Stream) (k : OpInfo) (w : Insn)
    (body : Nat → Nat → InFlight → State → Ran) (hb : ∀ a b x s, Keeps v q s → Keeps v q (body a b x s).st) :
    Keeps v q (s.caskIssue t st k w body) := by
  unfold State.caskIssue
  refine keeps_issue h _ _ _ _ _ _ _ ?_
  intro c x s hs
  split
  · exact hs
  · simp only []
    split
    · exact hs
    · exact hb _ _ _ _ hs

theorem keeps_caskPlace {s : State} (h : Keeps v q s) (x1 : _) (x2 : _) (x3 : _) (x4 : _) (x5 : _) : Keeps v q (State.caskPlace s x1 x2 x3 x4 x5).1 := by
  unfold State.caskPlace
  repeat' first | intro _ | with_reducible assumption | with_reducible apply keeps_modTile | with_reducible apply keeps_setCask | with_reducible apply keeps_caskStore | with_reducible exact keeps_of_fst (by assumption) (by assumption) | with_reducible apply keeps_ite | simp only [keeps_upd, keeps_upd_evt, id_eq] | split

theorem keeps_endStall {s : State} (h : Keeps v q s) (x1 : _) (x2 : _) (x3 : _) (x4 : _) : Keeps v q (State.endStall s x1 x2 x3 x4) := by
  unfold State.endStall
  repeat' first | intro _ | with_reducible assumption | with_reducible apply keeps_modSeq | with_reducible apply keeps_modTile | with_reducible exact keeps_of_fst (by assumption) (by assumption) | with_reducible apply keeps_ite | simp only [keeps_upd, keeps_upd_evt, id_eq] | split

theorem keeps_doCaskPutRetry {s : State} (h : Keeps v q s) (x0 : _) (x1 : _) : Keeps v q (doCaskPutRetry x0 x1 s) := by
  unfold doCaskPutRetry
  repeat' first | intro _ | with_reducible assumption | with_reducible apply keeps_caskPlace | with_reducible apply keeps_asBefore | with_reducible apply keeps_afterAll | with_reducible apply keeps_endStall | with_reducible exact keeps_of_fst (by assumption) (by assumption) | with_reducible apply keeps_ite | simp only [keeps_upd, keeps_upd_evt, id_eq] | split

theorem keeps_doCaskFull {s : State} (h : Keeps v q s) (x0 : _) (x1 : _) : Keeps v q (doCaskFull x0 x1 s) := by
  unfold doCaskFull
  repeat' first | intro _ | with_reducible assumption | with_reducible apply keeps_endStall | with_reducible apply keeps_retire | with_reducible apply keeps_logTile | with_reducible apply keeps_requestAbort | with_reducible exact keeps_of_fst (by assumption) (by assumption) | with_reducible apply keeps_ite | simp only [keeps_upd, keeps_upd_evt, id_eq] | split

theorem keeps_caskAbort {s : State} (h : Keeps v q s) (x1 : _) (x2 : _) : Keeps v q (State.caskAbort s x1 x2) := by
  unfold State.caskAbort
  repeat' first | intro _ | with_reducible assumption | with_reducible apply keeps_foldl | with_reducible apply keeps_foldl_fst | with_reducible apply keeps_retire | with_reducible apply keeps_endStall | with_reducible apply keeps_setCask | with_reducible exact keeps_of_fst (by assumption) (by assumption) | with_reducible apply keeps_ite | simp only [keeps_upd, keeps_upd_evt, id_eq] | split

theorem keeps_repin {s : State} (h : Keeps v q s) (x1 : _) : Keeps v q (State.repin s x1) := by
  unfold State.repin
  repeat' first | intro _ | with_reducible assumption | with_reducible apply keeps_foldl | with_reducible apply keeps_foldl_fst | with_reducible apply keeps_modPent | with_reducible exact keeps_of_fst (by assumption) (by assumption) | with_reducible apply keeps_ite | simp only [keeps_upd, keeps_upd_evt, id_eq] | split

theorem keeps_unloadProg {s : State} (h : Keeps v q s) (x1 : _) : Keeps v q (State.unloadProg s x1) := by
  unfold State.unloadProg
  repeat' first | intro _ | with_reducible assumption | with_reducible apply keeps_foldl | with_reducible apply keeps_foldl_fst | with_reducible apply keeps_freeUnits | with_reducible apply keeps_modTile | with_reducible apply keeps_repin | with_reducible apply keeps_modCtx | with_reducible exact keeps_of_fst (by assumption) (by assumption) | with_reducible apply keeps_ite | simp only [keeps_upd, keeps_upd_evt, id_eq] | split

theorem keeps_keepCounts {s : State} (h : Keeps v q s) (x1 : _) : Keeps v q (State.keepCounts s x1) := by
  unfold State.keepCounts
  repeat' first | intro _ | with_reducible assumption | with_reducible apply keeps_foldl | with_reducible apply keeps_foldl_fst | with_reducible apply keeps_modTile | with_reducible exact keeps_of_fst (by assumption) (by assumption) | with_reducible apply keeps_ite | simp only [keeps_upd, keeps_upd_evt, id_eq] | split

theorem keeps_cancelXfers {s : State} (h : Keeps v q s) (x1 : _) : Keeps v q (State.cancelXfers s x1) := by
  unfold State.cancelXfers
  repeat' first | intro _ | with_reducible assumption | with_reducible apply keeps_freeTags | with_reducible apply keeps_withdraw | with_reducible apply keeps_keepCounts | with_reducible exact keeps_of_fst (by assumption) (by assumption) | with_reducible apply keeps_ite | simp only [keeps_upd, keeps_upd_evt, id_eq] | split

theorem keeps_dropWork {s : State} (h : Keeps v q s) (x1 : _) : Keeps v q (State.dropWork s x1) := by
  unfold State.dropWork
  repeat' first | intro _ | with_reducible assumption | with_reducible apply keeps_cancelXfers | with_reducible apply keeps_dropUpds | with_reducible exact keeps_of_fst (by assumption) (by assumption) | with_reducible apply keeps_ite | simp only [keeps_upd, keeps_upd_evt, id_eq] | split

theorem keeps_unmapRegion {s : State} (h : Keeps v q s) (x1 : _) (x2 : _) : Keeps v q (State.unmapRegion s x1 x2) := by
  unfold State.unmapRegion
  repeat' first | intro _ | with_reducible assumption | with_reducible apply keeps_foldl | with_reducible apply keeps_foldl_fst | with_reducible apply keeps_cancelMoves | with_reducible apply keeps_modPent | with_reducible apply keeps_modCtx | with_reducible exact keeps_of_fst (by assumption) (by assumption) | with_reducible apply keeps_ite | simp only [keeps_upd, keeps_upd_evt, id_eq] | split

theorem keeps_closeCtx {s : State} (h : Keeps v q s) (x1 : _) : Keeps v q (State.closeCtx s x1) := by
  unfold State.closeCtx
  repeat' first | intro _ | with_reducible assumption | with_reducible apply keeps_foldl | with_reducible apply keeps_foldl_fst | with_reducible apply keeps_dropWork | with_reducible apply keeps_unloadProg | with_reducible apply keeps_unmapRegion | with_reducible apply keeps_modPent | with_reducible apply keeps_shutDown | with_reducible apply keeps_modTile | with_reducible apply keeps_modCtx | with_reducible exact keeps_of_fst (by assumption) (by assumption) | with_reducible apply keeps_ite | simp only [keeps_upd, keeps_upd_evt, id_eq] | split

theorem keeps_fnReset {s : State} (h : Keeps v q s) (x1 : _) (x2 : _) : Keeps v q (State.fnReset s x1 x2) := by
  unfold State.fnReset
  repeat' first | intro _ | with_reducible assumption | with_reducible apply keeps_modFn | with_reducible exact keeps_of_fst (by assumption) (by assumption) | with_reducible apply keeps_ite | simp only [keeps_upd, keeps_upd_evt, id_eq] | split

theorem keeps_zeroPools {s : State} (h : Keeps v q s) (x1 : _) : Keeps v q (State.zeroPools s x1) := by
  unfold State.zeroPools
  repeat' first | intro _ | with_reducible assumption | with_reducible apply keeps_foldl | with_reducible apply keeps_foldl_fst | with_reducible apply keeps_zero | with_reducible exact keeps_of_fst (by assumption) (by assumption) | with_reducible apply keeps_ite | simp only [keeps_upd, keeps_upd_evt, id_eq] | split

theorem keeps_l2Body {s : State} (h : Keeps v q s) (x1 : _) (x2 : _) (x3 : _) : Keeps v q (State.l2Body s x1 x2 x3) := by
  unfold State.l2Body
  repeat' first | intro _ | with_reducible assumption | with_reducible apply keeps_foldl | with_reducible apply keeps_foldl_fst | with_reducible apply keeps_unloadProg | with_reducible apply keeps_endDetached | with_reducible apply keeps_dropWork | with_reducible apply keeps_modTile | with_reducible apply keeps_coldTile | with_reducible apply keeps_zeroTile | with_reducible apply keeps_zeroPools | with_reducible apply keeps_modStep | with_reducible apply keeps_fnReset | with_reducible apply keeps_modFn | with_reducible exact keeps_of_fst (by assumption) (by assumption) | with_reducible apply keeps_ite | simp only [keeps_upd, keeps_upd_evt, id_eq] | split

theorem keeps_hostAbort {s : State} (h : Keeps v q s) (x1 : _) : Keeps v q (State.hostAbort s x1) := by
  unfold State.hostAbort
  repeat' first | intro _ | with_reducible assumption | with_reducible apply keeps_modStep | with_reducible apply keeps_requestAbort | with_reducible exact keeps_of_fst (by assumption) (by assumption) | with_reducible apply keeps_ite | simp only [keeps_upd, keeps_upd_evt, id_eq] | split

theorem keeps_startL2 {s : State} (h : Keeps v q s) (x1 : _) (x2 : _) : Keeps v q (State.startL2 s x1 x2) := by
  unfold State.startL2
  repeat' first | intro _ | with_reducible assumption | with_reducible apply keeps_logEvent | with_reducible apply keeps_advanceEpoch | with_reducible apply keeps_logLevel | with_reducible apply keeps_modFn | with_reducible apply keeps_fnReset | with_reducible apply keeps_modCtx | with_reducible apply keeps_l2Body | with_reducible apply keeps_hostAbort | with_reducible exact keeps_of_fst (by assumption) (by assumption) | with_reducible apply keeps_ite | simp only [keeps_upd, keeps_upd_evt, id_eq] | split

theorem keeps_requestL4 {s : State} (h : Keeps v q s) (x1 : _) : Keeps v q (State.requestL4 s x1) := by
  unfold State.requestL4
  repeat' first | intro _ | with_reducible assumption | with_reducible apply keeps_logDev | with_reducible exact keeps_of_fst (by assumption) (by assumption) | with_reducible apply keeps_ite | simp only [keeps_upd, keeps_upd_evt, id_eq] | split

theorem keeps_slotFail {s : State} (h : Keeps v q s) (x1 : _) (x2 : _) : Keeps v q (State.slotFail s x1 x2) := by
  unfold State.slotFail
  repeat' first | intro _ | with_reducible assumption | with_reducible apply keeps_logDev | with_reducible exact keeps_of_fst (by assumption) (by assumption) | with_reducible apply keeps_ite | simp only [keeps_upd, keeps_upd_evt, id_eq] | split

theorem keeps_enterRecovery {s : State} (h : Keeps v q s) : Keeps v q (State.enterRecovery s) := by
  unfold State.enterRecovery
  repeat' first | intro _ | with_reducible assumption | with_reducible exact keeps_of_fst (by assumption) (by assumption) | with_reducible apply keeps_ite | simp only [keeps_upd, keeps_upd_evt, id_eq] | split

theorem keeps_revert {s : State} (h : Keeps v q s) : Keeps v q (State.revert s) := by
  unfold State.revert
  repeat' first | intro _ | with_reducible assumption | with_reducible apply keeps_logDev | with_reducible exact keeps_of_fst (by assumption) (by assumption) | with_reducible apply keeps_ite | simp only [keeps_upd, keeps_upd_evt, id_eq] | split

theorem keeps_pickBundle {s : State} (h : Keeps v q s) : Keeps v q (State.pickBundle s) := by
  unfold State.pickBundle
  repeat' first | intro _ | with_reducible assumption | with_reducible apply keeps_enterRecovery | with_reducible apply keeps_logDev | with_reducible apply keeps_slotFail | with_reducible apply keeps_revert | with_reducible exact keeps_of_fst (by assumption) (by assumption) | with_reducible apply keeps_ite | simp only [keeps_upd, keeps_upd_evt, id_eq] | split

theorem keeps_setMode {s : State} (h : Keeps v q s) (x1 : _) : Keeps v q (State.setMode s x1) := by
  unfold State.setMode
  repeat' first | intro _ | with_reducible assumption | with_reducible exact keeps_of_fst (by assumption) (by assumption) | with_reducible apply keeps_ite | simp only [keeps_upd, keeps_upd_evt, id_eq] | split

theorem keeps_bootRegs {s : State} (h : Keeps v q s) : Keeps v q (State.bootRegs s) := by
  unfold State.bootRegs
  repeat' first | intro _ | with_reducible assumption | with_reducible apply keeps_foldl | with_reducible apply keeps_foldl_fst | with_reducible apply keeps_maltsterSet | with_reducible apply keeps_keepRef | with_reducible exact keeps_of_fst (by assumption) (by assumption) | with_reducible apply keeps_ite | simp only [keeps_upd, keeps_upd_evt, id_eq] | split

theorem keeps_measure {s : State} (h : Keeps v q s) : Keeps v q (State.measure s) := by
  unfold State.measure
  repeat' first | intro _ | with_reducible assumption | with_reducible exact keeps_of_fst (by assumption) (by assumption) | with_reducible apply keeps_ite | simp only [keeps_upd, keeps_upd_evt, id_eq] | split

theorem keeps_bootUp {s : State} (h : Keeps v q s) : Keeps v q (State.bootUp s) := by
  unfold State.bootUp
  refine keeps_ite (keeps_upd_evt.2 (keeps_pickBundle h)) ?_
  exact keeps_setMode (keeps_upd.2 (keeps_upd.2 (keeps_bootRegs (keeps_measure (keeps_upd_evt.2 (keeps_pickBundle h)))))) _

theorem keeps_l3Mem {s : State} (h : Keeps v q s) (k : Bool) : Keeps v q (s.l3Mem k) := by
  unfold State.l3Mem
  split <;> exact ⟨h.1, h.2, smWf_smErase _ _ h.3, h.4, h.5⟩

theorem keeps_dropSeals {s : State} (h : Keeps v q s) : Keeps v q (State.dropSeals s) := by
  unfold State.dropSeals
  repeat' first | intro _ | with_reducible assumption | with_reducible apply keeps_foldl | with_reducible apply keeps_foldl_fst | with_reducible apply keeps_freeCkpt | with_reducible exact keeps_of_fst (by assumption) (by assumption) | with_reducible apply keeps_ite | simp only [keeps_upd, keeps_upd_evt, id_eq] | split

theorem keeps_wipeL3 {s : State} (h : Keeps v q s) (x1 : _) (x2 : _) : Keeps v q (State.wipeL3 s x1 x2) := by
  have a := keeps_foldl (l := List.range 16) (f := fun s c => (s.freeGranules ((s.ctx c).releasing.flatMap Region.lgns)).unloadProg c)
    (keeps_cancelMoves (keeps_dropSeals h) (s.dropSeals.place.map (·.1))) (fun b c hb => keeps_unloadProg (keeps_freeGranules hb _) _)
  unfold State.wipeL3
  simp only []
  generalize List.foldl _ _ (List.range 16) = u at a
  cases x2 <;> simp only [Bool.false_eq_true, if_false, if_true]
  · have k := keeps_advanceEpoch (keeps_l3Mem (keeps_freeGranules a (u.place.map (·.1))) false)
    exact ⟨k.1, k.2, k.3, k.4, fun _ ho => by cases ho⟩
  · have k (e : SMap PEntry) : Keeps v q (State.l3Mem { u with place := e } true) := keeps_l3Mem (keeps_upd.2 a) true
    exact ⟨(k u.place).1, (k u.place).2, (k _).3, (k u.place).4, fun _ ho => by cases ho⟩

theorem keeps_endL3 {s : State} (h : Keeps v q s) : Keeps v q (State.endL3 s) := by
  unfold State.endL3
  repeat' first | intro _ | with_reducible assumption | with_reducible apply keeps_bootUp | with_reducible exact keeps_of_fst (by assumption) (by assumption) | with_reducible apply keeps_ite | simp only [keeps_upd, keeps_upd_evt, id_eq] | split

theorem keeps_startL3 {s : State} (h : Keeps v q s) (x1 : _) (x2 : _) (x3 : _) : Keeps v q (State.startL3 s x1 x2 x3) := by
  unfold State.startL3
  repeat' first | intro _ | with_reducible assumption | with_reducible apply keeps_logLevel | with_reducible apply keeps_revert | with_reducible apply keeps_wipeL3 | with_reducible apply keeps_requestL4 | with_reducible apply keeps_endL3 | with_reducible exact keeps_of_fst (by assumption) (by assumption) | with_reducible apply keeps_ite | simp only [keeps_upd, keeps_upd_evt, id_eq] | split

theorem keeps_takeL3 {s : State} (h : Keeps v q s) (x1 : _) : Keeps v q (State.takeL3 s x1) := by
  unfold State.takeL3
  repeat' first | intro _ | with_reducible assumption | with_reducible apply keeps_startL3 | with_reducible exact keeps_of_fst (by assumption) (by assumption) | with_reducible apply keeps_ite | simp only [keeps_upd, keeps_upd_evt, id_eq] | split

theorem keeps_doWatchdog {s : State} (h : Keeps v q s) : Keeps v q (doWatchdog s) := by
  unfold doWatchdog
  repeat' first | intro _ | with_reducible assumption | with_reducible apply keeps_logDev | with_reducible exact keeps_of_fst (by assumption) (by assumption) | with_reducible apply keeps_ite | simp only [keeps_upd, keeps_upd_evt, id_eq] | split

theorem keeps_doLevelL3 {s : State} (h : Keeps v q s) (x0 : _) : Keeps v q (doLevelL3 x0 s) := by
  unfold doLevelL3
  repeat' first | intro _ | with_reducible assumption | with_reducible apply keeps_whenLive | with_reducible apply keeps_takeL3 | with_reducible apply keeps_logEvent | with_reducible exact keeps_of_fst (by assumption) (by assumption) | with_reducible apply keeps_ite | simp only [keeps_upd, keeps_upd_evt, id_eq] | split

theorem keeps_acted {s : State} (h : Keeps v q s) (x1 : _) (x2 : _) (x3 : _) (x4 : _) : Keeps v q (State.acted s x1 x2 x3 x4) := by
  unfold State.acted
  repeat' first | intro _ | with_reducible assumption | with_reducible exact keeps_of_fst (by assumption) (by assumption) | with_reducible apply keeps_ite | simp only [keeps_upd, keeps_upd_evt, id_eq] | split

theorem keeps_openStep {s : State} (h : Keeps v q s) (x1 : _) : Keeps v q (State.openStep s x1) := by
  unfold State.openStep
  repeat' first | intro _ | with_reducible assumption | with_reducible apply keeps_foldl | with_reducible apply keeps_foldl_fst | with_reducible apply keeps_modStep | with_reducible apply keeps_modTile | with_reducible exact keeps_of_fst (by assumption) (by assumption) | with_reducible apply keeps_ite | simp only [keeps_upd, keeps_upd_evt, id_eq] | split

theorem keeps_doStepOpen {s : State} (h : Keeps v q s) (x0 : _) : Keeps v q (doStepOpen x0 s) := by
  unfold doStepOpen
  repeat' first | intro _ | with_reducible assumption | with_reducible apply keeps_acted | with_reducible apply keeps_openStep | with_reducible exact keeps_of_fst (by assumption) (by assumption) | with_reducible apply keeps_ite | simp only [keeps_upd, keeps_upd_evt, id_eq] | split

theorem keeps_emptyLedger {s : State} (h : Keeps v q s) (x1 : _) (x2 : _) : Keeps v q (State.emptyLedger s x1 x2) := by
  unfold State.emptyLedger
  repeat' first | intro _ | with_reducible assumption | with_reducible apply keeps_foldl | with_reducible apply keeps_foldl_fst | with_reducible apply keeps_setLedState | with_reducible exact keeps_of_fst (by assumption) (by assumption) | with_reducible apply keeps_ite | simp only [keeps_upd, keeps_upd_evt, id_eq] | split

theorem keeps_releaseXfers {s : State} (h : Keeps v q s) (x1 : _) (x2 : _) : Keeps v q (State.releaseXfers s x1 x2) := by
  unfold State.releaseXfers
  repeat' first | intro _ | with_reducible assumption | with_reducible apply keeps_cancelXfers | with_reducible apply keeps_freeTags | with_reducible exact keeps_of_fst (by assumption) (by assumption) | with_reducible apply keeps_ite | simp only [keeps_upd, keeps_upd_evt, id_eq] | split

theorem keeps_commitStep {s : State} (h : Keeps v q s) (x1 : _) (x2 : _) : Keeps v q (State.commitStep s x1 x2) := by
  unfold State.commitStep
  repeat' first | intro _ | with_reducible assumption | with_reducible apply keeps_foldl | with_reducible apply keeps_foldl_fst | with_reducible apply keeps_emptyLedger | with_reducible apply keeps_modCtx | with_reducible apply keeps_modTile | with_reducible apply keeps_setCask | with_reducible apply keeps_releaseXfers | with_reducible apply keeps_advanceEpoch | with_reducible apply keeps_msix | with_reducible exact keeps_of_fst (by assumption) (by assumption) | with_reducible apply keeps_ite | simp only [keeps_upd, keeps_upd_evt, id_eq] | split

theorem keeps_doStepCommit {s : State} (h : Keeps v q s) (x0 : _) : Keeps v q (doStepCommit x0 s) := by
  unfold doStepCommit
  repeat' first | intro _ | with_reducible assumption | with_reducible apply keeps_acted | with_reducible apply keeps_commitStep | with_reducible exact keeps_of_fst (by assumption) (by assumption) | with_reducible apply keeps_ite | simp only [keeps_upd, keeps_upd_evt, id_eq] | split

theorem keeps_logTorn {s : State} (h : Keeps v q s) (x1 : _) : Keeps v q (State.logTorn s x1) := by
  unfold State.logTorn
  repeat' first | intro _ | with_reducible assumption | with_reducible apply keeps_modCtx | with_reducible apply keeps_logEvent | with_reducible exact keeps_of_fst (by assumption) (by assumption) | with_reducible apply keeps_ite | simp only [keeps_upd, keeps_upd_evt, id_eq] | split

theorem keeps_endWaits {s : State} (h : Keeps v q s) (x1 : _) (x2 : _) : Keeps v q (State.endWaits s x1 x2) := by
  unfold State.endWaits
  repeat' first | intro _ | with_reducible assumption | with_reducible apply keeps_foldl | with_reducible apply keeps_foldl_fst | with_reducible apply keeps_endGrants | with_reducible apply keeps_retire | with_reducible exact keeps_of_fst (by assumption) (by assumption) | with_reducible apply keeps_ite | simp only [keeps_upd, keeps_upd_evt, id_eq] | split

theorem keeps_abortTile {s : State} (h : Keeps v q s) (x1 : _) (x2 : _) (x3 : _) : Keeps v q (State.abortTile s x1 x2 x3) := by
  unfold State.abortTile
  repeat' first | intro _ | with_reducible assumption | with_reducible apply keeps_modTile | with_reducible apply keeps_caskAbort | with_reducible apply keeps_endWaits | with_reducible apply keeps_settle | with_reducible exact keeps_of_fst (by assumption) (by assumption) | with_reducible apply keeps_ite | simp only [keeps_upd, keeps_upd_evt, id_eq] | split

theorem keeps_abortWork {s : State} (h : Keeps v q s) (x1 : _) (x2 : _) : Keeps v q (State.abortWork s x1 x2) := by
  unfold State.abortWork
  repeat' first | intro _ | with_reducible assumption | with_reducible apply keeps_cancelXfers | with_reducible apply keeps_dropUpds | with_reducible exact keeps_of_fst (by assumption) (by assumption) | with_reducible apply keeps_ite | simp only [keeps_upd, keeps_upd_evt, id_eq] | split

theorem keeps_abortReplies {s : State} (h : Keeps v q s) (x1 : _) (x2 : _) : Keeps v q (State.abortReplies s x1 x2) := by
  unfold State.abortReplies
  repeat' first | intro _ | with_reducible assumption | with_reducible apply keeps_foldl | with_reducible apply keeps_foldl_fst | with_reducible apply keeps_lateReply | with_reducible apply keeps_closeCtx | with_reducible apply keeps_l2Body | with_reducible exact keeps_of_fst (by assumption) (by assumption) | with_reducible apply keeps_ite | simp only [keeps_upd, keeps_upd_evt, id_eq] | split

theorem keeps_abortAnswer {s : State} (h : Keeps v q s) (x1 : _) (x2 : _) (x3 : _) (x4 : _) (x5 : _) : Keeps v q (State.abortAnswer s x1 x2 x3 x4 x5) := by
  unfold State.abortAnswer
  repeat' first | intro _ | with_reducible assumption | with_reducible apply keeps_modCtx | with_reducible apply keeps_logLevel | with_reducible apply keeps_logDev | with_reducible apply keeps_msix | with_reducible exact keeps_of_fst (by assumption) (by assumption) | with_reducible apply keeps_ite | simp only [keeps_upd, keeps_upd_evt, id_eq] | split

theorem keeps_abortCtx {s : State} (h : Keeps v q s) (x1 : _) (x2 : _) (x3 : _) : Keeps v q (State.abortCtx s x1 x2 x3) := by
  unfold State.abortCtx
  repeat' first | intro _ | with_reducible assumption | with_reducible apply keeps_foldl | with_reducible apply keeps_foldl_fst | with_reducible apply keeps_abortTile | with_reducible apply keeps_logTorn | with_reducible apply keeps_abortWork | with_reducible apply keeps_emptyLedger | with_reducible apply keeps_modStep | with_reducible apply keeps_abortReplies | with_reducible apply keeps_abortAnswer | with_reducible exact keeps_of_fst (by assumption) (by assumption) | with_reducible apply keeps_ite | simp only [keeps_upd, keeps_upd_evt, id_eq] | split

theorem keeps_doAbortTick {s : State} (h : Keeps v q s) (x0 : _) (x1 : _) : Keeps v q (doAbortTick x0 x1 s) := by
  unfold doAbortTick
  repeat' first | intro _ | with_reducible assumption | with_reducible apply keeps_acted | with_reducible apply keeps_modStep | with_reducible apply keeps_abortCtx | with_reducible exact keeps_of_fst (by assumption) (by assumption) | with_reducible apply keeps_ite | simp only [keeps_upd, keeps_upd_evt, id_eq] | split

theorem keeps_finishVerdict {s : State} (h : Keeps v q s) : Keeps v q (State.finishVerdict s) := by
  unfold State.finishVerdict
  repeat' first | intro _ | with_reducible assumption | with_reducible apply keeps_foldl | with_reducible apply keeps_foldl_fst | with_reducible apply keeps_doAbortTick | with_reducible apply keeps_doStepCommit | with_reducible apply keeps_doStepOpen | with_reducible exact keeps_of_fst (by assumption) (by assumption) | with_reducible apply keeps_ite | simp only [keeps_upd, keeps_upd_evt, id_eq] | split

theorem keeps_setQstate {s : State} (h : Keeps v q s) (x1 : _) (x2 : _) : Keeps v q (State.setQstate s x1 x2) := by
  unfold State.setQstate
  repeat' first | intro _ | with_reducible assumption | with_reducible apply keeps_setMode | with_reducible exact keeps_of_fst (by assumption) (by assumption) | with_reducible apply keeps_ite | simp only [keeps_upd, keeps_upd_evt, id_eq] | split

theorem keeps_setSides {s : State} (h : Keeps v q s) (x1 : _) : Keeps v q (State.setSides s x1) := by
  unfold State.setSides
  repeat' first | intro _ | with_reducible assumption | with_reducible apply keeps_foldl | with_reducible apply keeps_foldl_fst | with_reducible exact keeps_of_fst (by assumption) (by assumption) | with_reducible apply keeps_ite | simp only [keeps_upd, keeps_upd_evt, id_eq] | split

theorem keeps_dropSides {s : State} (h : Keeps v q s) : Keeps v q (State.dropSides s) := by
  unfold State.dropSides
  repeat' first | intro _ | with_reducible assumption | with_reducible apply keeps_setSides | with_reducible exact keeps_of_fst (by assumption) (by assumption) | with_reducible apply keeps_ite | simp only [keeps_upd, keeps_upd_evt, id_eq] | split

theorem keeps_tickRing {s : State} (h : Keeps v q s) : Keeps v q (State.tickRing s) := by
  unfold State.tickRing
  repeat' first | intro _ | with_reducible assumption | with_reducible apply keeps_foldl | with_reducible apply keeps_foldl_fst | with_reducible apply keeps_setSides | with_reducible apply keeps_setQstate | with_reducible exact keeps_of_fst (by assumption) (by assumption) | with_reducible apply keeps_ite | simp only [keeps_upd, keeps_upd_evt, id_eq] | split

theorem keeps_dieStacksOut {s : State} (h : Keeps v q s) (x1 : _) : Keeps v q (State.dieStacksOut s x1) := by
  unfold State.dieStacksOut
  repeat' first | intro _ | with_reducible assumption | with_reducible apply keeps_foldl | with_reducible apply keeps_foldl_fst | with_reducible apply keeps_modUnit | with_reducible exact keeps_of_fst (by assumption) (by assumption) | with_reducible apply keeps_ite | simp only [keeps_upd, keeps_upd_evt, id_eq] | split

theorem keeps_dieOff {s : State} (h : Keeps v q s) (x1 : _) : Keeps v q (State.dieOff s x1) := by
  unfold State.dieOff
  repeat' first | intro _ | with_reducible assumption | with_reducible apply keeps_foldl | with_reducible apply keeps_foldl_fst | with_reducible apply keeps_logEvent | with_reducible apply keeps_dropSides | with_reducible apply keeps_setQstate | with_reducible apply keeps_dieStacksOut | with_reducible apply keeps_requestAbort | with_reducible apply keeps_takeL3 | with_reducible exact keeps_of_fst (by assumption) (by assumption) | with_reducible apply keeps_ite | simp only [keeps_upd, keeps_upd_evt, id_eq] | split

theorem keeps_checkDies {s : State} (h : Keeps v q s) : Keeps v q (State.checkDies s) := by
  unfold State.checkDies
  repeat' first | intro _ | with_reducible assumption | with_reducible apply keeps_foldl | with_reducible apply keeps_foldl_fst | with_reducible apply keeps_dieOff | with_reducible apply keeps_dropSides | with_reducible exact keeps_of_fst (by assumption) (by assumption) | with_reducible apply keeps_ite | simp only [keeps_upd, keeps_upd_evt, id_eq] | split

theorem keeps_quadOut {s : State} (h : Keeps v q s) (x1 : _) : Keeps v q (State.quadOut s x1) := by
  unfold State.quadOut
  repeat' first | intro _ | with_reducible assumption | with_reducible apply keeps_checkDies | with_reducible apply keeps_logEvent | with_reducible apply keeps_setQstate | with_reducible exact keeps_of_fst (by assumption) (by assumption) | with_reducible apply keeps_ite | simp only [keeps_upd, keeps_upd_evt, id_eq] | split

theorem keeps_doBridgeRetrain {s : State} (h : Keeps v q s) (x0 : _) : Keeps v q (doBridgeRetrain x0 s) := by
  unfold doBridgeRetrain
  repeat' first | intro _ | with_reducible assumption | with_reducible apply keeps_logEvent | with_reducible apply keeps_setQstate | with_reducible apply keeps_quadOut | with_reducible apply keeps_checkDies | with_reducible exact keeps_of_fst (by assumption) (by assumption) | with_reducible apply keeps_ite | simp only [keeps_upd, keeps_upd_evt, id_eq] | split

theorem keeps_doBridgeTrainDone {s : State} (h : Keeps v q s) (x0 : _) (x1 : _) : Keeps v q (doBridgeTrainDone x0 x1 s) := by
  unfold doBridgeTrainDone
  repeat' first | intro _ | with_reducible assumption | with_reducible apply keeps_quadOut | with_reducible exact keeps_of_fst (by assumption) (by assumption) | with_reducible apply keeps_ite | simp only [keeps_upd, keeps_upd_evt, id_eq] | split

theorem keeps_doQuadSelfCheckFault {s : State} (h : Keeps v q s) (x0 : _) : Keeps v q (doQuadSelfCheckFault x0 s) := by
  unfold doQuadSelfCheckFault
  repeat' first | intro _ | with_reducible assumption | with_reducible apply keeps_quadOut | with_reducible exact keeps_of_fst (by assumption) (by assumption) | with_reducible apply keeps_ite | simp only [keeps_upd, keeps_upd_evt, id_eq] | split

theorem keeps_syncUnits {s : State} (h : Keeps v q s) : Keeps v q (State.syncUnits s) := by
  unfold State.syncUnits
  repeat' first | intro _ | with_reducible assumption | with_reducible apply keeps_checkDies | with_reducible apply keeps_syncPorts | with_reducible exact keeps_of_fst (by assumption) (by assumption) | with_reducible apply keeps_ite | simp only [keeps_upd, keeps_upd_evt, id_eq] | split

theorem keeps_nextClk {s : State} (h : Keeps v q s) (x1 : _) : Keeps v q (State.nextClk s x1) := by
  unfold State.nextClk
  simp only []
  have e : ∀ u : State, Keeps v q u → Keeps v q { u with old := [], mig := { u.mig with freed := [], freedM := [] } } := fun u k =>
    ⟨k.1, k.2, k.3, k.4, fun _ ho => by cases ho⟩
  refine e _ (keeps_foldl (keeps_rwiTake (keeps_shadowTake (keeps_ite h (keeps_syncUnits (keeps_applyGroups (keeps_upd.2 h) _ _))))) ?_)
  intro b a hb
  exact keeps_flushPba hb _

theorem keeps_endClk0 {s : State} (h : Keeps v q s) : Keeps v q (State.endClk0 s) := by
  unfold State.endClk0
  repeat' first | intro _ | with_reducible assumption | with_reducible apply keeps_grantWakes | with_reducible apply keeps_syncUnits | with_reducible apply keeps_doStrobeAtApply | with_reducible exact keeps_of_fst (by assumption) (by assumption) | with_reducible apply keeps_ite | simp only [keeps_upd, keeps_upd_evt, id_eq] | split

theorem keeps_idleClk {s : State} (h : Keeps v q s) : Keeps v q (idleClk s) := by
  unfold idleClk
  repeat' first | intro _ | with_reducible assumption | with_reducible apply keeps_endClk0 | with_reducible apply keeps_nextClk | with_reducible exact keeps_of_fst (by assumption) (by assumption) | with_reducible apply keeps_ite | simp only [keeps_upd, keeps_upd_evt, id_eq] | split

theorem keeps_giveVerdict {s : State} (h : Keeps v q s) : Keeps v q (State.giveVerdict s) := by
  unfold State.giveVerdict
  repeat' first | intro _ | with_reducible assumption | with_reducible apply keeps_send | with_reducible exact keeps_of_fst (by assumption) (by assumption) | with_reducible apply keeps_ite | simp only [keeps_upd, keeps_upd_evt, id_eq] | split

theorem keeps_doVerdictForm {s : State} (h : Keeps v q s) : Keeps v q (doVerdictForm s) := by
  unfold doVerdictForm
  repeat' first | intro _ | with_reducible assumption | with_reducible apply keeps_giveVerdict | with_reducible exact keeps_of_fst (by assumption) (by assumption) | with_reducible apply keeps_ite | simp only [keeps_upd, keeps_upd_evt, id_eq] | split

theorem keeps_askAgain {s : State} (h : Keeps v q s) (x1 : _) : Keeps v q (State.askAgain s x1) := by
  unfold State.askAgain
  repeat' first | intro _ | with_reducible assumption | with_reducible apply keeps_send | with_reducible exact keeps_of_fst (by assumption) (by assumption) | with_reducible apply keeps_ite | simp only [keeps_upd, keeps_upd_evt, id_eq] | split

theorem keeps_doVerdictReceive {s : State} (h : Keeps v q s) (x0 : _) (x1 : _) : Keeps v q (doVerdictReceive x0 x1 s) := by
  unfold doVerdictReceive
  repeat' first | intro _ | with_reducible assumption | with_reducible apply keeps_askAgain | with_reducible exact keeps_of_fst (by assumption) (by assumption) | with_reducible apply keeps_ite | simp only [keeps_upd, keeps_upd_evt, id_eq] | split

theorem keeps_doVerdictReply {s : State} (h : Keeps v q s) (x0 : _) : Keeps v q (doVerdictReply x0 s) := by
  unfold doVerdictReply
  repeat' first | intro _ | with_reducible assumption | with_reducible exact keeps_of_fst (by assumption) (by assumption) | with_reducible apply keeps_ite | simp only [keeps_upd, keeps_upd_evt, id_eq] | split

theorem keeps_doVerdictTimeout {s : State} (h : Keeps v q s) : Keeps v q (doVerdictTimeout s) := by
  unfold doVerdictTimeout
  repeat' first | intro _ | with_reducible assumption | with_reducible exact keeps_of_fst (by assumption) (by assumption) | with_reducible apply keeps_ite | simp only [keeps_upd, keeps_upd_evt, id_eq] | split

theorem keeps_doVerdictRequest {s : State} (h : Keeps v q s) (x0 : _) (x1 : _) : Keeps v q (doVerdictRequest x0 x1 s) := by
  unfold doVerdictRequest
  repeat' first | intro _ | with_reducible assumption | with_reducible apply keeps_putControl | with_reducible exact keeps_of_fst (by assumption) (by assumption) | with_reducible apply keeps_ite | simp only [keeps_upd, keeps_upd_evt, id_eq] | split

theorem keeps_countMarkers {s : State} (h : Keeps v q s) : Keeps v q (State.countMarkers s) := by
  unfold State.countMarkers
  repeat' first | intro _ | with_reducible assumption | with_reducible apply keeps_foldl | with_reducible apply keeps_foldl_fst | with_reducible apply keeps_modPort | with_reducible exact keeps_of_fst (by assumption) (by assumption) | with_reducible apply keeps_ite | simp only [keeps_upd, keeps_upd_evt, id_eq] | split

theorem keeps_sendMarker {s : State} (h : Keeps v q s) (x1 : _) : Keeps v q (State.sendMarker s x1) := by
  unfold State.sendMarker
  repeat' first | intro _ | with_reducible assumption | with_reducible apply keeps_send | with_reducible exact keeps_of_fst (by assumption) (by assumption) | with_reducible apply keeps_ite | simp only [keeps_upd, keeps_upd_evt, id_eq] | split

theorem keeps_newBeat {s : State} (h : Keeps v q s) : Keeps v q (State.newBeat s) := by
  unfold State.newBeat
  repeat' first | intro _ | with_reducible assumption | with_reducible exact keeps_of_fst (by assumption) (by assumption) | with_reducible apply keeps_ite | simp only [keeps_upd, keeps_upd_evt, id_eq] | split

theorem keeps_overrunStream {s : State} (h : Keeps v q s) (x1 : _) (x2 : _) : Keeps v q (State.overrunStream s x1 x2) := by
  unfold State.overrunStream
  repeat' first | intro _ | with_reducible assumption | with_reducible apply keeps_foldl | with_reducible apply keeps_foldl_fst | with_reducible apply keeps_modTile | with_reducible apply keeps_modStep | with_reducible apply keeps_logTile | with_reducible apply keeps_modSeq | with_reducible exact keeps_of_fst (by assumption) (by assumption) | with_reducible apply keeps_ite | simp only [keeps_upd, keeps_upd_evt, id_eq] | split

theorem keeps_passBeat {s : State} (h : Keeps v q s) (x1 : _) (x2 : _) : Keeps v q (State.passBeat s x1 x2) := by
  unfold State.passBeat
  repeat' first | intro _ | with_reducible assumption | with_reducible apply keeps_passSync | with_reducible exact keeps_of_fst (by assumption) (by assumption) | with_reducible apply keeps_ite | simp only [keeps_upd, keeps_upd_evt, id_eq] | split

theorem keeps_tickTiles {s : State} (h : Keeps v q s) : Keeps v q (State.tickTiles s) := by
  unfold State.tickTiles
  repeat' first | intro _ | with_reducible assumption | with_reducible apply keeps_foldl | with_reducible apply keeps_foldl_fst | with_reducible apply keeps_passBeat | with_reducible apply keeps_overrunStream | with_reducible exact keeps_of_fst (by assumption) (by assumption) | with_reducible apply keeps_ite | simp only [keeps_upd, keeps_upd_evt, id_eq] | split

theorem keeps_tickSteps {s : State} (h : Keeps v q s) : Keeps v q (State.tickSteps s) := by
  unfold State.tickSteps
  repeat' first | intro _ | with_reducible assumption | with_reducible apply keeps_foldl | with_reducible apply keeps_foldl_fst | with_reducible apply keeps_modStep | with_reducible exact keeps_of_fst (by assumption) (by assumption) | with_reducible apply keeps_ite | simp only [keeps_upd, keeps_upd_evt, id_eq] | split

theorem keeps_loseVerdict {s : State} (h : Keeps v q s) : Keeps v q (State.loseVerdict s) := by
  unfold State.loseVerdict
  repeat' first | intro _ | with_reducible assumption | with_reducible apply keeps_logDev | with_reducible apply keeps_putControl | with_reducible exact keeps_of_fst (by assumption) (by assumption) | with_reducible apply keeps_ite | simp only [keeps_upd, keeps_upd_evt, id_eq] | split

theorem keeps_takeVerdict {s : State} (h : Keeps v q s) : Keeps v q (State.takeVerdict s) := by
  unfold State.takeVerdict
  repeat' first | intro _ | with_reducible assumption | with_reducible apply keeps_loseVerdict | with_reducible exact keeps_of_fst (by assumption) (by assumption) | with_reducible apply keeps_ite | simp only [keeps_upd, keeps_upd_evt, id_eq] | split

theorem keeps_tickCounts {s : State} (h : Keeps v q s) (x1 : _) : Keeps v q (State.tickCounts s x1) := by
  unfold State.tickCounts
  repeat' first | intro _ | with_reducible assumption | with_reducible apply keeps_tickRing | with_reducible apply keeps_celRefill | with_reducible exact keeps_of_fst (by assumption) (by assumption) | with_reducible apply keeps_ite | simp only [keeps_upd, keeps_upd_evt, id_eq] | split

theorem keeps_tickTakeover {s : State} (h : Keeps v q s) : Keeps v q (State.tickTakeover s) := by
  unfold State.tickTakeover
  repeat' first | intro _ | with_reducible assumption | with_reducible exact keeps_of_fst (by assumption) (by assumption) | with_reducible apply keeps_ite | simp only [keeps_upd, keeps_upd_evt, id_eq] | split

theorem keeps_tickWatchdog {s : State} (h : Keeps v q s) : Keeps v q (State.tickWatchdog s) := by
  unfold State.tickWatchdog
  repeat' first | intro _ | with_reducible assumption | with_reducible apply keeps_takeL3 | with_reducible exact keeps_of_fst (by assumption) (by assumption) | with_reducible apply keeps_ite | simp only [keeps_upd, keeps_upd_evt, id_eq] | split

theorem keeps_doTick {s : State} (h : Keeps v q s) : Keeps v q (doTick s) := by
  unfold doTick
  repeat' first | intro _ | with_reducible assumption | with_reducible apply keeps_syncUnits | with_reducible apply keeps_doStrobeAtApply | with_reducible apply keeps_endClk0 | with_reducible apply keeps_finishVerdict | with_reducible apply keeps_giveVerdict | with_reducible apply keeps_takeVerdict | with_reducible apply keeps_armDue | with_reducible apply keeps_newBeat | with_reducible apply keeps_nextClk | with_reducible apply keeps_sendMarker | with_reducible apply keeps_countMarkers | with_reducible apply keeps_tickTiles | with_reducible apply keeps_tickSteps | with_reducible apply keeps_tickWatchdog | with_reducible apply keeps_tickTakeover | with_reducible apply keeps_tickCounts | with_reducible exact keeps_of_fst (by assumption) (by assumption) | with_reducible apply keeps_ite | simp only [keeps_upd, keeps_upd_evt, id_eq] | split

theorem keeps_measureTick {s : State} (h : Keeps v q s) (x1 : _) (x2 : _) : Keeps v q (State.measureTick s x1 x2) := by
  unfold State.measureTick
  repeat' first | intro _ | with_reducible assumption | with_reducible exact keeps_of_fst (by assumption) (by assumption) | with_reducible apply keeps_ite | simp only [keeps_upd, keeps_upd_evt, id_eq] | split

theorem keeps_takeMarker {s : State} (h : Keeps v q s) (x1 : _) (x2 : _) : Keeps v q (State.takeMarker s x1 x2) := by
  unfold State.takeMarker
  repeat' first | intro _ | with_reducible assumption | with_reducible apply keeps_modPort | with_reducible apply keeps_measureTick | with_reducible exact keeps_of_fst (by assumption) (by assumption) | with_reducible apply keeps_ite | simp only [keeps_upd, keeps_upd_evt, id_eq] | split

theorem keeps_doMarkerReceive {s : State} (h : Keeps v q s) (x0 : _) (x1 : _) : Keeps v q (doMarkerReceive x0 x1 s) := by
  unfold doMarkerReceive
  repeat' first | intro _ | with_reducible assumption | with_reducible apply keeps_askAgain | with_reducible apply keeps_modPort | with_reducible apply keeps_takeMarker | with_reducible exact keeps_of_fst (by assumption) (by assumption) | with_reducible apply keeps_ite | simp only [keeps_upd, keeps_upd_evt, id_eq] | split

theorem keeps_doHoldover {s : State} (h : Keeps v q s) : Keeps v q (doHoldover s) := by
  unfold doHoldover
  repeat' first | intro _ | with_reducible assumption | with_reducible apply keeps_abortAll | with_reducible apply keeps_logDev | with_reducible exact keeps_of_fst (by assumption) (by assumption) | with_reducible apply keeps_ite | simp only [keeps_upd, keeps_upd_evt, id_eq] | split

theorem keeps_doHoldoverClear {s : State} (h : Keeps v q s) : Keeps v q (doHoldoverClear s) := by
  unfold doHoldoverClear
  repeat' first | intro _ | with_reducible assumption | with_reducible exact keeps_of_fst (by assumption) (by assumption) | with_reducible apply keeps_ite | simp only [keeps_upd, keeps_upd_evt, id_eq] | split

theorem keeps_beatInBad {s : State} (h : Keeps v q s) (x1 : _) : Keeps v q (State.beatInBad s x1) := by
  unfold State.beatInBad
  repeat' first | intro _ | with_reducible assumption | with_reducible apply keeps_logDev | with_reducible exact keeps_of_fst (by assumption) (by assumption) | with_reducible apply keeps_ite | simp only [keeps_upd, keeps_upd_evt, id_eq] | split

theorem keeps_doBeatInPulse {s : State} (h : Keeps v q s) (x0 : _) : Keeps v q (doBeatInPulse x0 s) := by
  unfold doBeatInPulse
  repeat' first | intro _ | with_reducible assumption | with_reducible apply keeps_beatInBad | with_reducible exact keeps_of_fst (by assumption) (by assumption) | with_reducible apply keeps_ite | simp only [keeps_upd, keeps_upd_evt, id_eq] | split

theorem keeps_doBeatInErr {s : State} (h : Keeps v q s) : Keeps v q (doBeatInErr s) := by
  unfold doBeatInErr
  repeat' first | intro _ | with_reducible assumption | with_reducible apply keeps_beatInBad | with_reducible exact keeps_of_fst (by assumption) (by assumption) | with_reducible apply keeps_ite | simp only [keeps_upd, keeps_upd_evt, id_eq] | split

theorem keeps_abortHalt {s : State} (h : Keeps v q s) (x1 : _) (x2 : _) : Keeps v q (State.abortHalt s x1 x2) := by
  unfold State.abortHalt
  repeat' first | intro _ | with_reducible assumption | with_reducible apply keeps_requestAbort | with_reducible apply keeps_modStep | with_reducible apply keeps_msix | with_reducible exact keeps_of_fst (by assumption) (by assumption) | with_reducible apply keeps_ite | simp only [keeps_upd, keeps_upd_evt, id_eq] | split

theorem keeps_logPort {s : State} (h : Keeps v q s) (x1 : _) (x2 : _) (x3 : _) : Keeps v q (State.logPort s x1 x2 x3) := by
  unfold State.logPort
  repeat' first | intro _ | with_reducible assumption | with_reducible apply keeps_logEvent | with_reducible exact keeps_of_fst (by assumption) (by assumption) | with_reducible apply keeps_ite | simp only [keeps_upd, keeps_upd_evt, id_eq] | split

theorem keeps_portGoesDown {s : State} (h : Keeps v q s) (x1 : _) : Keeps v q (State.portGoesDown s x1) := by
  unfold State.portGoesDown
  repeat' first | intro _ | with_reducible assumption | with_reducible apply keeps_foldl | with_reducible apply keeps_foldl_fst | with_reducible apply keeps_modPort | with_reducible apply keeps_abortHalt | with_reducible apply keeps_logPort | with_reducible exact keeps_of_fst (by assumption) (by assumption) | with_reducible apply keeps_ite | simp only [keeps_upd, keeps_upd_evt, id_eq] | split

theorem keeps_degrade {s : State} (h : Keeps v q s) (x1 : _) (x2 : _) : Keeps v q (State.degrade s x1 x2) := by
  unfold State.degrade
  repeat' first | intro _ | with_reducible assumption | with_reducible apply keeps_logPort | with_reducible apply keeps_modPort | with_reducible apply keeps_portGoesDown | with_reducible exact keeps_of_fst (by assumption) (by assumption) | with_reducible apply keeps_ite | simp only [keeps_upd, keeps_upd_evt, id_eq] | split

theorem keeps_doLaneDegraded {s : State} (h : Keeps v q s) (x0 : _) (x1 : _) : Keeps v q (doLaneDegraded x0 x1 s) := by
  unfold doLaneDegraded
  repeat' first | intro _ | with_reducible assumption | with_reducible apply keeps_degrade | with_reducible exact keeps_of_fst (by assumption) (by assumption) | with_reducible apply keeps_ite | simp only [keeps_upd, keeps_upd_evt, id_eq] | split

theorem keeps_doLinkTrainingDone {s : State} (h : Keeps v q s) (x0 : _) (x1 : _) : Keeps v q (doLinkTrainingDone x0 x1 s) := by
  unfold doLinkTrainingDone
  repeat' first | intro _ | with_reducible assumption | with_reducible apply keeps_logPort | with_reducible apply keeps_modPort | with_reducible apply keeps_portGoesDown | with_reducible apply keeps_degrade | with_reducible exact keeps_of_fst (by assumption) (by assumption) | with_reducible apply keeps_ite | simp only [keeps_upd, keeps_upd_evt, id_eq] | split

theorem keeps_becomeMaster {s : State} (h : Keeps v q s) : Keeps v q (State.becomeMaster s) := by
  unfold State.becomeMaster
  repeat' first | intro _ | with_reducible assumption | with_reducible apply keeps_maltsterSet | with_reducible exact keeps_of_fst (by assumption) (by assumption) | with_reducible apply keeps_ite | simp only [keeps_upd, keeps_upd_evt, id_eq] | split

theorem keeps_becomeFollower {s : State} (h : Keeps v q s) : Keeps v q (State.becomeFollower s) := by
  unfold State.becomeFollower
  repeat' first | intro _ | with_reducible assumption | with_reducible apply keeps_maltsterSet | with_reducible exact keeps_of_fst (by assumption) (by assumption) | with_reducible apply keeps_ite | simp only [keeps_upd, keeps_upd_evt, id_eq] | split

theorem keeps_applyMap {s : State} (h : Keeps v q s) (x1 : _) (x2 : _) : Keeps v q (State.applyMap s x1 x2) := by
  unfold State.applyMap
  repeat' first | intro _ | with_reducible assumption | with_reducible apply keeps_maltsterSet | with_reducible apply keeps_advanceEpoch | with_reducible apply keeps_becomeMaster | with_reducible apply keeps_becomeFollower | with_reducible exact keeps_of_fst (by assumption) (by assumption) | with_reducible apply keeps_ite | simp only [keeps_upd, keeps_upd_evt, id_eq] | split

theorem keeps_streamRecords {s : State} (h : Keeps v q s) (x1 : _) (x2 : _) (x3 : _) : Keeps v q (State.streamRecords s x1 x2 x3) := by
  unfold State.streamRecords
  repeat' first | intro _ | with_reducible assumption | with_reducible apply keeps_foldl | with_reducible apply keeps_foldl_fst | with_reducible apply keeps_putTransfer | with_reducible exact keeps_of_fst (by assumption) (by assumption) | with_reducible apply keeps_ite | simp only [keeps_upd, keeps_upd_evt, id_eq] | split

theorem keeps_tkoStreams {s : State} (h : Keeps v q s) : Keeps v q (State.tkoStreams s) := by
  unfold State.tkoStreams
  repeat' first | intro _ | with_reducible assumption | with_reducible apply keeps_foldl | with_reducible apply keeps_foldl_fst | with_reducible apply keeps_streamRecords | with_reducible exact keeps_of_fst (by assumption) (by assumption) | with_reducible apply keeps_ite | simp only [keeps_upd, keeps_upd_evt, id_eq] | split

theorem keeps_remapTakeover {s : State} (h : Keeps v q s) : Keeps v q (State.remapTakeover s) := by
  unfold State.remapTakeover
  repeat' first | intro _ | with_reducible assumption | with_reducible apply keeps_foldl | with_reducible apply keeps_foldl_fst | with_reducible apply keeps_modCtx | with_reducible apply keeps_tkoStreams | with_reducible exact keeps_of_fst (by assumption) (by assumption) | with_reducible apply keeps_ite | simp only [keeps_upd, keeps_upd_evt, id_eq] | split

theorem keeps_remapReplies {s : State} (h : Keeps v q s) : Keeps v q (State.remapReplies s) := by
  unfold State.remapReplies
  repeat' first | intro _ | with_reducible assumption | with_reducible apply keeps_foldl | with_reducible apply keeps_foldl_fst | with_reducible apply keeps_lateReply | with_reducible exact keeps_of_fst (by assumption) (by assumption) | with_reducible apply keeps_ite | simp only [keeps_upd, keeps_upd_evt, id_eq] | split

theorem keeps_doRemapApply {s : State} (h : Keeps v q s) : Keeps v q (doRemapApply s) := by
  unfold doRemapApply
  repeat' first | intro _ | with_reducible assumption | with_reducible apply keeps_remapReplies | with_reducible apply keeps_remapTakeover | with_reducible apply keeps_applyMap | with_reducible exact keeps_of_fst (by assumption) (by assumption) | with_reducible apply keeps_ite | simp only [keeps_upd, keeps_upd_evt, id_eq] | split

theorem keeps_takeoverFails {s : State} (h : Keeps v q s) : Keeps v q (State.takeoverFails s) := by
  unfold State.takeoverFails
  repeat' first | intro _ | with_reducible assumption | with_reducible apply keeps_foldl | with_reducible apply keeps_foldl_fst | with_reducible apply keeps_logDev | with_reducible apply keeps_abortHalt | with_reducible exact keeps_of_fst (by assumption) (by assumption) | with_reducible apply keeps_ite | simp only [keeps_upd, keeps_upd_evt, id_eq] | split

theorem keeps_sendRemap {s : State} (h : Keeps v q s) (x1 : _) (x2 : _) (x3 : _) : Keeps v q (State.sendRemap s x1 x2 x3) := by
  unfold State.sendRemap
  repeat' first | intro _ | with_reducible assumption | with_reducible apply keeps_foldl | with_reducible apply keeps_foldl_fst | with_reducible apply keeps_putControl | with_reducible exact keeps_of_fst (by assumption) (by assumption) | with_reducible apply keeps_ite | simp only [keeps_upd, keeps_upd_evt, id_eq] | split

theorem keeps_startTakeover {s : State} (h : Keeps v q s) (x1 : _) : Keeps v q (State.startTakeover s x1) := by
  unfold State.startTakeover
  repeat' first | intro _ | with_reducible assumption | with_reducible apply keeps_foldl | with_reducible apply keeps_foldl_fst | with_reducible apply keeps_takeoverFails | with_reducible apply keeps_requestAbort | with_reducible apply keeps_logDev | with_reducible apply keeps_sendRemap | with_reducible exact keeps_of_fst (by assumption) (by assumption) | with_reducible apply keeps_ite | simp only [keeps_upd, keeps_upd_evt, id_eq] | split

theorem keeps_doPeerFailed {s : State} (h : Keeps v q s) (x0 : _) : Keeps v q (doPeerFailed x0 s) := by
  unfold doPeerFailed
  repeat' first | intro _ | with_reducible assumption | with_reducible apply keeps_foldl | with_reducible apply keeps_foldl_fst | with_reducible apply keeps_logEvent | with_reducible apply keeps_takeoverFails | with_reducible apply keeps_startTakeover | with_reducible apply keeps_abortHalt | with_reducible exact keeps_of_fst (by assumption) (by assumption) | with_reducible apply keeps_ite | simp only [keeps_upd, keeps_upd_evt, id_eq] | split

theorem keeps_tkoPromote {s : State} (h : Keeps v q s) (x1 : _) : Keeps v q (State.tkoPromote s x1) := by
  unfold State.tkoPromote
  repeat' first | intro _ | with_reducible assumption | with_reducible apply keeps_foldl | with_reducible apply keeps_foldl_fst | with_reducible apply keeps_requestMove | with_reducible exact keeps_of_fst (by assumption) (by assumption) | with_reducible apply keeps_ite | simp only [keeps_upd, keeps_upd_evt, id_eq] | split

theorem keeps_tkoBuild {s : State} (h : Keeps v q s) : Keeps v q (State.tkoBuild s) := by
  unfold State.tkoBuild
  repeat' first | intro _ | with_reducible assumption | with_reducible apply keeps_foldl | with_reducible apply keeps_foldl_fst | with_reducible apply keeps_tkoPromote | with_reducible apply keeps_modCtx | with_reducible exact keeps_of_fst (by assumption) (by assumption) | with_reducible apply keeps_ite | simp only [keeps_upd, keeps_upd_evt, id_eq] | split

theorem keeps_tkoCheck {s : State} (h : Keeps v q s) : Keeps v q (State.tkoCheck s) := by
  unfold State.tkoCheck
  repeat' first | intro _ | with_reducible assumption | with_reducible apply keeps_foldl | with_reducible apply keeps_foldl_fst | with_reducible apply keeps_logDev | with_reducible apply keeps_modStep | with_reducible apply keeps_msix | with_reducible apply keeps_tkoBuild | with_reducible exact keeps_of_fst (by assumption) (by assumption) | with_reducible apply keeps_ite | simp only [keeps_upd, keeps_upd_evt, id_eq] | split

theorem keeps_doTakeoverStreamDone {s : State} (h : Keeps v q s) (x0 : _) : Keeps v q (doTakeoverStreamDone x0 s) := by
  unfold doTakeoverStreamDone
  repeat' first | intro _ | with_reducible assumption | with_reducible apply keeps_tkoCheck | with_reducible exact keeps_of_fst (by assumption) (by assumption) | with_reducible apply keeps_ite | simp only [keeps_upd, keeps_upd_evt, id_eq] | split

theorem keeps_doTakeoverDone {s : State} (h : Keeps v q s) : Keeps v q (doTakeoverDone s) := by
  unfold doTakeoverDone
  repeat' first | intro _ | with_reducible assumption | with_reducible apply keeps_logDev | with_reducible exact keeps_of_fst (by assumption) (by assumption) | with_reducible apply keeps_ite | simp only [keeps_upd, keeps_upd_evt, id_eq] | split

theorem keeps_doSpareLost {s : State} (h : Keeps v q s) : Keeps v q (doSpareLost s) := by
  unfold doSpareLost
  repeat' first | intro _ | with_reducible assumption | with_reducible apply keeps_takeoverFails | with_reducible apply keeps_logDev | with_reducible exact keeps_of_fst (by assumption) (by assumption) | with_reducible apply keeps_ite | simp only [keeps_upd, keeps_upd_evt, id_eq] | split

theorem keeps_applyStretch {s : State} (h : Keeps v q s) : Keeps v q (State.applyStretch s) := by
  unfold State.applyStretch
  repeat' first | intro _ | with_reducible assumption | with_reducible apply keeps_arm | with_reducible apply keeps_setShadow | with_reducible exact keeps_of_fst (by assumption) (by assumption) | with_reducible apply keeps_ite | simp only [keeps_upd, keeps_upd_evt, id_eq] | split

theorem keeps_doStretchReport {s : State} (h : Keeps v q s) (x0 : _) (x1 : _) : Keeps v q (doStretchReport x0 x1 s) := by
  unfold doStretchReport
  repeat' first | intro _ | with_reducible assumption | with_reducible apply keeps_applyStretch | with_reducible exact keeps_of_fst (by assumption) (by assumption) | with_reducible apply keeps_ite | simp only [keeps_upd, keeps_upd_evt, id_eq] | split

theorem keeps_joinKey {s : State} (h : Keeps v q s) (x1 : _) (x2 : _) : Keeps v q (State.joinKey s x1 x2) := by
  unfold State.joinKey
  repeat' first | intro _ | with_reducible assumption | with_reducible apply keeps_logDev | with_reducible exact keeps_of_fst (by assumption) (by assumption) | with_reducible apply keeps_ite | simp only [keeps_upd, keeps_upd_evt, id_eq] | split

theorem keeps_join {s : State} (h : Keeps v q s) (x1 : _) (x2 : _) (x3 : _) (x4 : _) : Keeps v q (State.join s x1 x2 x3 x4) := by
  unfold State.join
  repeat' first | intro _ | with_reducible assumption | with_reducible apply keeps_joinKey | with_reducible apply keeps_arm | with_reducible apply keeps_setShadow | with_reducible apply keeps_becomeFollower | with_reducible exact keeps_of_fst (by assumption) (by assumption) | with_reducible apply keeps_ite | simp only [keeps_upd, keeps_upd_evt, id_eq] | split

theorem keeps_doBoardJoin {s : State} (h : Keeps v q s) (x0 : _) (x1 : _) (x2 : _) (x3 : _) (x4 : _) (x5 : _) : Keeps v q (doBoardJoin x0 x1 x2 x3 x4 x5 s) := by
  unfold doBoardJoin
  repeat' first | intro _ | with_reducible assumption | with_reducible apply keeps_command | with_reducible apply keeps_logEvent | with_reducible apply keeps_join | with_reducible exact keeps_of_fst (by assumption) (by assumption) | with_reducible apply keeps_ite | simp only [keeps_upd, keeps_upd_evt, id_eq] | split

theorem keeps_doBoardRemap {s : State} (h : Keeps v q s) (x0 : _) (x1 : _) (x2 : _) (x3 : _) : Keeps v q (doBoardRemap x0 x1 x2 x3 s) := by
  unfold doBoardRemap
  repeat' first | intro _ | with_reducible assumption | with_reducible apply keeps_command | with_reducible apply keeps_sendRemap | with_reducible exact keeps_of_fst (by assumption) (by assumption) | with_reducible apply keeps_ite | simp only [keeps_upd, keeps_upd_evt, id_eq] | split

theorem keeps_tellFail {s : State} (h : Keeps v q s) (x1 : _) : Keeps v q (State.tellFail s x1) := by
  unfold State.tellFail
  repeat' first | intro _ | with_reducible assumption | with_reducible apply keeps_putControl | with_reducible apply keeps_logEvent | with_reducible exact keeps_of_fst (by assumption) (by assumption) | with_reducible apply keeps_ite | simp only [keeps_upd, keeps_upd_evt, id_eq] | split

theorem keeps_doSpareTakeover {s : State} (h : Keeps v q s) (x0 : _) (x1 : _) : Keeps v q (doSpareTakeover x0 x1 s) := by
  unfold doSpareTakeover
  repeat' first | intro _ | with_reducible assumption | with_reducible apply keeps_command | with_reducible apply keeps_startTakeover | with_reducible apply keeps_tellFail | with_reducible exact keeps_of_fst (by assumption) (by assumption) | with_reducible apply keeps_ite | simp only [keeps_upd, keeps_upd_evt, id_eq] | split

theorem keeps_doMirrorSet {s : State} (h : Keeps v q s) (x0 : _) (x1 : _) (x2 : _) (x3 : _) (x4 : _) (x5 : _) : Keeps v q (doMirrorSet x0 x1 x2 x3 x4 x5 s) := by
  unfold doMirrorSet
  repeat' first | intro _ | with_reducible assumption | with_reducible apply keeps_command | with_reducible apply keeps_modCtx | with_reducible exact keeps_of_fst (by assumption) (by assumption) | with_reducible apply keeps_ite | simp only [keeps_upd, keeps_upd_evt, id_eq] | split

theorem keeps_doHello {s : State} (h : Keeps v q s) (x0 : _) : Keeps v q (doHello x0 s) := by
  unfold doHello
  repeat' first | intro _ | with_reducible assumption | with_reducible apply keeps_command | with_reducible apply keeps_modFn | with_reducible exact keeps_of_fst (by assumption) (by assumption) | with_reducible apply keeps_ite | simp only [keeps_upd, keeps_upd_evt, id_eq] | split

theorem keeps_openPart {s : State} (h : Keeps v q s) (x1 : _) : Keeps v q (State.openPart s x1) := by
  unfold State.openPart
  repeat' first | intro _ | with_reducible assumption | with_reducible exact keeps_of_fst (by assumption) (by assumption) | with_reducible apply keeps_ite | simp only [keeps_upd, keeps_upd_evt, id_eq] | split

theorem keeps_openCtx {s : State} (h : Keeps v q s) (x1 : _) (x2 : _) (x3 : _) : Keeps v q (State.openCtx s x1 x2 x3) := by
  unfold State.openCtx
  repeat' first | intro _ | with_reducible assumption | with_reducible apply keeps_foldl | with_reducible apply keeps_foldl_fst | with_reducible apply keeps_modCtx | with_reducible apply keeps_requestWake | with_reducible apply keeps_modTile | with_reducible apply keeps_openPart | with_reducible exact keeps_of_fst (by assumption) (by assumption) | with_reducible apply keeps_ite | simp only [keeps_upd, keeps_upd_evt, id_eq] | split

theorem keeps_doCtxOpen {s : State} (h : Keeps v q s) (x0 : _) (x1 : _) : Keeps v q (doCtxOpen x0 x1 s) := by
  unfold doCtxOpen
  repeat' first | intro _ | with_reducible assumption | with_reducible apply keeps_command | with_reducible apply keeps_openCtx | with_reducible exact keeps_of_fst (by assumption) (by assumption) | with_reducible apply keeps_ite | simp only [keeps_upd, keeps_upd_evt, id_eq] | split

theorem keeps_doCtxClose {s : State} (h : Keeps v q s) (x0 : _) : Keeps v q (doCtxClose x0 s) := by
  unfold doCtxClose
  repeat' first | intro _ | with_reducible assumption | with_reducible apply keeps_command | with_reducible apply keeps_endDetached | with_reducible apply keeps_closeCtx | with_reducible apply keeps_hostAbort | with_reducible exact keeps_of_fst (by assumption) (by assumption) | with_reducible apply keeps_ite | simp only [keeps_upd, keeps_upd_evt, id_eq] | split

theorem keeps_setSpills {s : State} (h : Keeps v q s) (x1 : _) : Keeps v q (State.setSpills s x1) := by
  unfold State.setSpills
  repeat' first | intro _ | with_reducible assumption | with_reducible apply keeps_foldl | with_reducible apply keeps_foldl_fst | with_reducible apply keeps_modTile | with_reducible exact keeps_of_fst (by assumption) (by assumption) | with_reducible apply keeps_ite | simp only [keeps_upd, keeps_upd_evt, id_eq] | split

theorem keeps_setDefer {s : State} (h : Keeps v q s) (x1 : _) : Keeps v q (State.setDefer s x1) := by
  unfold State.setDefer
  repeat' first | intro _ | with_reducible assumption | with_reducible apply keeps_foldl | with_reducible apply keeps_foldl_fst | with_reducible apply keeps_modCtx | with_reducible exact keeps_of_fst (by assumption) (by assumption) | with_reducible apply keeps_ite | simp only [keeps_upd, keeps_upd_evt, id_eq] | split

theorem keeps_setAreas {s : State} (h : Keeps v q s) (x1 : _) : Keeps v q (State.setAreas s x1) := by
  unfold State.setAreas
  repeat' first | intro _ | with_reducible assumption | with_reducible apply keeps_repin | with_reducible apply keeps_setDefer | with_reducible apply keeps_setSpills | with_reducible exact keeps_of_fst (by assumption) (by assumption) | with_reducible apply keeps_ite | simp only [keeps_upd, keeps_upd_evt, id_eq] | split

theorem keeps_shrink {s : State} (h : Keeps v q s) (x1 : _) : Keeps v q (State.shrink s x1).1 := by
  unfold State.shrink
  repeat' first | intro _ | with_reducible assumption | with_reducible apply keeps_foldl | with_reducible apply keeps_foldl_fst | with_reducible apply keeps_requestMove | with_reducible exact keeps_of_fst (by assumption) (by assumption) | with_reducible apply keeps_ite | simp only [keeps_upd, keeps_upd_evt, id_eq] | split

theorem keeps_setQuota {s : State} (h : Keeps v q s) (x1 : _) (x2 : _) : Keeps v q (State.setQuota s x1 x2) := by
  unfold State.setQuota
  repeat' first | intro _ | with_reducible assumption | with_reducible apply keeps_setAreas | with_reducible apply keeps_modCtx | with_reducible exact keeps_of_fst (by assumption) (by assumption) | with_reducible apply keeps_ite | simp only [keeps_upd, keeps_upd_evt, id_eq] | split

theorem keeps_doCtxQuotaSet {s : State} (h : Keeps v q s) (x0 : _) (x1 : _) : Keeps v q (doCtxQuotaSet x0 x1 s) := by
  unfold doCtxQuotaSet
  repeat' first | intro _ | with_reducible assumption | with_reducible apply keeps_command | with_reducible apply keeps_setQuota | with_reducible apply keeps_shrink | with_reducible exact keeps_of_fst (by assumption) (by assumption) | with_reducible apply keeps_ite | simp only [keeps_upd, keeps_upd_evt, id_eq] | split

theorem keeps_clearWindow {s : State} (h : Keeps v q s) (x1 : _) : Keeps v q (State.clearWindow s x1) := by
  unfold State.clearWindow
  repeat' first | intro _ | with_reducible assumption | with_reducible exact keeps_of_fst (by assumption) (by assumption) | with_reducible apply keeps_ite | simp only [keeps_upd, keeps_upd_evt, id_eq] | split

theorem keeps_adopt {s : State} (h : Keeps v q s) (x1 : _) (x2 : _) : Keeps v q (State.adopt s x1 x2) := by
  unfold State.adopt
  repeat' first | intro _ | with_reducible assumption | with_reducible apply keeps_foldl | with_reducible apply keeps_foldl_fst | with_reducible apply keeps_unmapRegion | with_reducible apply keeps_modCtx | with_reducible apply keeps_clearWindow | with_reducible apply keeps_msix | with_reducible apply keeps_logEvent | with_reducible exact keeps_of_fst (by assumption) (by assumption) | with_reducible apply keeps_ite | simp only [keeps_upd, keeps_upd_evt, id_eq] | split

theorem keeps_doCtxAdopt {s : State} (h : Keeps v q s) (x0 : _) : Keeps v q (doCtxAdopt x0 s) := by
  unfold doCtxAdopt
  repeat' first | intro _ | with_reducible assumption | with_reducible apply keeps_command | with_reducible apply keeps_adopt | with_reducible exact keeps_of_fst (by assumption) (by assumption) | with_reducible apply keeps_ite | simp only [keeps_upd, keeps_upd_evt, id_eq] | split

theorem keeps_doResetFunc {s : State} (h : Keeps v q s) (x0 : _) : Keeps v q (doResetFunc x0 s) := by
  unfold doResetFunc
  repeat' first | intro _ | with_reducible assumption | with_reducible apply keeps_command | with_reducible apply keeps_startL2 | with_reducible exact keeps_of_fst (by assumption) (by assumption) | with_reducible apply keeps_ite | simp only [keeps_upd, keeps_upd_evt, id_eq] | split

theorem keeps_doResetDevice {s : State} (h : Keeps v q s) (x0 : _) : Keeps v q (doResetDevice x0 s) := by
  unfold doResetDevice
  repeat' first | intro _ | with_reducible assumption | with_reducible apply keeps_command | with_reducible apply keeps_startL3 | with_reducible exact keeps_of_fst (by assumption) (by assumption) | with_reducible apply keeps_ite | simp only [keeps_upd, keeps_upd_evt, id_eq] | split

theorem keeps_placeAll {s : State} (h : Keeps v q s) (c : Nat) (r : Region) (n l : Nat) :
    ∀ t, placeAll c r n l s = some t → Keeps v q t := by
  induction n generalizing s l with
  | zero => intro t e; cases e; exact h
  | succ n ih =>
    intro t e
    unfold placeAll at e
    split at e
    · cases e
    · exact ih (keeps_modPent h _ _) _ _ e

theorem keeps_mapped {s : State} (h : Keeps v q s) (c : Nat) (r : MapReq) : ∀ t, s.mapped c r = some t → Keeps v q t.1 := by
  intro t e
  unfold State.mapped at e
  simp only [] at e
  repeat' split at e
  all_goals first
    | (cases e; done)
    | (cases e; exact h)
    | skip
  rw [Option.map_eq_some_iff] at e
  obtain ⟨a, ha, e⟩ := e
  subst e
  exact keeps_placeAll h _ _ _ _ _ ha

theorem keeps_addRegion {s : State} (h : Keeps v q s) (x1 : _) (x2 : _) : Keeps v q (State.addRegion s x1 x2) := by
  unfold State.addRegion
  repeat' first | intro _ | with_reducible assumption | with_reducible apply keeps_modCtx | with_reducible apply keeps_repin | with_reducible apply keeps_setAreas | with_reducible exact keeps_of_fst (by assumption) (by assumption) | with_reducible apply keeps_ite | simp only [keeps_upd, keeps_upd_evt, id_eq] | split

theorem keeps_doMemMap {s : State} (h : Keeps v q s) (x : ReqHdr) (r : MapReq) : Keeps v q (doMemMap x r s) := by
  unfold doMemMap
  refine keeps_command h _ _ _ _ _ _ (fun s hs => ?_) fun _ hs => hs
  split
  · rename_i t y e
    exact keeps_addRegion (keeps_mapped hs _ _ (t, y) e) _ _
  · exact hs

theorem keeps_doMemUnmap {s : State} (h : Keeps v q s) (x0 : _) (x1 : _) : Keeps v q (doMemUnmap x0 x1 s) := by
  unfold doMemUnmap
  repeat' first | intro _ | with_reducible assumption | with_reducible apply keeps_command | with_reducible apply keeps_unmapRegion | with_reducible exact keeps_of_fst (by assumption) (by assumption) | with_reducible apply keeps_ite | simp only [keeps_upd, keeps_upd_evt, id_eq] | split

theorem keeps_pinAll {s : State} (h : Keeps v q s) (x1 : _) (x2 : _) : Keeps v q (State.pinAll s x1 x2).1 := by
  unfold State.pinAll
  repeat' first | intro _ | with_reducible assumption | with_reducible apply keeps_foldl | with_reducible apply keeps_foldl_fst | with_reducible apply keeps_modPent | with_reducible apply keeps_requestMove | with_reducible exact keeps_of_fst (by assumption) (by assumption) | with_reducible apply keeps_ite | simp only [keeps_upd, keeps_upd_evt, id_eq] | split

theorem keeps_doMemPin {s : State} (h : Keeps v q s) (x : ReqHdr) (a b c : Nat) : Keeps v q (doMemPin x a b c s) := by
  unfold doMemPin
  refine keeps_command h _ _ _ _ _ _ (fun s' hs => ?_) fun _ hs => hs
  exact keeps_pinAll hs ((s'.named x.ctx a b).getD []) c

theorem keeps_doMemUnpin {s : State} (h : Keeps v q s) (x0 : _) (x1 : _) (x2 : _) : Keeps v q (doMemUnpin x0 x1 x2 s) := by
  unfold doMemUnpin
  repeat' first | intro _ | with_reducible assumption | with_reducible apply keeps_foldl | with_reducible apply keeps_foldl_fst | with_reducible apply keeps_command | with_reducible apply keeps_modPent | with_reducible exact keeps_of_fst (by assumption) (by assumption) | with_reducible apply keeps_ite | simp only [keeps_upd, keeps_upd_evt, id_eq] | split

theorem keeps_doMemHint {s : State} (h : Keeps v q s) (x0 : _) (x1 : _) (x2 : _) (x3 : _) : Keeps v q (doMemHint x0 x1 x2 x3 s) := by
  unfold doMemHint
  repeat' first | intro _ | with_reducible assumption | with_reducible apply keeps_foldl | with_reducible apply keeps_foldl_fst | with_reducible apply keeps_command | with_reducible apply keeps_requestMove | with_reducible exact keeps_of_fst (by assumption) (by assumption) | with_reducible apply keeps_ite | simp only [keeps_upd, keeps_upd_evt, id_eq] | split

theorem keeps_getRelease {s : State} (h : Keeps v q s) (x1 : _) (x2 : _) : Keeps v q (State.getRelease s x1 x2) := by
  unfold State.getRelease
  repeat' first | intro _ | with_reducible assumption | with_reducible apply keeps_setCask | with_reducible exact keeps_of_fst (by assumption) (by assumption) | with_reducible apply keeps_ite | simp only [keeps_upd, keeps_upd_evt, id_eq] | split

theorem keeps_complete {s : State} (h : Keeps v q s) (x1 : _) (x2 : _) (x3 : _) : Keeps v q (State.complete s x1 x2 x3) := by
  unfold State.complete
  repeat' first | intro _ | with_reducible assumption | with_reducible apply keeps_settle | with_reducible apply keeps_endGrants | with_reducible apply keeps_retire | with_reducible exact keeps_of_fst (by assumption) (by assumption) | with_reducible apply keeps_ite | simp only [keeps_upd, keeps_upd_evt, id_eq] | split

theorem keeps_doInsnComplete {s : State} (h : Keeps v q s) (x0 : _) (x1 : _) (x2 : _) : Keeps v q (doInsnComplete x0 x1 x2 s) := by
  unfold doInsnComplete
  repeat' first | intro _ | with_reducible assumption | with_reducible apply keeps_complete | with_reducible apply keeps_getRelease | with_reducible apply keeps_consume | with_reducible exact keeps_of_fst (by assumption) (by assumption) | with_reducible apply keeps_ite | simp only [keeps_upd, keeps_upd_evt, id_eq] | split

theorem keeps_dropReleased {s : State} (h : Keeps v q s) (x1 : _) : Keeps v q (State.dropReleased s x1) := by
  unfold State.dropReleased
  repeat' first | intro _ | with_reducible assumption | with_reducible apply keeps_modTile | with_reducible exact keeps_of_fst (by assumption) (by assumption) | with_reducible apply keeps_ite | simp only [keeps_upd, keeps_upd_evt, id_eq] | split

theorem keeps_endReqs {s : State} (h : Keeps v q s) (x1 : _) : Keeps v q (State.endReqs s x1) := by
  unfold State.endReqs
  repeat' first | intro _ | with_reducible assumption | with_reducible apply keeps_freeTags | with_reducible apply keeps_modXfer | with_reducible exact keeps_of_fst (by assumption) (by assumption) | with_reducible apply keeps_ite | simp only [keeps_upd, keeps_upd_evt, id_eq] | split

theorem keeps_moveXfer {s : State} (h : Keeps v q s) (x1 : _) (x2 : _) (x3 : _) (x4 : _) : Keeps v q (State.moveXfer s x1 x2 x3 x4) := by
  unfold State.moveXfer
  repeat' first | intro _ | with_reducible assumption | with_reducible apply keeps_foldl | with_reducible apply keeps_foldl_fst | with_reducible apply keeps_rasFind | with_reducible apply keeps_dmaRun | with_reducible apply keeps_asBefore | with_reducible apply keeps_linkMove | with_reducible apply keeps_postMove | with_reducible apply keeps_dropReleased | with_reducible apply keeps_endReqs | with_reducible apply keeps_afterAll | with_reducible exact keeps_of_fst (by assumption) (by assumption) | with_reducible apply keeps_ite | simp only [keeps_upd, keeps_upd_evt, id_eq] | split

theorem keeps_doHostCompletionTimeout {s : State} (h : Keeps v q s) (x0 : _) : Keeps v q (doHostCompletionTimeout x0 s) := by
  unfold doHostCompletionTimeout
  repeat' first | intro _ | with_reducible assumption | with_reducible apply keeps_moveXfer | with_reducible exact keeps_of_fst (by assumption) (by assumption) | with_reducible apply keeps_ite | simp only [keeps_upd, keeps_upd_evt, id_eq] | split

theorem keeps_winFail {s : State} (h : Keeps v q s) (x1 : _) (x2 : _) (x3 : _) (x4 : _) : Keeps v q (State.winFail s x1 x2 x3 x4) := by
  unfold State.winFail
  repeat' first | intro _ | with_reducible assumption | with_reducible apply keeps_modFn | with_reducible apply keeps_logEvent | with_reducible exact keeps_of_fst (by assumption) (by assumption) | with_reducible apply keeps_ite | simp only [keeps_upd, keeps_upd_evt, id_eq] | split

theorem keeps_flagsVisible {s : State} (h : Keeps v q s) (x1 : _) : Keeps v q (State.flagsVisible s x1) := by
  unfold State.flagsVisible
  repeat' first | intro _ | with_reducible assumption | with_reducible apply keeps_foldl | with_reducible apply keeps_foldl_fst | with_reducible apply keeps_modFn | with_reducible exact keeps_of_fst (by assumption) (by assumption) | with_reducible apply keeps_ite | simp only [keeps_upd, keeps_upd_evt, id_eq] | split

theorem keeps_landWrite {s : State} (h : Keeps v q s) (x1 : _) : Keeps v q (State.landWrite s x1) := by
  unfold State.landWrite
  repeat' first | intro _ | with_reducible assumption | with_reducible apply keeps_winFail | with_reducible apply keeps_putRowCa | with_reducible apply keeps_heatCa | with_reducible apply keeps_flagsVisible | with_reducible exact keeps_of_fst (by assumption) (by assumption) | with_reducible apply keeps_ite | simp only [keeps_upd, keeps_upd_evt, id_eq] | split

theorem keeps_landHeld (l e : List HeldWrite) {s : State} (h : Keeps v q s) : Keeps v q (landHeld e l s) := by
  induction l generalizing s e with
  | nil => exact keeps_upd.2 h
  | cons w r ih =>
    unfold landHeld
    exact keeps_ite (ih _ (keeps_landWrite h _)) (ih _ h)

theorem keeps_releaseHeld {s : State} (h : Keeps v q s) : Keeps v q (State.releaseHeld s) := by
  unfold State.releaseHeld
  repeat' first | intro _ | with_reducible assumption | with_reducible apply keeps_foldl | with_reducible apply keeps_foldl_fst | with_reducible apply keeps_landHeld | with_reducible apply keeps_unblock | with_reducible exact keeps_of_fst (by assumption) (by assumption) | with_reducible apply keeps_ite | simp only [keeps_upd, keeps_upd_evt, id_eq] | split

theorem keeps_flagWide {s : State} (h : Keeps v q s) (x1 : _) (x2 : _) : Keeps v q (State.flagWide s x1 x2) := by
  unfold State.flagWide
  repeat' first | intro _ | with_reducible assumption | with_reducible apply keeps_modHport | with_reducible apply keeps_modStep | with_reducible apply keeps_logEvent | with_reducible exact keeps_of_fst (by assumption) (by assumption) | with_reducible apply keeps_ite | simp only [keeps_upd, keeps_upd_evt, id_eq] | split

theorem keeps_takeWrite {s : State} (h : Keeps v q s) (x1 : _) : Keeps v q (State.takeWrite s x1) := by
  unfold State.takeWrite
  repeat' first | intro _ | with_reducible assumption | with_reducible apply keeps_foldl | with_reducible apply keeps_foldl_fst | with_reducible apply keeps_flagWide | with_reducible apply keeps_landWrite | with_reducible apply keeps_unblock | with_reducible apply keeps_modHport | with_reducible exact keeps_of_fst (by assumption) (by assumption) | with_reducible apply keeps_ite | simp only [keeps_upd, keeps_upd_evt, id_eq] | split

theorem keeps_doWindowWrite {s : State} (h : Keeps v q s) (x0 : _) (x1 : _) (x2 : _) (x3 : _) (x4 : _) (x5 : _) : Keeps v q (doWindowWrite x0 x1 x2 x3 x4 x5 s) := by
  unfold doWindowWrite
  repeat' first | intro _ | with_reducible assumption | with_reducible apply keeps_modFn | with_reducible apply keeps_winFail | with_reducible apply keeps_takeWrite | with_reducible exact keeps_of_fst (by assumption) (by assumption) | with_reducible apply keeps_ite | simp only [keeps_upd, keeps_upd_evt, id_eq] | split

theorem keeps_landFlag (l e : List HeldWrite) {s : State} (h : Keeps v q s) (f n : Nat) : Keeps v q (landFlag f n e l s) := by
  induction l generalizing s e with
  | nil => exact h
  | cons w r ih =>
    unfold landFlag
    exact keeps_ite (keeps_landWrite (keeps_upd.2 h) _) (ih _ h)

theorem keeps_doFlagVisible {s : State} (h : Keeps v q s) (x0 : _) (x1 : _) : Keeps v q (doFlagVisible x0 x1 s) := by
  unfold doFlagVisible
  repeat' first | intro _ | with_reducible assumption | with_reducible apply keeps_releaseHeld | with_reducible apply keeps_landFlag | with_reducible exact keeps_of_fst (by assumption) (by assumption) | with_reducible apply keeps_ite | simp only [keeps_upd, keeps_upd_evt, id_eq] | split

theorem keeps_doWindowRead {s : State} (h : Keeps v q s) (x0 : _) (x1 : _) (x2 : _) (x3 : _) : Keeps v q (doWindowRead x0 x1 x2 x3 s) := by
  unfold doWindowRead
  repeat' first | intro _ | with_reducible assumption | with_reducible apply keeps_send | with_reducible apply keeps_modFn | with_reducible apply keeps_winFail | with_reducible apply keeps_hostFail | with_reducible apply keeps_countWait | with_reducible apply keeps_heatCa | with_reducible exact keeps_of_fst (by assumption) (by assumption) | with_reducible apply keeps_ite | simp only [keeps_upd, keeps_upd_evt, id_eq] | split

theorem keeps_doMoveComplete {s : State} (h : Keeps v q s) (x0 : _) : Keeps v q (doMoveComplete x0 s) := by
  unfold doMoveComplete
  repeat' first | intro _ | with_reducible assumption | with_reducible apply keeps_finishMove | with_reducible apply keeps_releaseHeld | with_reducible apply keeps_deferArrive | with_reducible apply keeps_withdraw | with_reducible exact keeps_of_fst (by assumption) (by assumption) | with_reducible apply keeps_ite | simp only [keeps_upd, keeps_upd_evt, id_eq] | split

theorem keeps_clearDir {s : State} (h : Keeps v q s) (x1 : _) : Keeps v q (State.clearDir s x1) := by
  unfold State.clearDir
  repeat' first | intro _ | with_reducible assumption | with_reducible apply keeps_zero | with_reducible exact keeps_of_fst (by assumption) (by assumption) | with_reducible apply keeps_ite | simp only [keeps_upd, keeps_upd_evt, id_eq] | split

theorem keeps_loadProg {s : State} (h : Keeps v q s) (x1 : _) (x2 : _) (x3 : _) (x4 : _) : Keeps v q (State.loadProg s x1 x2 x3 x4) := by
  unfold State.loadProg
  repeat' first | intro _ | with_reducible assumption | with_reducible apply keeps_foldl | with_reducible apply keeps_foldl_fst | with_reducible apply keeps_reloadTile | with_reducible apply keeps_clearDir | with_reducible apply keeps_modTile | with_reducible apply keeps_repin | with_reducible apply keeps_modCtx | with_reducible exact keeps_of_fst (by assumption) (by assumption) | with_reducible apply keeps_ite | simp only [keeps_upd, keeps_upd_evt, id_eq] | split

theorem keeps_doProgLoad {s : State} (h : Keeps v q s) (x0 : _) (x1 : _) (x2 : _) : Keeps v q (doProgLoad x0 x1 x2 s) := by
  unfold doProgLoad
  repeat' first | intro _ | with_reducible assumption | with_reducible apply keeps_command | with_reducible apply keeps_loadProg | with_reducible exact keeps_of_fst (by assumption) (by assumption) | with_reducible apply keeps_ite | simp only [keeps_upd, keeps_upd_evt, id_eq] | split

theorem keeps_doProgUnload {s : State} (h : Keeps v q s) (x0 : _) : Keeps v q (doProgUnload x0 s) := by
  unfold doProgUnload
  repeat' first | intro _ | with_reducible assumption | with_reducible apply keeps_command | with_reducible apply keeps_unloadProg | with_reducible exact keeps_of_fst (by assumption) (by assumption) | with_reducible apply keeps_ite | simp only [keeps_upd, keeps_upd_evt, id_eq] | split

theorem keeps_doStepArm {s : State} (h : Keeps v q s) (x0 : _) (x1 : _) (x2 : _) : Keeps v q (doStepArm x0 x1 x2 s) := by
  unfold doStepArm
  repeat' first | intro _ | with_reducible assumption | with_reducible apply keeps_command | with_reducible apply keeps_modStep | with_reducible exact keeps_of_fst (by assumption) (by assumption) | with_reducible apply keeps_ite | simp only [keeps_upd, keeps_upd_evt, id_eq] | split

theorem keeps_runAgain {s : State} (h : Keeps v q s) (x1 : _) : Keeps v q (State.runAgain s x1) := by
  unfold State.runAgain
  repeat' first | intro _ | with_reducible assumption | with_reducible apply keeps_logLevel | with_reducible apply keeps_modCtx | with_reducible apply keeps_tkoCheck | with_reducible exact keeps_of_fst (by assumption) (by assumption) | with_reducible apply keeps_ite | simp only [keeps_upd, keeps_upd_evt, id_eq] | split

theorem keeps_doStepRun {s : State} (h : Keeps v q s) (x0 : _) : Keeps v q (doStepRun x0 s) := by
  unfold doStepRun
  repeat' first | intro _ | with_reducible assumption | with_reducible apply keeps_command | with_reducible apply keeps_runAgain | with_reducible apply keeps_modStep | with_reducible exact keeps_of_fst (by assumption) (by assumption) | with_reducible apply keeps_ite | simp only [keeps_upd, keeps_upd_evt, id_eq] | split

theorem keeps_endRun {s : State} (h : Keeps v q s) (x1 : _) : Keeps v q (State.endRun s x1) := by
  unfold State.endRun
  repeat' first | intro _ | with_reducible assumption | with_reducible apply keeps_modStep | with_reducible exact keeps_of_fst (by assumption) (by assumption) | with_reducible apply keeps_ite | simp only [keeps_upd, keeps_upd_evt, id_eq] | split

theorem keeps_doStepAbort {s : State} (h : Keeps v q s) (x0 : _) : Keeps v q (doStepAbort x0 s) := by
  unfold doStepAbort
  repeat' first | intro _ | with_reducible assumption | with_reducible apply keeps_command | with_reducible apply keeps_endRun | with_reducible apply keeps_hostAbort | with_reducible exact keeps_of_fst (by assumption) (by assumption) | with_reducible apply keeps_ite | simp only [keeps_upd, keeps_upd_evt, id_eq] | split

theorem keeps_doStepStatus {s : State} (h : Keeps v q s) (x0 : _) : Keeps v q (doStepStatus x0 s) := by
  unfold doStepStatus
  repeat' first | intro _ | with_reducible assumption | with_reducible apply keeps_command | with_reducible exact keeps_of_fst (by assumption) (by assumption) | with_reducible apply keeps_ite | simp only [keeps_upd, keeps_upd_evt, id_eq] | split

theorem keeps_tableBuild {s : State} (h : Keeps v q s) (x1 : _) (x2 : _) (x3 : _) (x4 : _) (x5 : _) (x6 : _) : Keeps v q (State.tableBuild s x1 x2 x3 x4 x5 x6) := by
  unfold State.tableBuild
  repeat' first | intro _ | with_reducible assumption | with_reducible apply keeps_logDev | with_reducible apply keeps_modTable | with_reducible apply keeps_heatCa | with_reducible exact keeps_of_fst (by assumption) (by assumption) | with_reducible apply keeps_ite | simp only [keeps_upd, keeps_upd_evt, id_eq] | split

theorem keeps_doTableBuild {s : State} (h : Keeps v q s) (x0 : _) (x1 : _) (x2 : _) (x3 : _) (x4 : _) (x5 : _) : Keeps v q (doTableBuild x0 x1 x2 x3 x4 x5 s) := by
  unfold doTableBuild
  repeat' first | intro _ | with_reducible assumption | with_reducible apply keeps_command | with_reducible apply keeps_tableBuild | with_reducible exact keeps_of_fst (by assumption) (by assumption) | with_reducible apply keeps_ite | simp only [keeps_upd, keeps_upd_evt, id_eq] | split

theorem keeps_doTableLoad {s : State} (h : Keeps v q s) (x0 : _) (x1 : _) (x2 : _) : Keeps v q (doTableLoad x0 x1 x2 s) := by
  unfold doTableLoad
  repeat' first | intro _ | with_reducible assumption | with_reducible apply keeps_command | with_reducible apply keeps_modTable | with_reducible exact keeps_of_fst (by assumption) (by assumption) | with_reducible apply keeps_ite | simp only [keeps_upd, keeps_upd_evt, id_eq] | split

theorem keeps_toHost (l : List (List Byte)) {s : State} (h : Keeps v q s) (c ca : Nat) : Keeps v q (s.toHost c ca l).1 := by
  induction l generalizing s ca with
  | nil => exact h
  | cons w r ih =>
    unfold State.toHost
    split
    · exact keeps_hostFail h _ _
    · refine ih (keeps_foldl h fun b a hb => ?_) _
      split
      · exact keeps_hostPut hb _ _ _ _ _
      · exact hb

theorem keeps_takeFrames {s : State} (h : Keeps v q s) (n : Nat) : ∀ t, takeFrames n s = some t → Keeps v q t := by
  induction n generalizing s with
  | zero => intro t e; cases e; exact h
  | succ n ih =>
    intro t e
    unfold takeFrames at e
    split at e
    · cases e
    · split at e
      · cases e
      · exact ih (keeps_upd.2 (keeps_celStart h _ _ _ (by assumption))) _ e

theorem keeps_sealCel {s : State} (h : Keeps v q s) (c : Nat) (id : Word) : ∀ t, s.sealCel c id = some t → Keeps v q t := by
  intro t e
  unfold State.sealCel at e
  simp only [] at e
  split at e
  · cases e
  · exact keeps_takeFrames (keeps_celCharge (keeps_upd.2 h) _) _ _ e

theorem keeps_startSeal {s : State} (h : Keeps v q s) (c : Nat) (id : Word) (d x : Nat) : Keeps v q (s.startSeal c id d x).1 := by
  unfold State.startSeal
  simp only []
  split
  · split
    · exact keeps_getD (keeps_sealCel h _ _) h
    · exact h
  · exact keeps_toHost _ (keeps_upd.2 h) _ _

theorem keeps_doCkptDelete {s : State} (h : Keeps v q s) (x0 : _) (x1 : _) : Keeps v q (doCkptDelete x0 x1 s) := by
  unfold doCkptDelete
  repeat' first | intro _ | with_reducible assumption | with_reducible apply keeps_command | with_reducible apply keeps_freeCkpt | with_reducible exact keeps_of_fst (by assumption) (by assumption) | with_reducible apply keeps_ite | simp only [keeps_upd, keeps_upd_evt, id_eq] | split

theorem keeps_doCkptSeal {s : State} (h : Keeps v q s) (x : ReqHdr) (id : Word) (d a : Nat) : Keeps v q (doCkptSeal x id d a s) := by
  unfold doCkptSeal
  exact keeps_ite (keeps_doCkptDelete h _ _) (keeps_command h _ _ _ _ _ _ (fun _ hs => keeps_startSeal hs _ _ _ _) fun _ hs => hs)

theorem keeps_logTag {s : State} (h : Keeps v q s) (x1 : _) (x2 : _) : Keeps v q (State.logTag s x1 x2) := by
  unfold State.logTag
  repeat' first | intro _ | with_reducible assumption | with_reducible apply keeps_logDev | with_reducible exact keeps_of_fst (by assumption) (by assumption) | with_reducible apply keeps_ite | simp only [keeps_upd, keeps_upd_evt, id_eq] | split

theorem keeps_restore {s : State} (h : Keeps v q s) (x1 : _) (x2 : _) : Keeps v q (State.restore s x1 x2) := by
  unfold State.restore
  repeat' first | intro _ | with_reducible assumption | with_reducible apply keeps_foldl | with_reducible apply keeps_foldl_fst | with_reducible apply keeps_modCtx | with_reducible apply keeps_wrEngine | with_reducible apply keeps_heatCa | with_reducible exact keeps_of_fst (by assumption) (by assumption) | with_reducible apply keeps_ite | simp only [keeps_upd, keeps_upd_evt, id_eq] | split

theorem keeps_doCkptRestore {s : State} (h : Keeps v q s) (x0 : _) (x1 : _) (x2 : _) (x3 : _) (x4 : _) (x5 : _) : Keeps v q (doCkptRestore x0 x1 x2 x3 x4 x5 s) := by
  unfold doCkptRestore
  repeat' first | intro _ | with_reducible assumption | with_reducible apply keeps_command | with_reducible apply keeps_logTag | with_reducible apply keeps_restore | with_reducible exact keeps_of_fst (by assumption) (by assumption) | with_reducible apply keeps_ite | simp only [keeps_upd, keeps_upd_evt, id_eq] | split

theorem keeps_doStateExport {s : State} (h : Keeps v q s) (x0 : _) (x1 : _) : Keeps v q (doStateExport x0 x1 s) := by
  unfold doStateExport
  repeat' first | intro _ | with_reducible assumption | with_reducible apply keeps_command | with_reducible apply keeps_toHost | with_reducible exact keeps_of_fst (by assumption) (by assumption) | with_reducible apply keeps_ite | simp only [keeps_upd, keeps_upd_evt, id_eq] | split

theorem keeps_cmdEnd {s : State} (h : Keeps v q s) (k : Cmd) : ∀ t, s.cmdEnd k = some t → Keeps v q t.1 := by
  intro t e
  unfold State.cmdEnd at e
  simp only [] at e
  repeat' split at e
  all_goals first
    | (cases e; done)
    | (cases e; exact h)
    | (cases e; exact keeps_sealCel h _ _ _ (by assumption))
    | (cases e; exact keeps_foldl (keeps_upd.2 (keeps_upd.2 h)) fun _ _ hb => keeps_modPent hb _ _)
    | (cases e; exact keeps_setAreas (keeps_modCtx (keeps_upd.2 h) _ _) _)

theorem keeps_startWaiting {s : State} (h : Keeps v q s) (f : Nat) : Keeps v q (s.startWaiting f) := by
  unfold State.startWaiting
  split
  · rename_i k t w e
    obtain ⟨k', _, ek⟩ := List.exists_of_findSome?_eq_some e
    split at ek
    · split at ek
      · rw [Option.map_eq_some_iff] at ek
        obtain ⟨a, ha, ea⟩ := ek
        cases ea
        exact keeps_modFn (keeps_sealCel h _ _ _ ha) _ _
      · cases ek
    · cases ek
  · exact h

theorem keeps_doCmdDone {s : State} (h : Keeps v q s) (f : Nat) : Keeps v q (doCmdDone f s) := by
  unfold doCmdDone
  simp only []
  have hw := keeps_startWaiting h f
  split
  · exact hw
  · rename_i k t st reply e
    obtain ⟨k', _, ek⟩ := List.exists_of_findSome?_eq_some e
    rw [Option.map_eq_some_iff] at ek
    obtain ⟨r, hr, er⟩ := ek
    cases er
    exact keeps_doneEntry (keeps_cmdEnd hw _ _ hr) _ _ _ _

theorem keeps_whenPowered {s : State} (h : Keeps v q s) (f : State → State) (hf : ∀ s, Keeps v q s → Keeps v q (f s)) :
    Keeps v q (whenPowered s f) := by
  unfold whenPowered
  split
  · exact hf _ h
  · exact h

theorem keeps_doHostPortTrained {s : State} (h : Keeps v q s) (x0 : _) (x1 : _) (x2 : _) (x3 : _) : Keeps v q (doHostPortTrained x0 x1 x2 x3 s) := by
  unfold doHostPortTrained
  repeat' first | intro _ | with_reducible assumption | with_reducible apply keeps_modHport | with_reducible apply keeps_logEvent | with_reducible exact keeps_of_fst (by assumption) (by assumption) | with_reducible apply keeps_ite | simp only [keeps_upd, keeps_upd_evt, id_eq] | split

theorem keeps_freezePort {s : State} (h : Keeps v q s) (x1 : _) : Keeps v q (State.freezePort s x1) := by
  unfold State.freezePort
  repeat' first | intro _ | with_reducible assumption | with_reducible apply keeps_foldl | with_reducible apply keeps_foldl_fst | with_reducible apply keeps_modCtx | with_reducible apply keeps_logEvent | with_reducible apply keeps_msix | with_reducible exact keeps_of_fst (by assumption) (by assumption) | with_reducible apply keeps_ite | simp only [keeps_upd, keeps_upd_evt, id_eq] | split

theorem keeps_losePort {s : State} (h : Keeps v q s) (x1 : _) : Keeps v q (State.losePort s x1) := by
  unfold State.losePort
  repeat' first | intro _ | with_reducible assumption | with_reducible apply keeps_foldl | with_reducible apply keeps_foldl_fst | with_reducible apply keeps_modHport | with_reducible apply keeps_freezePort | with_reducible apply keeps_fnReset | with_reducible exact keeps_of_fst (by assumption) (by assumption) | with_reducible apply keeps_ite | simp only [keeps_upd, keeps_upd_evt, id_eq] | split

theorem keeps_doPerst {s : State} (h : Keeps v q s) (x0 : _) : Keeps v q (doPerst x0 s) := by
  unfold doPerst
  repeat' first | intro _ | with_reducible assumption | with_reducible apply keeps_losePort | with_reducible apply keeps_modHport | with_reducible apply keeps_takeL3 | with_reducible exact keeps_of_fst (by assumption) (by assumption) | with_reducible apply keeps_ite | simp only [keeps_upd, keeps_upd_evt, id_eq] | split

theorem keeps_setVfs {s : State} (h : Keeps v q s) (x1 : _) (x2 : _) (x3 : _) : Keeps v q (State.setVfs s x1 x2 x3) := by
  unfold State.setVfs
  repeat' first | intro _ | with_reducible assumption | with_reducible apply keeps_foldl | with_reducible apply keeps_foldl_fst | with_reducible apply keeps_modHport | with_reducible apply keeps_modFn | with_reducible apply keeps_fnReset | with_reducible exact keeps_of_fst (by assumption) (by assumption) | with_reducible apply keeps_ite | simp only [keeps_upd, keeps_upd_evt, id_eq] | split

theorem keeps_doFunctionLevelReset {s : State} (h : Keeps v q s) (x0 : _) : Keeps v q (doFunctionLevelReset x0 s) := by
  unfold doFunctionLevelReset
  repeat' first | intro _ | with_reducible assumption | with_reducible apply keeps_startL2 | with_reducible apply keeps_setVfs | with_reducible exact keeps_of_fst (by assumption) (by assumption) | with_reducible apply keeps_ite | simp only [keeps_upd, keeps_upd_evt, id_eq] | split

theorem keeps_doModRst {s : State} (h : Keeps v q s) (x0 : _) : Keeps v q (doModRst x0 s) := by
  unfold doModRst
  repeat' first | intro _ | with_reducible assumption | with_reducible apply keeps_startL3 | with_reducible exact keeps_of_fst (by assumption) (by assumption) | with_reducible apply keeps_ite | simp only [keeps_upd, keeps_upd_evt, id_eq] | split

theorem keeps_doModRstRelease {s : State} (h : Keeps v q s) : Keeps v q (doModRstRelease s) := by
  unfold doModRstRelease
  repeat' first | intro _ | with_reducible assumption | with_reducible apply keeps_endL3 | with_reducible exact keeps_of_fst (by assumption) (by assumption) | with_reducible apply keeps_ite | simp only [keeps_upd, keeps_upd_evt, id_eq] | split

theorem keeps_stage {s : State} (h : Keeps v q s) (x1 : _) (x2 : _) (x3 : _) (x4 : _) : Keeps v q (State.stage s x1 x2 x3 x4).1 := by
  unfold State.stage
  repeat' first | intro _ | with_reducible assumption | with_reducible exact keeps_of_fst (by assumption) (by assumption) | with_reducible apply keeps_ite | simp only [keeps_upd, keeps_upd_evt, id_eq] | split

theorem keeps_doCfgStage {s : State} (h : Keeps v q s) (x0 : _) (x1 : _) (x2 : _) : Keeps v q (doCfgStage x0 x1 x2 s) := by
  unfold doCfgStage
  repeat' first | intro _ | with_reducible assumption | with_reducible apply keeps_command | with_reducible apply keeps_stage | with_reducible exact keeps_of_fst (by assumption) (by assumption) | with_reducible apply keeps_ite | simp only [keeps_upd, keeps_upd_evt, id_eq] | split

theorem keeps_commitBundle {s : State} (h : Keeps v q s) : Keeps v q (State.commitBundle s) := by
  unfold State.commitBundle
  repeat' first | intro _ | with_reducible assumption | with_reducible exact keeps_of_fst (by assumption) (by assumption) | with_reducible apply keeps_ite | simp only [keeps_upd, keeps_upd_evt, id_eq] | split

theorem keeps_doCfgCommit {s : State} (h : Keeps v q s) (x0 : _) : Keeps v q (doCfgCommit x0 s) := by
  unfold doCfgCommit
  repeat' first | intro _ | with_reducible assumption | with_reducible apply keeps_command | with_reducible apply keeps_takeL3 | with_reducible apply keeps_commitBundle | with_reducible apply keeps_logDev | with_reducible exact keeps_of_fst (by assumption) (by assumption) | with_reducible apply keeps_ite | simp only [keeps_upd, keeps_upd_evt, id_eq] | split

theorem keeps_doCfgRevert {s : State} (h : Keeps v q s) (x0 : _) : Keeps v q (doCfgRevert x0 s) := by
  unfold doCfgRevert
  repeat' first | intro _ | with_reducible assumption | with_reducible apply keeps_command | with_reducible apply keeps_takeL3 | with_reducible apply keeps_revert | with_reducible exact keeps_of_fst (by assumption) (by assumption) | with_reducible apply keeps_ite | simp only [keeps_upd, keeps_upd_evt, id_eq] | split

theorem keeps_doProbationEnd {s : State} (h : Keeps v q s) : Keeps v q (doProbationEnd s) := by
  unfold doProbationEnd
  repeat' first | intro _ | with_reducible assumption | with_reducible apply keeps_logDev | with_reducible exact keeps_of_fst (by assumption) (by assumption) | with_reducible apply keeps_ite | simp only [keeps_upd, keeps_upd_evt, id_eq] | split

theorem keeps_quotePart {s : State} (h : Keeps v q s) (x1 : _) : Keeps v q (State.quotePart s x1).1 := by
  unfold State.quotePart
  repeat' first | intro _ | with_reducible assumption | with_reducible apply keeps_modFn | with_reducible exact keeps_of_fst (by assumption) (by assumption) | with_reducible apply keeps_ite | simp only [keeps_upd, keeps_upd_evt, id_eq] | split

theorem keeps_doAttestQuote {s : State} (h : Keeps v q s) (x0 : _) (x1 : _) : Keeps v q (doAttestQuote x0 x1 s) := by
  unfold doAttestQuote
  repeat' first | intro _ | with_reducible assumption | with_reducible apply keeps_command | with_reducible apply keeps_quotePart | with_reducible apply keeps_modFn | with_reducible exact keeps_of_fst (by assumption) (by assumption) | with_reducible apply keeps_ite | simp only [keeps_upd, keeps_upd_evt, id_eq] | split

theorem keeps_doIdentityGet {s : State} (h : Keeps v q s) (x0 : _) (x1 : _) : Keeps v q (doIdentityGet x0 x1 s) := by
  unfold doIdentityGet
  repeat' first | intro _ | with_reducible assumption | with_reducible apply keeps_command | with_reducible exact keeps_of_fst (by assumption) (by assumption) | with_reducible apply keeps_ite | simp only [keeps_upd, keeps_upd_evt, id_eq] | split

theorem keeps_doEventRead {s : State} (h : Keeps v q s) (x0 : _) (x1 : _) (x2 : _) : Keeps v q (doEventRead x0 x1 x2 s) := by
  unfold doEventRead
  repeat' first | intro _ | with_reducible assumption | with_reducible apply keeps_command | with_reducible exact keeps_of_fst (by assumption) (by assumption) | with_reducible apply keeps_ite | simp only [keeps_upd, keeps_upd_evt, id_eq] | split

theorem keeps_doTelemetryRead {s : State} (h : Keeps v q s) (x0 : _) : Keeps v q (doTelemetryRead x0 s) := by
  unfold doTelemetryRead
  repeat' first | intro _ | with_reducible assumption | with_reducible apply keeps_command | with_reducible exact keeps_of_fst (by assumption) (by assumption) | with_reducible apply keeps_ite | simp only [keeps_upd, keeps_upd_evt, id_eq] | split

theorem keeps_doMctpMessage {s : State} (h : Keeps v q s) (x0 : _) (x1 : _) (x2 : _) (x3 : _) (x4 : _) (x5 : _) : Keeps v q (doMctpMessage x0 x1 x2 x3 x4 x5 s) := by
  unfold doMctpMessage
  repeat' first | intro _ | with_reducible assumption | with_reducible apply keeps_doHello | with_reducible apply keeps_doAttestQuote | with_reducible apply keeps_doIdentityGet | with_reducible apply keeps_doEventRead | with_reducible apply keeps_doTelemetryRead | with_reducible apply keeps_doResetDevice | with_reducible apply keeps_doCfgStage | with_reducible apply keeps_doCfgCommit | with_reducible apply keeps_doCfgRevert | with_reducible apply keeps_command | with_reducible exact keeps_of_fst (by assumption) (by assumption) | with_reducible apply keeps_ite | simp only [keeps_upd, keeps_upd_evt, id_eq] | split

theorem keeps_powerBase {s : State} (h : Keeps v q s) (i : BootInputs) : Keeps v q (s.powerBase i) := by
  have hw := keeps_wipeL3 h 0 false
  unfold State.powerBase
  simp only []
  generalize s.wipeL3 0 false = w at hw
  refine ⟨hw.1, hw.2, hw.3, ?_, fun _ ho => by cases ho⟩
  show (if _ then _ else _ : Evt).hubEpoch ≠ 0
  split
  · exact h.4
  · exact hw.4

theorem keeps_doPowerOn {s : State} (h : Keeps v q s) (x0 : _) : Keeps v q (doPowerOn x0 s) := by
  unfold doPowerOn
  repeat' first | intro _ | with_reducible assumption | with_reducible apply keeps_powerBase | with_reducible apply keeps_logLevel | with_reducible apply keeps_logDev | with_reducible apply keeps_revert | with_reducible apply keeps_bootUp | with_reducible exact keeps_of_fst (by assumption) (by assumption) | with_reducible apply keeps_ite | simp only [keeps_upd, keeps_upd_evt, id_eq] | split

theorem keeps_doVinRange {s : State} (h : Keeps v q s) (x0 : _) : Keeps v q (doVinRange x0 s) := by
  unfold doVinRange
  repeat' first | intro _ | with_reducible assumption | with_reducible apply keeps_logDev | with_reducible exact keeps_of_fst (by assumption) (by assumption) | with_reducible apply keeps_ite | simp only [keeps_upd, keeps_upd_evt, id_eq] | split

theorem keeps_dropRails {s : State} (h : Keeps v q s) : Keeps v q (State.dropRails s) := by
  unfold State.dropRails
  repeat' first | intro _ | with_reducible assumption | with_reducible apply keeps_foldl | with_reducible apply keeps_foldl_fst | with_reducible apply keeps_modUnit | with_reducible apply keeps_modPort | with_reducible exact keeps_of_fst (by assumption) (by assumption) | with_reducible apply keeps_ite | simp only [keeps_upd, keeps_upd_evt, id_eq] | split

theorem keeps_doRailFault {s : State} (h : Keeps v q s) (x0 : _) : Keeps v q (doRailFault x0 s) := by
  unfold doRailFault
  repeat' first | intro _ | with_reducible assumption | with_reducible apply keeps_logDev | with_reducible apply keeps_abortAll | with_reducible apply keeps_requestL4 | with_reducible apply keeps_dropRails | with_reducible exact keeps_of_fst (by assumption) (by assumption) | with_reducible apply keeps_ite | simp only [keeps_upd, keeps_upd_evt, id_eq] | split

theorem keeps_doThermalEval {s : State} (h : Keeps v q s) (x0 : _) (x1 : _) (x2 : _) : Keeps v q (doThermalEval x0 x1 x2 s) := by
  unfold doThermalEval
  repeat' first | intro _ | with_reducible assumption | with_reducible apply keeps_logDev | with_reducible apply keeps_putControl | with_reducible apply keeps_applyStretch | with_reducible exact keeps_of_fst (by assumption) (by assumption) | with_reducible apply keeps_ite | simp only [keeps_upd, keeps_upd_evt, id_eq] | split

theorem keeps_doPowerPeak {s : State} (h : Keeps v q s) (x0 : _) : Keeps v q (doPowerPeak x0 s) := by
  unfold doPowerPeak
  repeat' first | intro _ | with_reducible assumption | with_reducible apply keeps_logDev | with_reducible exact keeps_of_fst (by assumption) (by assumption) | with_reducible apply keeps_ite | simp only [keeps_upd, keeps_upd_evt, id_eq] | split

theorem keeps_doThermTrip {s : State} (h : Keeps v q s) : Keeps v q (doThermTrip s) := by
  unfold doThermTrip
  repeat' first | intro _ | with_reducible assumption | with_reducible apply keeps_logDev | with_reducible apply keeps_startL3 | with_reducible apply keeps_logEvent | with_reducible exact keeps_of_fst (by assumption) (by assumption) | with_reducible apply keeps_ite | simp only [keeps_upd, keeps_upd_evt, id_eq] | split

theorem keeps_doThermTripRelease {s : State} (h : Keeps v q s) (x0 : _) : Keeps v q (doThermTripRelease x0 s) := by
  unfold doThermTripRelease
  repeat' first | intro _ | with_reducible assumption | with_reducible apply keeps_endL3 | with_reducible exact keeps_of_fst (by assumption) (by assumption) | with_reducible apply keeps_ite | simp only [keeps_upd, keeps_upd_evt, id_eq] | split

theorem keeps_doThermTripTimeout {s : State} (h : Keeps v q s) : Keeps v q (doThermTripTimeout s) := by
  unfold doThermTripTimeout
  repeat' first | intro _ | with_reducible assumption | with_reducible apply keeps_requestL4 | with_reducible exact keeps_of_fst (by assumption) (by assumption) | with_reducible apply keeps_ite | simp only [keeps_upd, keeps_upd_evt, id_eq] | split

theorem keeps_doCoolantHigh {s : State} (h : Keeps v q s) : Keeps v q (doCoolantHigh s) := by
  unfold doCoolantHigh
  repeat' first | intro _ | with_reducible assumption | with_reducible apply keeps_logDev | with_reducible exact keeps_of_fst (by assumption) (by assumption) | with_reducible apply keeps_ite | simp only [keeps_upd, keeps_upd_evt, id_eq] | split

theorem keeps_doClkLoss {s : State} (h : Keeps v q s) : Keeps v q (doClkLoss s) := by
  unfold doClkLoss
  repeat' first | intro _ | with_reducible assumption | with_reducible apply keeps_requestL4 | with_reducible apply keeps_logDev | with_reducible exact keeps_of_fst (by assumption) (by assumption) | with_reducible apply keeps_ite | simp only [keeps_upd, keeps_upd_evt, id_eq] | split

theorem keeps_zeroScratch {s : State} (h : Keeps v q s) : Keeps v q s.zeroScratch :=
  ⟨h.1, h.2, wf_memZero _ _ h.3, h.4, h.5⟩

theorem keeps_doTestEntry {s : State} (h : Keeps v q s) : Keeps v q (doTestEntry s) := by
  unfold doTestEntry
  repeat' first | intro _ | with_reducible assumption | with_reducible apply keeps_logDev | with_reducible apply keeps_abortAll | with_reducible apply keeps_setMode | with_reducible apply keeps_zeroScratch | with_reducible exact keeps_of_fst (by assumption) (by assumption) | with_reducible apply keeps_ite | simp only [keeps_upd, keeps_upd_evt, id_eq] | split

theorem keeps_doXlocRearm {s : State} (h : Keeps v q s) (x0 : _) : Keeps v q (doXlocRearm x0 s) := by
  unfold doXlocRearm
  repeat' first | intro _ | with_reducible assumption | with_reducible apply keeps_modTile | with_reducible exact keeps_of_fst (by assumption) (by assumption) | with_reducible apply keeps_ite | simp only [keeps_upd, keeps_upd_evt, id_eq] | split

theorem keeps_setFlagB {s : State} (h : Keeps v q s) (x1 : _) (x2 : _) (x3 : _) : Keeps v q (State.setFlagB s x1 x2 x3) := by
  unfold State.setFlagB
  repeat' first | intro _ | with_reducible assumption | with_reducible apply keeps_rwiSet | with_reducible exact keeps_of_fst (by assumption) (by assumption) | with_reducible apply keeps_ite | simp only [keeps_upd, keeps_upd_evt, id_eq] | split

theorem keeps_doWinFlagSet {s : State} (h : Keeps v q s) (x0 : _) (x1 : _) (x2 : _) (x3 : _) : Keeps v q (doWinFlagSet x0 x1 x2 x3 s) := by
  unfold doWinFlagSet
  repeat' first | intro _ | with_reducible assumption | with_reducible apply keeps_setFlagB | with_reducible exact keeps_of_fst (by assumption) (by assumption) | with_reducible apply keeps_ite | simp only [keeps_upd, keeps_upd_evt, id_eq] | split

theorem keeps_setRef {s : State} (h : Keeps v q s) (x1 : _) (x2 : _) : Keeps v q (State.setRef s x1 x2) := by
  unfold State.setRef
  repeat' first | intro _ | with_reducible assumption | with_reducible apply keeps_rwiSet | with_reducible exact keeps_of_fst (by assumption) (by assumption) | with_reducible apply keeps_ite | simp only [keeps_upd, keeps_upd_evt, id_eq] | split

theorem keeps_hostShadow {s : State} (h : Keeps v q s) (x1 : _) (x2 : _) (x3 : _) (x4 : _) : Keeps v q (State.hostShadow s x1 x2 x3 x4) := by
  unfold State.hostShadow
  repeat' first | intro _ | with_reducible assumption | with_reducible apply keeps_putShadow | with_reducible exact keeps_of_fst (by assumption) (by assumption) | with_reducible apply keeps_ite | simp only [keeps_upd, keeps_upd_evt, id_eq] | split

theorem keeps_regWrite {s : State} (h : Keeps v q s) (x1 : _) (x2 : _) (x3 : _) (x4 : _) (x5 : _) : Keeps v q (State.regWrite s x1 x2 x3 x4 x5) := by
  unfold State.regWrite
  repeat' first | intro _ | with_reducible assumption | with_reducible apply keeps_hostShadow | with_reducible apply keeps_doCfgStrobe | with_reducible apply keeps_doCfgStrobeAt | with_reducible apply keeps_setRef | with_reducible apply keeps_setFlagB | with_reducible apply keeps_rwiSet | with_reducible exact keeps_of_fst (by assumption) (by assumption) | with_reducible apply keeps_ite | simp only [keeps_upd, keeps_upd_evt, id_eq] | split

theorem keeps_bar0Write {s : State} (h : Keeps v q s) (x1 : _) (x2 : _) (x3 : _) (x4 : _) : Keeps v q (State.bar0Write s x1 x2 x3 x4) := by
  unfold State.bar0Write
  repeat' first | intro _ | with_reducible assumption | with_reducible apply keeps_regWrite | with_reducible exact keeps_of_fst (by assumption) (by assumption) | with_reducible apply keeps_ite | simp only [keeps_upd, keeps_upd_evt, id_eq] | split

theorem keeps_post {s : State} (h : Keeps v q s) (x1 : _) : Keeps v q (State.post s x1) := by
  unfold State.post
  repeat' first | intro _ | with_reducible assumption | with_reducible apply keeps_lostPost | with_reducible apply keeps_accept | with_reducible apply keeps_reply | with_reducible apply keeps_modFn | with_reducible exact keeps_of_fst (by assumption) (by assumption) | with_reducible apply keeps_ite | simp only [keeps_upd, keeps_upd_evt, id_eq] | split

theorem keeps_bar2Write {s : State} (h : Keeps v q s) (x1 : _) (x2 : _) (x3 : _) (x4 : _) : Keeps v q (State.bar2Write s x1 x2 x3 x4) := by
  unfold State.bar2Write
  repeat' first | intro _ | with_reducible assumption | with_reducible apply keeps_foldl | with_reducible apply keeps_foldl_fst | with_reducible apply keeps_post | with_reducible apply keeps_modFn | with_reducible exact keeps_of_fst (by assumption) (by assumption) | with_reducible apply keeps_ite | simp only [keeps_upd, keeps_upd_evt, id_eq] | split

theorem keeps_cfgSpaceWrite {s : State} (h : Keeps v q s) (x1 : _) (x2 : _) (x3 : _) : Keeps v q (State.cfgSpaceWrite s x1 x2 x3) := by
  unfold State.cfgSpaceWrite
  repeat' first | intro _ | with_reducible assumption | with_reducible apply keeps_modFn | with_reducible exact keeps_of_fst (by assumption) (by assumption) | with_reducible apply keeps_ite | simp only [keeps_upd, keeps_upd_evt, id_eq] | split

theorem keeps_doRegisterWrite {s : State} (h : Keeps v q s) (x0 : _) (x1 : _) (x2 : _) (x3 : _) (x4 : _) : Keeps v q (doRegisterWrite x0 x1 x2 x3 x4 s) := by
  unfold doRegisterWrite
  repeat' first | intro _ | with_reducible assumption | with_reducible apply keeps_bar0Write | with_reducible apply keeps_bar2Write | with_reducible apply keeps_cfgSpaceWrite | with_reducible exact keeps_of_fst (by assumption) (by assumption) | with_reducible apply keeps_ite | simp only [keeps_upd, keeps_upd_evt, id_eq] | split

end Sys2Proof.Machine
end

