-- ==== Sys2Proof/WellFormed.lean ====
section
/-! DEFINITION. Which commands are well formed: every operand fits the field that carries it. An ill-formed term spells no command of the
part; the meanings are total on it all the same. -/

namespace Sys2Proof

/-- The header of a request fits Table 16-2. -/
def ReqHdr.wf (h : ReqHdr) : Bool := decide (h.len < 2 ^ 32) && decide (h.ctx < 256)

/-- The fields of CTX_QUOTA_SET fit Table 16-4. -/
def QuotaReq.wf (r : QuotaReq) : Bool :=
  [r.bank, r.bankCask, r.ledger, r.bulk, r.bulkCask, r.cellar].all (fun n => decide (n < 2 ^ 32)) && decide (r.deferRecs < 65536) &&
  decide (r.slots < 65536)

/-- The fields of MEM_MAP fit Table 16-4; a host region lists one bus address for each granule, no other region any (R363). -/
def MapReq.wf (r : MapReq) : Bool :=
  decide (r.ca < 2 ^ 64) && decide (r.gcnt < 2 ^ 32) && [r.home, r.top, r.bottom].all (fun t => decide (t < 4)) && decide (r.use < 256) &&
  (if r.host then r.bus.length == r.gcnt else r.bus.isEmpty) && r.bus.all (fun b => decide (b < 2 ^ 64))

/-- A chunk of a bundle fits a request slot (R398). -/
def StageReq.wf (r : StageReq) : Bool := decide (r.offset < 2 ^ 32) && decide (r.total < 2 ^ 32) && decide (r.data.length ≤ 4072)

/-- A management message's operands fit their fields. -/
def MgmtReq.wf : MgmtReq → Bool
  | .hello => true
  | .attestQuote n => decide (n.length = 64)
  | .identityGet o => decide (o < 2 ^ 32)
  | .eventRead a m => decide (a < 2 ^ 64) && decide (m < 2 ^ 32)
  | .telemetryRead => true
  | .resetDevice => true
  | .cfgStage r => r.wf
  | .cfgCommit => true
  | .cfgRevert => true
  | .other c => decide (c < 65536)

/-- A peer's cause names a module by its logical ID. -/
def PeerCause.wf (x : PeerCause) : Bool := decide (x.lid < 16)

/-- A NAND row has at most 31 other units (R280). -/
def ReadOutcome.wf : ReadOutcome → Bool
  | .delivered _ => true
  | .rebuilt others => decide (others.length ≤ 31)
  | .lost _ => true

/-- A verdict names a tick. -/
def Verdict.wf (v : Verdict) : Bool := decide (v.tick < 2 ^ 64)

/-- A flit is 256 bytes (R317). -/
def Flit.wf (f : Flit) : Bool := decide (f.bytes.length = 256)

/-- What training found fits LNK_PSTAT (Table 13-6). -/
def Training.wf (r : Training) : Bool := decide (r.peerSlot < 16) && decide (r.peerLid < 16) && decide (r.lat < 65536)

/-- An arbiter of R308 and requesters named at most once. -/
def arbWf (a : Nat) (l : List PortReq) : Bool := decide (a < 304) && decide (l.map (·.who)).Nodup

/-- An address range and a tier of MEM_PIN, MEM_UNPIN or MEM_HINT. -/
def rangeWf (ca n tier : Nat) : Bool := decide (ca < 2 ^ 64) && decide (n < 2 ^ 32) && decide (tier < 256)

/-- Whether a command is well formed. -/
def Instr.wf : Instr → Bool
  | .nop _ _ _ => true
  | .jump _ _ _ => true
  | .call _ _ _ => true
  | .ret _ _ _ => true
  | .loop _ _ _ => true
  | .prefetch _ _ _ => true
  | .waitBeat _ _ _ => true
  | .commitPoint _ _ _ => true
  | .semSet _ _ _ => true
  | .semSignal _ _ _ => true
  | .semWait _ _ _ => true
  | .semSignalRemote _ _ _ => true
  | .dmaRead _ _ _ => true
  | .dmaWrite _ _ _ => true
  | .dmaCopy _ _ _ => true
  | .dmaFill _ _ _ => true
  | .dmaWait _ _ _ => true
  | .mm _ _ _ => true
  | .mmOvw _ _ _ => true
  | .mmDrain _ _ _ => true
  | .accZero _ _ _ => true
  | .chainRun _ _ _ => true
  | .chainRunAcc _ _ _ => true
  | .linkSend _ _ _ => true
  | .recvPost _ _ _ => true
  | .linkWait _ _ _ => true
  | .scalarReduce _ _ _ => true
  | .kilnUpdate _ _ _ => true
  | .kilnWait _ _ _ => true
  | .caskPut _ _ _ => true
  | .caskGet _ _ _ => true
  | .caskRelease _ _ _ => true
  | .insnComplete _ _ q => decide (q < 2 ^ 32)
  | .icacheFill _ _ => true
  | .remoteSignalApply _ => true
  | .tick => true
  | .markerReceive _ l => decide (l.length = 24)
  | .verdictForm => true
  | .verdictReceive _ l => decide (l.length = 16)
  | .verdictReply v => v.wf
  | .verdictTimeout => true
  | .stepOpen _ => true
  | .stepCommit _ => true
  | .abortTick a => a.peers.all (fun x => x.wf)
  | .weightRebuild _ => true
  | .holdover => true
  | .holdoverClear => true
  | .beatInPulse c => decide (c < 65536)
  | .beatInErr => true
  | .arbDraw a d => arbWf a d.present
  | .arbPreempt a l => arbWf a l
  | .caskPutRetry _ _ => true
  | .caskFull _ _ => true
  | .transferComplete _ h _ => decide (h.data.length ≤ 2 ^ 24)
  | .ledgerContribution _ k l => decide (k < 2 ^ 24) && decide (l < 8)
  | .kilnStart _ => true
  | .conditioning _ => true
  | .deferredRun _ => true
  | .deferRecordTake _ => true
  | .updateRerun _ => true
  | .ledgerTimeout _ => true
  | .shadowUpdate _ n d => decide (n < 2 ^ 64) && decide (d < 2 ^ 1024)
  | .mirrorSum _ k n l _ => decide (k < 2 ^ 24) && decide (n < 2 ^ 64) && decide (l.length ≤ 16384)
  | .freshFillDone g => decide (g < 2 ^ 24)
  | .moveStart => true
  | .moveComplete g => decide (g < 2 ^ 24)
  | .heatDecay => true
  | .tagGrant _ _ q => decide (q < 2 ^ 32)
  | .regionRelease _ a => decide (a < 2 ^ 48)
  | .patrolScrub _ _ => true
  | .windowWrite _ o d r _ _ => decide (o < 2 ^ 39) && decide (0 < d.length) && decide (r < 65536)
  | .windowRead _ o r => decide (o < 2 ^ 39) && decide (0 < r.len) && decide (r.len ≤ 4096)
  | .flagVisible _ _ => true
  | .hostCompletionTimeout _ => true
  | .cellarRead f u o => decide (f < 2 ^ 23) && decide (u < 33) && o.wf
  | .cellarWriteDone f => decide (f < 2 ^ 23)
  | .cellarRefresh f => decide (f < 2 ^ 23)
  | .cellarPatrol l => l.all (fun x => decide (x.1 < 2 ^ 23) && decide (x.2.1 < 33) && x.2.2.wf)
  | .celDie _ _ => true
  | .cellarRebuildDone => true
  | .compaction => true
  | .wearLevel => true
  | .programFail k l => decide (k < 5120) && decide (l.wordLine < 683)
  | .eraseFail k _ => decide (k < 5120)
  | .bridgeRetrain _ => true
  | .bridgeTrainDone _ _ => true
  | .flitReceive _ f => f.wf
  | .linkNak _ q => decide (q < 4096)
  | .scalarReceive _ _ g m => decide (g < 256) && decide (m.step < 2 ^ 64) && decide (m.vals.length ≤ 64)
  | .laneDegraded _ _ => true
  | .portDown _ => true
  | .peerFailed _ => true
  | .remapApply => true
  | .takeoverStreamDone _ => true
  | .takeoverDone => true
  | .spareLost => true
  | .stretchReport _ k => decide (k ≤ 16)
  | .hostPortTrained _ r w _ => decide (r < 8) && decide (w < 32)
  | .portLost _ => true
  | .perst _ => true
  | .functionLevelReset _ => true
  | .modRst _ => true
  | .hello h => h.wf
  | .ctxOpen h r => h.wf && decide (r.coefA < 2 ^ 48)
  | .ctxClose h => h.wf
  | .ctxQuotaSet h r => h.wf && r.wf
  | .ctxAdopt h => h.wf
  | .memMap h r => h.wf && r.wf
  | .memUnmap h a => h.wf && decide (a < 2 ^ 64)
  | .memPin h a n k => h.wf && rangeWf a n k
  | .memUnpin h a n k => h.wf && rangeWf a n k
  | .memHint h a n k => h.wf && rangeWf a n k
  | .progLoad h a n => h.wf && decide (a < 2 ^ 64) && decide (n < 2 ^ 32)
  | .progUnload h => h.wf
  | .stepArm h _ _ => h.wf
  | .stepRun h => h.wf
  | .stepAbort h => h.wf
  | .stepStatus h => h.wf
  | .tableBuild h t c _ a n => h.wf && decide (t < 256) && decide (c < 256) && decide (a < 2 ^ 64) && decide (n < 2 ^ 64)
  | .tableLoad h t l => h.wf && decide (t < 256) && decide (l.length ≤ 4080)
  | .ckptSeal h _ d a => h.wf && decide (d < 256) && decide (a < 2 ^ 64)
  | .ckptDelete h _ => h.wf
  | .ckptRestore h _ k l a _ => h.wf && decide (k < 256) && decide (l < 256) && decide (a < 2 ^ 64)
  | .stateExport h a => h.wf && decide (a < 2 ^ 64)
  | .boardJoin h k _ _ _ _ => h.wf && decide (k < 16)
  | .boardRemap h n l p => h.wf && decide (n < 2 ^ 64) && decide (l.length ≤ 8) && decide (p < 16)
  | .spareTakeover h l => h.wf && decide (l < 256)
  | .mirrorSet h _ _ m a b => h.wf && decide (m < 64) && decide (a < 2 ^ 48) && decide (b < 2 ^ 48)
  | .cfgStage h r _ => h.wf && r.wf
  | .cfgCommit h => h.wf
  | .cfgRevert h => h.wf
  | .resetFunc h => h.wf
  | .resetDevice h => h.wf
  | .attestQuote h n => h.wf && decide (n.length = 64)
  | .identityGet h o => h.wf && decide (o < 2 ^ 32)
  | .eventRead h a m => h.wf && decide (a < 2 ^ 64) && decide (m < 2 ^ 32)
  | .telemetryRead h => h.wf
  | .cmdDone _ => true
  | .cfgStrobe _ => true
  | .cfgStrobeAt _ _ => true
  | .strobeAtApply => true
  | .cfgIntegCompare => true
  | .xlocRearm _ => true
  | .winFlagSet _ _ _ _ => true
  | .registerWrite _ b o n _ => decide (b < 8) && decide (o < 2 ^ 26) && decide (0 < n) && decide (n ≤ 8)
  | .watchdog => true
  | .maltsterUe => true
  | .levelL3 _ => true
  | .l4Request _ => true
  | .powerOn i => decide (i.slotId < 16)
  | .unitWake _ => true
  | .unitAwake _ => true
  | .pendingEnable _ => true
  | .probationEnd => true
  | .thermalEval w k _ => decide (w < 65536) && decide (k < 2048)
  | .vinRange v => decide (v < 655360)
  | .railFault _ => true
  | .powerPeak w => decide (w < 65536)
  | .thermTrip => true
  | .thermTripTimeout => true
  | .coolantHigh => true
  | .clkLoss => true
  | .mctpMessage _ c _ _ m _ => decide (c < 256) && m.wf
  | .testEntry => true
  | .linkTrainingDone _ r => r.wf
  | .notPosted _ g => decide (g < 256)
  | .verdictRequest _ n => decide (n < 2 ^ 64)
  | .quadSelfCheckFault _ => true
  | .phyFault _ => true
  | .thermTripRelease k => decide (k < 2048)
  | .modRstRelease => true
  | .perstRelease _ => true
  | .vfEnable _ _ n => decide (n < 65536)

end Sys2Proof
end

