-- ==== Sys2Proof/Tests/Slice0.lean ====
section
/-! SUPPORT. Small tests of the model: an ill-formed term for each check of WellFormed, a state and operands that meet the
hypotheses of each statement (the theorems test_hyp_…, clause by clause, at the ends of their ranges), and a few results of the
spec's own tables and worked examples, each on one step. -/

namespace Sys2Proof.Tests

set_option Elab.async false -- one test at a time: many at once take much memory

open Sys2Proof Sys2Proof.Machine

/-! ### States to test on -/

/-- A part that is live. -/
def on : State := { State.reset with pwr := { State.reset.pwr with powered := true, coreRails := true } }

/-- A sequencer at program counter 0 of step 1, its program's first line cached. -/
def runSeq : Seq := { plen := 16, icache := [0], run := true, stepNo := 1 }

/-- A live part: context 0 of function 0 is open on tile set 0 with step 1 open, and the streams of tile 0 run. -/
def ready : State :=
  (on.modCtx 0 (fun c => { c with st := .isOpen, owner := some 0, tsets := 1, step := { c.step with stepNo := 1, opened := true } })).modTile 0
    (fun x => { x with seqF := runSeq, seqB := runSeq, seqU := runSeq })

/-- A word of the operation k with BUDGET 100. -/
def word (k : OpInfo) (opa opb opc : Nat) : Insn :=
  ⟨BitVec.ofNat 4 k.cls, BitVec.ofNat 8 k.op, false, false, false, false, 100, BitVec.ofNat 32 opa, BitVec.ofNat 32 opb, BitVec.ofNat 32 opc⟩

/-- A word's fields: pairs of the lowest bit and the value. -/
def fields (l : List (Nat × Nat)) : Nat := l.foldl (fun a p => a + p.2 * 2 ^ p.1) 0

/-- The state with a descriptor of n lines at local offset 64 of tile 0, its header with class, operation and length. -/
def withDesc (s : State) (cls op n : Nat) (l : List (Nat × Nat)) : State :=
  s.wr (localKey 0 64) (toBytes (64 * n) (fields ([(0, cls), (4, op), (12, 1), (16, n - 1)] ++ l)))

/-! ### Hypotheses as tests -/

/-- Whether CanReach holds. -/
def reaches (s : State) (t : Nat) (st : Stream) (k : OpInfo) (w : Insn) (pre : Seq → Option Nat) (c : Nat) : Bool :=
  let q := s.seq t st
  s.live && decide (s.tileCtx t = some c) && decide (q.blocked s.beat.now = false) && decide ((s.unit (16 + t)).quar = false) &&
  decide (q.pc < q.plen) && q.icache.contains (q.lineOf q.pc) && decide (q.icPoison.contains (16 * q.pbase + q.pc) = false) &&
  opListed w && k.isOf w && decide (illegalWord k st w = false) && decide (k.desc = true → lsel w ≤ q.loops.length) &&
  decide (w.last = true → q.loops = [] ∧ q.calls = []) && decide (pre q = none)

theorem canReach_of {s t st k w pre c} (h : reaches s t st k w pre c = true) : CanReach s t st k w pre c := by
  simp only [reaches, Bool.and_eq_true, decide_eq_true_eq] at h
  obtain ⟨⟨⟨⟨⟨⟨⟨⟨⟨⟨⟨⟨h1, h2⟩, h3⟩, h4⟩, h5⟩, h6⟩, h7⟩, h8⟩, h9⟩, h10⟩, h11⟩, h12⟩, h13⟩ := h
  exact ⟨h1, h2, h3, h4, h5, h6, h7, h8, h9, h10, h11, h12, h13⟩

/-- Whether CanIssue holds. -/
def issues (s : State) (t : Nat) (st : Stream) (k : OpInfo) (w : Insn) (pre : Seq → Option Nat) (c : Nat) : Bool :=
  reaches s t st k w pre c && decide (w.ord = true → (s.seq t st).inflight = []) && decide ((s.seq t st).inflight.length < 16) &&
  decide ((s.seq t st).admitClk ≠ some s.beat.now) && decide (s.admitTest w.budget.toNat = .ok)

theorem canIssue_of {s t st k w pre c} (h : issues s t st k w pre c = true) : CanIssue s t st k w pre c := by
  simp only [issues, Bool.and_eq_true, decide_eq_true_eq] at h
  obtain ⟨⟨⟨⟨h1, h2⟩, h3⟩, h4⟩, h5⟩ := h
  exact ⟨canReach_of h1, h2, h3, h4, h5⟩

/-- Whether a descriptor instruction of tile 0 and context 0 is admitted with the descriptor of withDesc, and what is asked of
the descriptor's bits holds. -/
def issuesDesc (s : State) (st : Stream) (k : OpInfo) (ops : List Nat) (p : Nat → Bool) : Bool :=
  issues s 0 st k (word k 64 0 0) noPre 0 &&
  match s.asBefore.readDesc 0 (word k 64 0 0) (s.seq 0 st).loops k.cls ops with
  | .ok (o, d) => o == 64 && p d
  | .error _ => false

theorem canIssueDesc_of {s st k ops p} (h : issuesDesc s st k ops p = true) :
    ∃ o d, CanIssueDesc s 0 st k (word k 64 0 0) noPre ops 0 o d ∧ p d = true := by
  simp only [issuesDesc, Bool.and_eq_true] at h
  obtain ⟨h1, h2⟩ := h
  split at h2
  · rename_i o d e
    simp only [Bool.and_eq_true] at h2
    exact ⟨o, d, ⟨canIssue_of h1, e⟩, h2.2⟩
  · cases h2

/-- Whether UnitsFree holds. -/
def unitsFree (s : State) (t : Nat) : Bool :=
  [Stream.F, .B, .U].all (fun q => (s.seq t q).inflight.all (fun x => x.cls != 3 && x.cls != 4 && x.bank == none &&
    match x.wait with
    | .bank _ => false
    | _ => true)) &&
  decide ((s.arb (16 + 3 * t)).grant = none) && decide ((s.arb (16 + 3 * t + 1)).grant = none)

theorem unitsFree_of {s t} (h : unitsFree s t = true) : UnitsFree s t := by
  simp only [unitsFree, Bool.and_eq_true, decide_eq_true_eq, List.all_eq_true] at h
  obtain ⟨⟨h1, h2⟩, h3⟩ := h
  refine ⟨fun q x hx => ?_, h2, h3⟩
  have g := h1 q (by cases q <;> simp) x hx
  simp only [bne_iff_ne, beq_iff_eq] at g
  obtain ⟨⟨⟨g1, g2⟩, g3⟩, g4⟩ := g
  refine ⟨g1, g2, g3, fun b e => ?_⟩
  rw [e] at g4
  cases g4

/-! ### Statements of the queue, the whole part and memory -/

/-- An idle part in a clk that is not the last of its beat, with a write of an RW-I register pending; one in the last clk; and one without power. -/
theorem test_hyp_IdleAndUnpowered :
    on.pending = [] ∧ ¬ (on.beatEnable = true ∧ on.beat.periodEff ≤ on.clk + 1) ∧ State.reset.pwr.powered = false ∧
    (let s : State := { on with beat := { on.beat with now := 5 }, rwiNew := [(0x401000, 7)] }
     s.clk ≠ 0 ∧ s.cfg.strobe = 0 ∧ s.rwiNew = [(0x401000, 7)]) ∧
    (let s : State := { on with cfg := { on.cfg with eff := [(0x100, BitVec.ofNat 64 (fields [(0, 12000), (26, 1)]))] }, beat := { on.beat with now := 11999 } }
     s.beatEnable = true ∧ s.beat.periodEff ≤ s.clk + 1) := by decide

theorem reset_sound : State.reset.Sound := ⟨by decide, by decide, by decide⟩
theorem test_hyp_StepKeepsSound : ∃ t, State.reset.Sound ∧ step State.reset = .next t := ⟨_, reset_sound, rfl⟩

theorem test_hyp_MemoryLaws : Memory.wf [⟨3, 1⟩, ⟨5, 2⟩] = true ∧ Memory.wf [] = true := by decide

/-! ### Statements of the instructions -/

/-- Each operation at an end of its operand's range: branches to PC 0 and to the program's last, LOOP of count 0 and 2^24 − 1, PREFETCH of
1 and 256 lines; LAST with the next step open, and not; with another instruction outstanding; and on a WAIT_BEAT and a COMMIT_POINT. -/
theorem test_hyp_ControlFlow :
    (issues ready 0 .F opNop (word opNop 0 0 0) noPre 0 && issues ready 0 .B opJump (word opJump 0 0 0) (jumpPre (word opJump 0 0 0)) 0 &&
     issues ready 0 .U opJump (word opJump 0 0 15) (jumpPre (word opJump 0 0 15)) 0 &&
     issues ready 0 .F opCall (word opCall 0 0 15) (callPre (word opCall 0 0 15)) 0 &&
     issues (ready.modSeq 0 .F (fun q => { q with calls := [5] })) 0 .F opRet (word opRet 0 0 0) retPre 0 &&
     issues ready 0 .F opLoop (word opLoop 0 0 15) (loopPre (word opLoop 0 0 15)) 0 &&
     issues ready 0 .F opLoop (word opLoop 0 0xFFFFFF 15) (loopPre (word opLoop 0 0xFFFFFF 15)) 0 &&
     issues ready 0 .F opPrefetch (word opPrefetch 0 1 0) (prefetchPre (word opPrefetch 0 1 0)) 0 &&
     issues ready 0 .F opPrefetch (word opPrefetch 0 256 0) (prefetchPre (word opPrefetch 0 256 0)) 0 &&
     issues ready 0 .F opNop { word opNop 0 0 0 with last := true } noPre 0 &&
     issues (ready.modSeq 0 .F (fun q => { q with seqNo := 9, inflight := [{ seq := 8, step := 1 }] })) 0 .F opNop
       { word opNop 0 0 0 with last := true } noPre 0 &&
     reaches ready 0 .F opCommitPoint { word opCommitPoint 0 0 0 with last := true } noPre 0 &&
     reaches ready 0 .F opWaitBeat { word opWaitBeat 0 0 1 with last := true } noPre 0 &&
     issues (ready.modStep 0 (fun k => { k with stepNo := 2, pending := true })) 0 .F opNop { word opNop 0 0 0 with last := true } noPre 0) = true ∧
    (ready.seq 0 .F).inflight = [] := by
  decide

/-- WAIT_BEAT of the beat that has begun, of the last beat there is, and of one that has passed; COMMIT_POINT. -/
theorem test_hyp_BeatSync :
    (reaches ready 0 .F opWaitBeat (word opWaitBeat 0 0 0) noPre 0 && reaches ready 0 .F opWaitBeat (word opWaitBeat 0 0 0xFFFFFFFF) noPre 0 &&
     reaches (ready.modStep 0 (fun k => { k with beatNo := 1 })) 0 .F opWaitBeat (word opWaitBeat 0 0 0) noPre 0 &&
     reaches ready 0 .F opCommitPoint (word opCommitPoint 0 0 0) noPre 0) = true ∧ ready.clk = 0 ∧ (ready.seq 0 .F).inflight = [] := by decide

/-- Tile 0 with semaphore 7 at v. -/
def withSem (v : BitVec 16) : State := ready.modTile 0 (fun x => { x with sems := smSet 0 x.sems 7 v })

/-- SEM_SIGNAL to 0xFFFF and past it; SEM_WAIT for the value there is, and for more; a signal to the last tile of the set, and one that
arrives, with room and past 0xFFFF. -/
theorem test_hyp_SemaphoreRows :
    (issues (withSem 0xFFFE) 0 .F opSemSet (word opSemSet 0 7 0xFFFF) noPre 0 &&
     issues (withSem 0xFFFE) 0 .F opSemSignal (word opSemSignal 0 7 1) noPre 0 &&
     issues (withSem 0xFFFE) 0 .F opSemSignal (word opSemSignal 0 7 2) noPre 0 && issues (withSem 5) 0 .F opSemWait (word opSemWait 0 7 5) noPre 0 &&
     issues (withSem 5) 0 .F opSemWait (word opSemWait 0 7 6) noPre 0 &&
     issues ready 0 .F opSemRemote (word opSemRemote 0 0x3FF 1) (ready.remotePre 0 (word opSemRemote 0 0x3FF 1)) 0) = true ∧
    ready.tileCtx (bits 0x3FF 8 7) = some 0 ∧ (withSem 0).tile 0 ≠ ({} : Tile) ∧
    ((withSem 5).tile 0).semOps.any (·.clk == ready.beat.now) = false ∧
    (∀ x ∈ [Stream.F, .B, .U], ((withSem 5).seq 0 x).semHeld ready.beat.now = false) ∧
    (∀ n ∈ [1, 2], ({ withSem 0xFFFE with rsigs := [⟨0, 7, n, 0, some 1, some (0, .F)⟩] } : State).rsigs.find? (fun r => r.tgt == 0) =
      some ⟨0, 7, n, 0, some 1, some (0, .F)⟩) ∧ ((withSem 0xFFFE).seq 0 .F).faulted = false ∧
    (withSem 0xFFFE).sem 0 7 + 1 ≤ 0xFFFF ∧ 0xFFFF < (withSem 0xFFFE).sem 0 7 + 2 ∧ ready.rsigs.find? (fun r => r.tgt == 0) = none := by decide


/-- A descriptor that reads as zero is none of any class; a program's end, a poisoned line, an unlisted CLASS, a listed operation of another row, an
illegal word, a loop index that no level holds; an engine that is free. -/
theorem test_hyp_InstructionFaults :
    issues ready 0 .F opDmaRead (word opDmaRead 64 0 0) noPre 0 = true ∧ issues ready 0 .F opMm (word opMm 64 0 0) noPre 0 = true ∧
    unitsFree ready 0 = true ∧
    (match ready.asBefore.readDesc 0 (word opDmaRead 64 0 0) [] 2 [0] with
     | .error f => f.code
     | .ok _ => 0) = 0x4011 ∧
    (match ready.asBefore.readDesc 0 (word opMm 64 0 0) [] 3 [0] with
     | .error f => f.code
     | .ok _ => 0) = 0x4011 ∧
    (let q := (ready.modSeq 0 .F (fun q => { q with plen := 0 })).seq 0 .F
     q.blocked ready.beat.now = false ∧ q.plen ≤ q.pc) ∧
    (let q := (ready.modSeq 0 .F (fun q => { q with icPoison := [0] })).seq 0 .F
     q.blocked ready.beat.now = false ∧ q.pc < q.plen ∧ q.icache.contains (q.lineOf q.pc) = true ∧ q.icPoison.contains (16 * q.pbase + q.pc) = true) ∧
    opListed { word opNop 0 0 0 with cls := 8 } = false ∧ opListed { word opNop 0 0 0 with op := 6 } = false ∧
    opListed (word opJump 0 0 0) = true ∧ opNop.isOf (word opJump 0 0 0) = false ∧
    illegalWord opNop .F (word opNop 1 0 0) = true ∧
    (opMm.desc && decide ((ready.seq 0 .F).loops.length < lsel (word opMm 0x01000040 0 0))) = true := by decide +kernel

/-- LAST in a call and in a loop. -/
theorem test_hyp_LastNeedsTopLevel :
    (reaches (ready.modSeq 0 .F (fun q => { q with calls := [3] })) 0 .F opNop (word opNop 0 0 0) noPre 0 &&
     reaches (ready.modSeq 0 .F (fun q => { q with loops := [⟨0, 5, 2, 0⟩] })) 0 .F opMm (word opMm 0x01000040 0 0) noPre 0) = true ∧
    unitsFree (ready.modSeq 0 .F (fun q => { q with loops := [⟨0, 5, 2, 0⟩] })) 0 = true := by decide +kernel

/-- A DMA of one row of 32 bytes, the least there is, from and to scratch. -/
def dmaState (op : Nat) : State :=
  withDesc ready 2 op 2 [(80, 1), (96, 32), (128, scratchBase + 0x1000), (192, scratchBase + 0x2000)]

/-- A module of a board as logical ID 1 of two, both taking part in context 0. -/
def onBoard (s : State) : State := { s with board := { s.board with lid := 1, nact := 2, part := smSet 0 s.board.part 0 3 } }

def sendState : State := onBoard (withDesc ready 5 0 2 [(72, 1), (80, 1), (96, 1), (128, 32), (160, scratchBase + 0x1000)])
def postState : State := onBoard (withDesc ready 5 1 1 [(80, 1), (96, 32), (128, scratchBase + 0x1000)])

/-- The state, with a transfer of the stream given registered under offset 64 in its step. -/
def sentFrom (s : State) (st : Stream) (k : XKind) : State := { s with xfers := [{ id := 7, stream := streamNo st, step := 1, off := 64, kind := k }] }

/-- Each operation with its checks passed and no tag held; the waits with a transfer registered under their offset, of the operation that DOP names
and of another, and with none. -/
theorem test_hyp_TransferIssue :
    (issuesDesc (dmaState 0) .F opDmaRead [0] (fun d => ((dmaState 0).atWork 0 .F).dmaCheck 0 0 0 d == none) &&
     issuesDesc (dmaState 1) .B opDmaWrite [1] (fun d => ((dmaState 1).atWork 0 .B).dmaCheck 0 0 1 d == none) &&
     issuesDesc (dmaState 2) .U opDmaCopy [2] (fun d => ((dmaState 2).atWork 0 .U).dmaCheck 0 0 2 d == none) &&
     issuesDesc (dmaState 3) .F opDmaFill [3] (fun d => ((dmaState 3).atWork 0 .F).dmaCheck 0 0 3 d == none) &&
     issuesDesc sendState .B opLinkSend [0] (fun d => (sendState.atWork 0 .B).sendCheck 0 0 d == none) &&
     issuesDesc postState .U opRecvPost [1] (fun d => (postState.atWork 0 .U).postCheck 0 0 d == none)) = true ∧
    (dmaState 0).tagFree 0 = true ∧ (dmaState 0).tagWaiters < (dmaState 0).sharedFree ∧ (dmaState 0).xfers = [] ∧
    (let s := sentFrom (dmaState 2) .F .dmaCopy
     issuesDesc s .F opDmaWait [0, 1, 2] (fun d => dmaOp d == 2) = true ∧
     (s.xfers.find? (fun f => f.tile == 0 && f.stream == streamNo .F && f.step == (s.seq 0 .F).stepNo && f.off == 64 && !f.consumed && !f.released &&
       [XKind.dmaRead, .dmaWrite, .dmaCopy].contains f.kind)).map (·.id) = some 7) ∧
    (sentFrom (dmaState 2) .F .dmaRead).xfers.map (·.kind) = [.dmaRead] ∧ [XKind.dmaRead, .dmaWrite, .dmaCopy][2]? ≠ some .dmaRead ∧
    issuesDesc (sentFrom sendState .B .linkSend) .B opLinkWait [0, 1] (fun d => dmaOp d == 0) = true := by
  decide +kernel

/-- An MM of one product, and a drain of it through the chain of one PACK at local offset 128. -/
def mmFields : List (Nat × Nat) := [(64, 1), (72, 1), (80, 1), (104, 1), (108, 1), (128, 0x100), (160, 0x200)]
def chainFields (skind dkind : Nat) : List (Nat × Nat) :=
  [(48, skind), (53, dkind), (55, 1), (64, 1), (80, 1), (104, 1), (120, 1), (128, 0x300), (384, 0x400), (1280, 8)]
def mmState (op : Nat) : State := withDesc ready 3 op 2 mmFields
def chainState (op skind : Nat) : State := withDesc ready 4 op 4 (chainFields skind 1)
def drainState : State :=
  (mmState 2).wr (localKey 0 128) (toBytes 256 (fields ([(0, 4), (4, 1), (12, 1), (16, 3)] ++ chainFields 1 1)))

theorem test_hyp_MatrixElements :
    (issuesDesc (mmState 0) .F opMm [0] (fun d => ((mmState 0).atWork 0 .F).mmCheck 0 0 d false == none) &&
     issuesDesc (mmState 1) .B opMmOvw [1] (fun d => ((mmState 1).atWork 0 .B).mmCheck 0 0 d false == none) &&
     issues ready 0 .F opAccZero (word opAccZero 0 0 0) noPre 0 && issues ready 0 .F opAccZero (word opAccZero 0 1 0) noPre 0) = true ∧
    unitsFree (mmState 0) 0 = true ∧ unitsFree (mmState 1) 0 = true ∧
    ({ late := some (ready.beat.now, {}) } : XLoc).late = some (ready.beat.now, {}) ∧ ({} : XLoc).late = none := by decide +kernel

theorem test_hyp_ChainIssue :
    (issuesDesc (chainState 0 0) .U opChainRun [0] (fun d =>
       ((chainState 0 0).atWork 0 .U).chainCheck 0 0 .U d 0 (cf d 64 16) (cf d 80 24) .scratch == none) &&
     issuesDesc (chainState 1 1) .F opChainRunAcc [1] (fun d =>
       ((chainState 1 1).atWork 0 .F).chainCheck 0 0 .F d 1 (cf d 64 16) (cf d 80 24) (.acc 0 (bitOf d 50) (bitOf d 51)) == none) &&
     issues drainState 0 .F opMmDrain (word opMmDrain 64 128 0) noPre 0) = true ∧
    unitsFree (chainState 0 0) 0 = true ∧ unitsFree (chainState 1 1) 0 = true ∧ unitsFree drainState 0 = true ∧
    (match drainState.asBefore.readDesc 0 (word opMmDrain 64 128 0) [] 3 [2], (drainState.atWork 0 .F).descAt 0 128 4 [1] none with
     | .ok p, .ok k => (drainState.atWork 0 .F).mmCheck 0 0 p.2 true == none &&
         (drainState.atWork 0 .F).chainCheck 0 0 .F k 2 (mmM p.2) (mmN p.2) (.acc (mmBank p.2) (mmIntAcc p.2) (bitOf p.2 53)) == none
     | _, _ => false) = true := by decide +kernel

/-- A reduction of one value between logical IDs 0 and 1, or by this module alone. -/
def reduceState (mask : Nat) : State := onBoard (withDesc ready 5 3 1 [(64, mask), (72, 9), (128, 0x100), (160, 0x200)])

theorem test_hyp_ScalarRows :
    (issuesDesc (reduceState 3) .U opScalarReduce [3] (fun d => ((reduceState 3).atWork 0 .U).scalarCheck 0 0 d == none &&
       !(reduceState 3).poisoned (32 * dfield d 128 32) 4 && (scalarPeers d).length == 2) &&
     issuesDesc (reduceState 2) .U opScalarReduce [3] (fun d => ((reduceState 2).atWork 0 .U).scalarCheck 0 0 d == none && scalarPeers d == [1])) = true := by
  decide +kernel


/-- Context 0 with four granules of BULK, mapped from context address 0 and settled, and one slice of one element; its ledger entry lies
at granule 1 and its data at granule 2. -/
def mapped : State :=
  let r : Region := ⟨0, 0, 4, 0, 2, 1, 2, 0, false, 0xFF, 0x3FFFF, false, false, false, []⟩
  let s := ready.modCtx 0 (fun c => { c with slices := 1, lbase := granule, dbase := 2 * granule, regions := [r] })
  { s with place := (List.range 4).foldl (fun m i => smSet {} m i { tier := 2, loc := i }) [] }

/-- A KILN.UPDATE of that slice: SGDM, FP32 moments, CLIP 0; its moment at 0x1000, master at 0x2000, coefficients at 0x3000. -/
def updFields : List (Nat × Nat) :=
  [(64, 1), (72, 1), (128, 0x1000), (192, 0x2000), (256, 0x3000), (320, 0x500), (464, 1), (512, 0x4000)]
/-- The slice's ledger entry in the state given: EXPECT 1, one element. -/
def entry (arrived st : Nat) : Nat := fields [(0, 3), (8, arrived), (16, st), (64, 1), (96, 1), (112, 0x1000), (160, 0x2000), (208, 1), (224, 1)]
def updState : State := (withDesc mapped 6 0 2 updFields).wrCa 0 granule (toBytes 32 (entry 3 2))

/-- A stream with one instruction outstanding, which waits as given. -/
def waitsFor (s : State) (x : InFlight) : State := s.modSeq 0 .B (fun q => { q with inflight := [x] })

theorem test_hyp_UpdateIssue :
    issuesDesc updState .U opKilnUpdate [0] (fun d => (updState.atWork 0 .U).updCheck 0 0 1 d == none) = true ∧ updState.tagFree 0 = true ∧
    updState.tagWaiters < updState.sharedFree ∧ updState.xfers = [] ∧
    (let s := { waitsFor ready { seq := 3, wait := .tag 1 } with xfers := [{ id := 1 }] }
     s.live = true ∧ s.tagFree 0 = true ∧ s.tagBehind 1 = false ∧ s.tagWaiters ≤ s.sharedFree ∧ s.upds = [] ∧
     ((s.seq 0 .B).inflight.find? (fun y => y.seq == 3)).map (·.wait) = some (.tag 1)) ∧
    (let s := { waitsFor ready { seq := 3, wait := .tag 1 } with xfers := [{ id := 1, kind := .kiln }], upds := [{ id := 1, stage := .tag }] }
     s.upds.find? (fun u => u.id == 1 && u.stage == .tag) = some { id := 1, stage := .tag } ∧ (s.ctx 0).step.updated.contains (0, updSlice 0) = false ∧
     s.tagFree 0 = true ∧ s.tagBehind 1 = false ∧ s.tagWaiters ≤ s.sharedFree) ∧
    (let s := { waitsFor ready { seq := 3, wait := .chainTag 1 } with
                xfers := [{ id := 1 }], mig := { ready.mig with moves := [{ tags := 262144 }] } }
     s.tagFree 0 = false ∧ (s.xfers.find? (fun g => g.id == 1)).isSome = true) := by decide +kernel


/-- Tile 0 with a cask arena of n units, and the slots given. -/
def withArena (s : State) (n : Nat) (dir : SMap CaskSlot) : State :=
  s.modTile 0 (fun x => { x with cask := { x.cask with abase := 0x80000, aunits := n, dir := dir } })

/-- Of one unit (the least entry, 32 bytes), layer 5, microbatch 2, X. -/
def caskState (op : Nat) (s : State) : State :=
  withDesc s 7 op 1 ([(64, 5), (80, 2)] ++ if op = 2 then [] else [(96, 0x100), (128, 1)])
def slot : CaskSlot := { layer := 5, mb := 2, par := 1, valid := true, loc := 1, size := 1, recomp := true, rpc := 9 }

/-- A stalled PUT in B's stream, since clk n. -/
def stalled (n tick freed : Nat) : State :=
  let s := (waitsFor (withArena ready 1 []) { seq := 3, cls := 7, wait := .cask, clk := n, step := 1 }).modTile 0
    (fun x => { x with cask := { x.cask with freedClk := freed } })
  { s with beat := { s.beat with now := 200, tickClk := tick } }

theorem test_hyp_CaskRows :
    ([caskState 0 (withArena ready 2 []), caskState 0 (withArena ready 1 [])].all (fun s =>
      issues s 0 .F opCaskPut (word opCaskPut 64 0 0) (s.caskPre 0) 0 && !s.caskLate 0 .F &&
      match (s.atWork 0 .F).readDesc 0 (word opCaskPut 64 0 0) [] 7 [0] with
      | .ok p => caskBody 0 p.2 == none && (s.atWork 0 .F).caskReach 0 p.2 == none && (s.atWork 0 .F).putFault 0 0 p.2 1 == none
      | .error _ => false)) = true ∧
    (let s := caskState 0 (withArena ready 2 [])
     let d := fields [(64, 5), (80, 2), (96, 0x100), (128, 1)]
     let k := (s.tile 0).cask
     ((s.atWork 0 .F).caskPlace 0 0 .F d 1).2 = true ∧ (k.freeSlot s.beat.now).isSome = true ∧ caskMin d = 0 ∧ 0 < (k.room 0).2 ∧
     (k.fit s.beat.now 0 (caskUnits (caskSize d))).isSome = true) ∧
    ((caskState 0 (withArena ready 1 [])).caskPlace 0 0 .F (fields [(64, 5), (80, 2), (96, 0x100), (128, 1)]) 1).2 = false ∧
    ([slot, { slot with dropped := true }].all (fun k =>
      let s := caskState 1 (withArena ready 2 [(0, k)])
      issues s 0 .B opCaskGet (word opCaskGet 64 0 0) (s.caskPre 0) 0 &&
      match (s.atWork 0 .B).readDesc 0 (word opCaskGet 64 0 0) [] 7 [1] with
      | .ok p => caskBody 1 p.2 == none && (s.atWork 0 .B).caskReach 0 p.2 == none && caskSize p.2 == k.size &&
          (s.tile 0).cask.find (caskLayer p.2) (caskMb p.2) (caskKind p.2) 1 == some (0, k)
      | .error _ => false)) = true ∧
    (let s := caskState 2 (withArena ready 2 [(0, slot)])
     issues s 0 .B opCaskRelease (word opCaskRelease 64 0 0) (s.caskPre 0) 0 &&
     match (s.atWork 0 .B).readDesc 0 (word opCaskRelease 64 0 0) [] 7 [2] with
     | .ok p => caskBody 2 p.2 == none
     | .error _ => false) = true := by decide +kernel

/-- The first clk in which a stalled PUT tries again is the one after units were freed; the tick that ends its beat completes it, or finds its step
to abort. -/
theorem test_hyp_CaskRows_stalled :
    (let s := stalled 100 100 199
     let k := (s.tile 0).cask
     s.live = true ∧ s.tileCtx 0 = some 0 ∧ ((s.seq 0 .B).inflight.find? (fun y => y.wait == .cask)).isSome = true ∧
     100 ≤ k.freedClk ∧ k.freedClk < s.beat.now ∧ s.beat.tickClk ≤ 100 ∧ s.caskLate 0 .B = false) ∧
    ((stalled 100 100 200).tile 0).cask.freedClk = 200 ∧ (stalled 100 101 0).beat.tickClk = 101 ∧ (stalled 100 101 0).abortDue 0 1 = false ∧
    (let s := stalled 100 101 0
     ({ s.modStep 0 (fun k => { k with causes := [⟨0x2002, some 1, 0, 0, true⟩] }) with
        board := { s.board with applied := some ⟨0, 0, 0, 1⟩ } } : State).abortDue 0 1 = true) := by decide +kernel

/-- A tile whose B stream has x outstanding, with a transfer done or not. -/
def awaited (x : InFlight) (done : Bool) : State := { waitsFor ready x with xfers := [{ id := 1, tag := true, done := done }] }

theorem test_hyp_InsnCompletes :
    (let x : InFlight := { seq := 3, cls := 3, bank := some 0 }
     let s := awaited x false
     s.live = true ∧ (s.seq 0 .B).inflight.find? (fun y => y.seq == 3) = some x ∧ (s.tile 0).getBehind x = false ∧
     (∀ q ∈ [Stream.F, .U], (s.seq 0 q).inflight = []) ∧ (s.seq 0 .B).inflight = [x]) ∧
    (let x : InFlight := { seq := 3, cls := 1, op := 4, wait := .passed 0 1 0 }
     let s := awaited x false
     ({ s with beat := { s.beat with now := 1 } } : State).beat.now = 0 + 1 ∧ s.beat.now ≤ 0) ∧
    ((awaited { seq := 3, wait := .xfer 1 } true).xfers.find? (fun g => g.id == 1)).map (·.done) = some true ∧
    ((awaited { seq := 3, wait := .xfer 1 } false).xfers.find? (fun g => g.id == 1)).map (·.done) = some false ∧
    (Wait.cask ≠ .none ∧ ∀ id ∈ [0, 1], Wait.cask ≠ .xfer id) ∧
    (let s := ready.modSeq 0 .F (fun q => { q with fetching := [7, 8, 9] })
     s.live = true ∧ s.tileCtx 0 = some 0 ∧ (s.seq 0 .F).fetching = [7, 7 + 1, 7 + 2] ∧ (s.seq 0 .F).prefetching = []) := by decide +kernel

theorem test_hyp_RecordLayout : ({ cls := 15, op := 255 } : InFlight).cls < 16 ∧ ({ cls := 15, op := 255 } : InFlight).op < 256 := by decide

theorem test_hyp_InstructionFrame :
    ∃ u, exec (.nop 0 .F (word opNop 0 0 0)) ready = .next u ∧ (.nop 0 .F (word opNop 0 0 0), opNop) ∈ instructionRows 0 .F (word opNop 0 0 0) ∧
      ready.tileCtx 0 ≠ some 1 ∧ unitsFree ready 0 = true :=
  ⟨_, rfl, by decide, by decide, by decide⟩


/-! ### Statements of beats, verdicts and steps -/

/-- BEAT_CTL with SOURCE and ENABLE as given. -/
def withBeat (s : State) (source enable : Nat) : State :=
  { s with cfg := { s.cfg with eff := [(0x100, BitVec.ofNat 64 (fields [(0, 12000), (16, 16), (24, source), (26, enable)]))] } }

/-- A verdict held for tick 1 while the generator runs. -/
theorem test_hyp_TickBegins :
    (let s := { withBeat ready 0 1 with board := { ready.board with held := some ⟨1, 1, 0, 0⟩ } }
     s.live = true ∧ s.beatEnable = true ∧ s.board.applied = none ∧ s.cfg.due = 0 ∧ s.cfg.strobe = 0 ∧ s.evt.wdog = false ∧ s.source = 0 ∧
     (∀ q, q < 4 → s.dieCut q = false) ∧
     s.board.held.map (·.tick) = some ((s.beat.tick + 1) % 2 ^ 64)) ∧
    (let s := withBeat (onBoard ready) 2 1
     s.forms = false ∧ s.board.held = none ∧ s.beatEnable = true) ∧ ready.beatEnable = false := by decide +kernel

/-- A marker of logical ID 0, the beat master's, of tick 0. -/
def sign : Marker := ⟨0, true, false, false, 12000, 0, 0, 0, 0, 0, 0⟩

/-- The module of test_hyp_TransferIssue as a follower, whose markers of tick 0 ask of context 0 as given. -/
def marked (openM commitM abortM : BitVec 16) : State :=
  let m : Marker := { sign with openReady := openM, commitReady := commitM, abortReq := abortM }
  let s := withBeat (onBoard ready) 2 1
  { s with board := { s.board with markers := [m], own := some { m with srcLid := 1 } } }

/-- Context 0 of both modules asks for an abort, is ready to commit and is ready to open, each alone. The verdict rows: a module that
forms (its own board), and one that follows; the verdict of the coming tick and of the one after it, and one whose CRC fails, early and late in a
beat. -/
theorem test_hyp_VerdictRows :
    (marked 0 0 1).participants 0 = [0, 1] ∧ (∀ l ∈ (marked 0 0 1).participants 0, (marked 0 0 1).markerBit (·.abortReq) 0 l = true) ∧
    (∀ l ∈ (marked 0 1 0).participants 0, (marked 0 1 0).markerBit (·.abortReq) 0 l = false ∧
      (marked 0 1 0).markerBit (·.commitReady) 0 l = true) ∧
    (∀ l ∈ (marked 1 0 0).participants 0, (marked 1 0 0).markerBit (·.openReady) 0 l = true) ∧
    (withBeat ready 0 1).forms = true ∧ (withBeat ready 0 1).beatEnable = true ∧ (marked 0 0 0).forms = false ∧ (marked 0 0 0).live = true ∧
    (let v : Verdict := ⟨1, 1, 2, 0x8000⟩
     verdictOk (v.image 0) = true ∧ verdictOfBytes (v.image 0) = v ∧ v.tick = ((marked 0 0 0).beat.tick + 1) % 2 ^ 48) ∧
    (verdictOk ((⟨2, 0, 0, 0⟩ : Verdict).image 0) = true ∧
      (verdictOfBytes ((⟨2, 0, 0, 0⟩ : Verdict).image 0)).tick ≠ ((marked 0 0 0).beat.tick + 1) % 2 ^ 48) ∧
    (let s (n : Nat) : State := { marked 0 0 0 with beat := { (marked 0 0 0).beat with now := n }, cfg := (marked 0 0 0).cfg }
     verdictOk [] = false ∧ (s 6000).live = true ∧ (s 6000).forms = false ∧ 2 * (s 6000).clk ≤ (s 6000).beat.periodEff ∧
     (s 6001).beat.periodEff < 2 * (s 6001).clk ∧ smGet 0 (s 0).board.again 0 < 3) ∧
    (let s := { ready with board := { ready.board with missing := [4], missBeats := 2, recent := [⟨4, 0, 0, 0⟩] } }
     s.board.missing.contains 4 = true ∧ s.board.missing.contains 5 = false ∧ 2 ≤ s.board.missBeats ∧
     (s.board.recent.find? (fun x => x.tick == 4)).isSome = true ∧ s.board.recent.find? (fun x => x.tick == 5) = none ∧ s.forms = true ∧
     2 ≤ ((s.modPort 0 (fun x => { x with st := 2 })).port 0).st) := by decide +kernel

theorem test_hyp_AbortWins :
    (0 : Nat) ∈ (marked 0 1 1).participants 0 ∧ (marked 0 1 1).markerBit (·.abortReq) 0 0 = true ∧
    ({ marked 0 1 1 with board := { (marked 0 1 1).board with applied := some (marked 0 1 1).formVerdict } } : State).live = true := by decide +kernel

/-- A marker of the follower's master, with the board's epoch and with another, early in a beat and late; one with a bad CRC; a lost master; a pulse
at the window's two ends and just outside them. -/
theorem test_hyp_MarkerRows :
    (let s := (marked 0 0 0).modPort 0 (fun x => { x with st := 2 })
     s.live = true ∧ (s.port 0).st ≠ 0 ∧ s.standalone = false ∧ s.source = 2 ∧ s.board.ignored.contains 0 = false ∧
     markerOk sign.image = true ∧ markerOfBytes sign.image = sign ∧ (markerOfBytes sign.image).epoch = BitVec.ofNat 16 s.board.epoch.toNat ∧
     markerOk ({ sign with epoch := 1 } : Marker).image = true ∧
     (markerOfBytes ({ sign with epoch := 1 } : Marker).image).epoch ≠ BitVec.ofNat 16 s.board.epoch.toNat ∧ markerOk [] = false ∧
     2 * s.clk ≤ s.beat.periodEff ∧ smGet 0 s.board.again 0 < 3 ∧
     2 * ((s.beat.now : Int) - (s.port 0).lat - s.beat.tickClk) ≤ s.beat.periodEff ∧
     s.beat.periodEff < 2 * (((6001 : Nat) : Int) - (s.port 0).lat - s.beat.tickClk)) ∧
    (let s := { withBeat (onBoard ready) 2 1 with beat := { ready.beat with now := 11999 } }
     s.masterLost = true ∧ s.beat.holdover = false ∧ (s.ctx 0).step.flight ≠ []) ∧ (marked 0 0 0).masterLost = false ∧
    (let s := withBeat ready 1 1
     s.live = true ∧ s.source = 1 ∧ s.beatEnable = true ∧ s.beat.pulse = none ∧
     (s.beat.periodEff ≤ 11996 + 4 ∧ 12004 ≤ s.beat.periodEff + 4) ∧ 11995 + 4 < s.beat.periodEff ∧ s.beat.periodEff + 4 < 12005) := by
  decide +kernel

/-- Context 0 with a verdict of the tick as given. -/
def judged (s : State) (openM commitM abortM : BitVec 16) : State :=
  { s with board := { s.board with applied := some ⟨0, openM, commitM, abortM⟩ } }
/-- A run of context 0 with no step in flight. -/
def idleRun : State :=
  { ready with hub := { ready.hub with mode := 2 } }.modStep 0 (fun k => { k with opened := false, running := true, endless := true })

theorem test_hyp_StepOpens :
    (let s := judged idleRun 1 0 0
     s.live = true ∧ s.hub.mode = 2 ∧ (s.ctx 0).step.more = true ∧ (s.ctx 0).st = .isOpen ∧ ¬ (s.source = 2 ∧ s.beat.holdover = true) ∧
     ¬ ((s.ctx 0).step.opened = true ∧ (s.ctx 0).step.pending = true)) ∧
    (judged ready 1 0 0).hub.mode = 0 ∧
    (∃ v, (judged idleRun 0 0 0).board.applied = some v ∧ bitOf v.openM.toNat 0 = false) ∧
    (let k := (ready.modStep 0 (fun k => { k with pending := true })).ctx 0
     k.step.opened = true ∧ k.step.pending = true) := 
  ⟨by decide +kernel, by decide, ⟨_, rfl, by decide⟩, by decide +kernel⟩

theorem test_hyp_StepCommits :
    (judged ready 0 1 0).live = true ∧ ((judged ready 0 1 0).ctx 0).step.flight = 1 :: [] ∧
    bitOf ((1 : BitVec 16)).toNat 0 = true ∧ bitOf ((0 : BitVec 16)).toNat 0 = false := by decide +kernel

/-- Two steps in flight and a cause that names the second: the abort takes it alone. -/
theorem test_hyp_StepAborts :
    (let s := judged (ready.modStep 0 (fun k => { k with stepNo := 2, pending := true, causes := [⟨0x2002, some 2, 0, 0, true⟩] })) 0 0 1
     s.live = true ∧ (s.ctx 0).step.abortFrom = some 2 ∧ (∀ f, f < 17 → (s.fn f).busy = none) ∧ (∀ f, f < 16 → (s.fn f).l2 = none)) ∧
    (judged ready 0 0 1).ctx 0 ≠ ({} : Ctx) ∧ ((judged ready 0 0 1).ctx 0).step.abortFrom = some 1 := by decide +kernel


/-! ### Statements of registers, the hub, units and power -/

/-- A host port up, so that its functions are reached. -/
def hosted (s : State) : State := s.modHport 0 (fun x => { x with up := true, vfEnable := true, numVfs := 7 })

/-- A part in whose last clk the groups of m were strobed. -/
def strobed (m : BitVec 16) : State := { on with cfg := { on.cfg with strobe := m } }

/-- A strobe of group 0 alone and of every group, and the clk after it; an arming for the next tick, one for a named one; the compare engine with
one group that differs, and with none. -/
theorem test_hyp_StrobeRows :
    (on.live = true ∧ on.groupOf 0x100 = some 0 ∧ bitOf ((1 : Word)).toNat 0 = true ∧ bitOf ((2 : Word)).toNat 0 = false ∧
     on.beatEnable = false) ∧
    ((strobed 1).live = true ∧ (strobed 1).pending = [] ∧ (strobed 1).beatEnable = false ∧ (strobed 1).cfg.strobe ≠ 0 ∧
     (strobed 0xFFFF).live = true ∧ (strobed 0xFFFF).cfg.strobe ≠ 0 ∧ ∀ q, q < 4 → (strobed 1).qst q = 0) ∧
    (bitOf ((1 : Word)).toNat 48 = false ∧ bitOf ((fields [(48, 1), (16, 1)] : Nat)) 48 = true ∧ tickAfter 1 on.beat.tick = true) ∧
    (let s := { withBeat on 0 1 with beat := { on.beat with now := 1 } }
     s.clk = 1 ∧ s.beatEnable = true ∧ (∀ k, k < 16 → (bitOf (s.cfgRef k) 32 && s.cfgCrc k != bits (s.cfgRef k) 0 32) = false)) ∧ on.clk ≠ 1 ∧
    (let s := { withBeat on 0 1 with beat := { on.beat with now := 1 }, rwi := [(0x100200 + 8 * 7, BitVec.ofNat 64 (2 ^ 32))] }
     (∀ k, k < 16 → ((bitOf (s.cfgRef k) 32 && s.cfgCrc k != bits (s.cfgRef k) 0 32) = true ↔ k = 7)) ∧ bitOf s.cfg.mismatch.toNat 7 = false ∧
     bits s.evtCfg 8 8 = 0 ∧ (7 ≠ 0 ∧ 7 ≠ 3)) := by decide +kernel

theorem test_hyp_RegisterWrites :
    (hosted on).live = true ∧ (hosted on).postReach 0 = true ∧ accessOk 0x101 8 = false ∧ accessOk 0x104 8 = false ∧
    (rwiInfo (hosted on).variant 0x401000).isSome = true ∧ (hosted on).rws 0x401000 = none ∧ (hosted on).regOffset 0 0x401004 = some 0x401004 ∧
    (hosted on).cfg.maltster.contains 0x100 = false ∧ ({ hosted on with cfg := { on.cfg with maltster := [0x100] } } : State).cfg.maltster.contains 0x100 = true ∧
    accessOk 0x100 8 = true ∧ accessOk 0x104 4 = true ∧ (hosted on).regOffset 0 0x104 = some 0x104 ∧ ((hosted on).rws 0x100).isSome = true ∧
    (hosted on).regOffset 1 0x100 = none ∧ (hosted on).postReach 1 = true ∧ (hosted on).rws offLnkRemap ≠ none ∧ on.postReach 0 = false ∧
    mayWriteFn 1 1 = true ∧ mayWriteFn 0 7 = true ∧ mayWriteFn 1 2 = false ∧ (hosted on).flagRefused 0 0 0 = true := by decide +kernel

/-- A hub in NORMAL (MODE 2) with the ring enabled, quadrant 0 in the state given. -/
def hub (qst fails : Nat) : State := { on with hub := { on.hub with mode := 2, qstate := smSet 0 [] 0 qst, fails := smSet 0 [] 0 fails } }

/-- Arbiters of a hub port with two requesters, one at the age limit or not, with none, and with a grant that ends and one of this clk; a tile's DMA
engine with a transfer that asks, and whose request finds a tag or none; a grant to cut and one that is not; each state of a quadrant that the
bridge's rows meet, a trained bridge at its tick, and a part without a ring. -/
theorem test_hyp_HubRows :
    (arbOk on.variant 0 = true ∧ presentOf on.variant 0 [0, 1] ≠ [] ∧ presentOf on.variant 0 [] = [] ∧ on.ageLimit ≠ 0 ∧ on.live = true ∧
     on.mayDraw 0 false = true) ∧
    (let s := { on with beat := { on.beat with now := 9 } }.modArb 0 (fun a => { a with grant := some ⟨0, false, 8, .other, false, none⟩ })
     s.mayDraw 0 true = true ∧ s.mayDraw 0 false = false ∧
     (s.modArb 0 (fun a => { a with grant := some ⟨0, false, 9, .other, false, none⟩ })).mayDraw 0 true = false) ∧
    (let f : Xfer := { id := 1, tag := true, left := 2, desc := fields [(80, 1), (96, 32), (128, scratchBase), (192, scratchBase + 64)] }
     let s : State := { ready with xfers := [f] }
     s.dmaStreams 0 = [0] ∧ s.mayDraw 18 false = true ∧ s.reqTags f ≤ min s.sharedFree (s.ctxRoom f.ctx) ∧
     s.xfers.find? (fun f => f.tile == 0 && f.stream == 0 && f.asksDma) = some f) ∧
    (let f : Xfer := { id := 1, kind := .dmaRead, tag := true, left := 2,
                       desc := fields [(80, 1), (96, 32), (128, 0), (192, scratchBase)] }
     let s : State := { mapped with xfers := [f], mig := { mapped.mig with moves := [{ tags := 262144 }] } }
     min s.sharedFree (s.ctxRoom f.ctx) < s.reqTags f) ∧
    (let s := { on with beat := { on.beat with now := 9 } }.modArb 0 (fun a =>
       { a with grant := some ⟨0, false, 8, .other, false, none⟩, loss := smSet 0 a.loss 1 on.ageLimit })
     (s.arb 0).grant = some ⟨0, false, 8, .other, false, none⟩ ∧ on.ageLimit ≤ smGet 0 (s.arb 0).loss 1 ∧ s.beat.now ≠ 8 ∧
     preemptClass 0 0 = false ∧ ∃ n ∈ presentOf on.variant 0 [0, 4], preemptClass 0 n = true) ∧
    ((hub 0 0).live = true ∧ (hub 0 0).hub.mode = 2 ∧ (hub 0 0).ringEn = true ∧ (hub 0 0).qst 0 = 0 ∧ ∀ i, i < 4 → i ≠ 0 → (hub 0 0).qst i = 0) ∧
    ((hub 0 0).retrainsOf 0 < (hub 0 0).retrainMax) ∧
    (let s := { hub 0 0 with hub := { (hub 0 0).hub with starts := List.replicate (hub 0 0).retrainMax (0, 0) } }
     s.retrainMax ≤ s.retrainsOf 0) ∧
    ((hub 1 1).qst 0 = 1 ∧ smGet 0 (hub 1 1).hub.fails 0 < 2 ∧ (hub 1 1).hub.trained.contains 0 = false) ∧
    ((hub 1 2).qst 0 = 1 ∧ 2 ≤ smGet 0 (hub 1 2).hub.fails 0) ∧
    (let s := withBeat { hub 1 0 with hub := { (hub 1 0).hub with trained := [0], mode := 3 } } 0 1
     s.live = true ∧ s.hub.trained.contains 0 = true ∧ s.beatEnable = true ∧ s.board.applied = none ∧ s.cfg.due = 0 ∧ s.cfg.strobe = 0 ∧
     s.evt.wdog = false ∧ s.hub.trained = [0] ∧ s.ringEn = true ∧ s.hub.mode = 3 ∧ ∀ i, i < 4 → i ≠ 0 → s.qst i = 0) ∧
    (let s := { hub 0 0 with cfg := { on.cfg with eff := [(0x400008, 0), (0x3801010, 0)] } }
     s.live = true ∧ s.hub.mode = 2 ∧ s.ringEn = false ∧ (∀ i, i < 4 → s.qst i = 0) ∧ bitOf s.evtCfg 0 = false) := by decide +kernel

/-- A tile at the first tick at which it has waited long enough, and at the tick before. -/
theorem test_hyp_UnitRows :
    unitKeys (.tile 5) = [21] ∧ on.live = true ∧
    (let s := on.modUnit 21 (fun x => { x with waking := true })
     let x := { s with beat := { s.beat with tick := wakeBeats 21 } }.unit 21
     x.waking = true ∧ x.grantTick + wakeBeats 21 ≤ wakeBeats 21 ∧ x.kept = false ∧ ¬ (x.grantTick + wakeBeats 21 ≤ wakeBeats 21 - 1)) ∧
    (let s := on.modUnit 21 (fun x => { x with waking := true, kept := true, epoch := on.epochRef 21 })
     (s.unit 21).epoch = s.epochRef 21 ∧ (s.unit 21).wrap = false) ∧
    (let s := on.modUnit 21 (fun x => { x with waking := true, kept := true, epoch := on.epochRef 21 + 1 })
     (s.unit 21).epoch ≠ s.epochRef 21) ∧
    (let s := on.modUnit 16 (fun x => { x with draining := true, pendEn := true })
     (s.unit 16).draining = true ∧ s.unitIdle 16 = true ∧ (s.unit 16).waking = false) ∧ (on.unit 16).draining = false ∧
    (on.ctx 0).releasing = [] ∧ ((on.modCtx 0 (fun c => { c with releasing := [{}] })).ctx 0).releasing ≠ [] := by decide +kernel

theorem test_hyp_PowerOnBoots :
    State.reset.pwr.powered = false ∧ on.pwr.powered = true ∧ ({ State.reset with boot := { State.reset.boot with boots := 1 } } : State).boot.boots ≠ 0 ∧
    ready.live = true ∧ ready.boot.test = false ∧ ({ ready with boot := { ready.boot with test := true } } : State).boot.test = true ∧
    (ready.ctx 0).step.flight ≠ [] := by decide +kernel

/-- The ends of the ranges of the input and of the power: 42.0, 44.0, 60.0 and 63.0 V; 1,400 and 1,700 W. -/
theorem test_hyp_PowerRows :
    on.pwr.powered = true ∧ on.pwr.clkOk = true ∧ on.pwr.coreRails = true ∧ State.reset.pwr.coreRails = false ∧ on.live = true ∧
    (41999 < 42000 ∧ 63000 < 63001) ∧ (42000 ≤ 43999 ∧ 43999 < 44000) ∧ (60000 < 60001 ∧ 63000 ≤ 63000) ∧ (44000 ≤ 44000 ∧ 60000 ≤ 60000) ∧
    (onBoard on).board.lid ≠ 0 ∧ ({ on with board := { on.board with lid := 0 } } : State).board.lid = 0 ∧ on.pwr.peak = false ∧
    ({ on with pwr := { on.pwr with peak := true, peakTick := 1 } } : State).pwr.peakTick ≠ on.beat.tick := by decide +kernel

/-- A part whose core is held as given. -/
def heldBy (l : L3State) : State := { on with pwr := { on.pwr with l3 := l } }
theorem test_hyp_DeviceResets :
    ready.live = true ∧ ready.modKeep = false ∧ (ready.ctx 0).st = .isOpen ∧
    ({ ready with cfg := { ready.cfg with eff := [(0x200008, 1)] } } : State).modKeep = true ∧
    ∀ l ∈ [L3State.none, .heldReset, .heldTrip, .heldBoth], (heldBy l).pwr.powered = true ∧ (heldBy l).pwr.clkOk = true ∧ (heldBy l).pwr.l3 = l := by
  decide +kernel


/-! ### Statements of links and the board -/

/-- Port 0 in the state st, and port 0 the way to logical ID 0. -/
def linked (st : Nat) : State :=
  let s := (onBoard ready).modPort 0 (fun x => { x with st := st, rxSeq := 4095 })
  { s with cfg := { s.cfg with eff := [(offLnkRemap, BitVec.ofNat 64 (fields [(0, 0), (4, 1), (8, 0xFFFFFF)]))] } }

/-- A flit of logical ID 0 with the number given, tag 5, of a send of one row of 32 bytes. -/
def flit (ftype : FlitType) (lseq : Nat) (last : Bool) : Flit :=
  mkFlit { ftype := ftype, lseq := lseq, last := last, tag := 5 } (List.replicate 32 1) (.send (fields [(72, 1), (80, 1), (88, 5), (96, 1), (128, 32)]) 1)
/-- A post of one row of 32 bytes for tag 5 from logical ID 0, and a send with tag 5 to logical ID 0. -/
def post : Xfer := { id := 1, kind := .recvPost, tag := true, desc := fields [(64, 5), (80, 1), (96, 32)] }
def sent : Xfer := { id := 2, kind := .linkSend, tag := true, got := 1, desc := fields [(72, 1), (88, 5)] }

/-- The last flit number before the wrap, of each kind; one whose CRC fails; a map for the board; one replay buffered; a send whose tag is refused. -/
theorem test_hyp_FlitRows :
    (linked 2).live = true ∧ 2 ≤ ((linked 2).port 0).st ∧ (flit .data 4095 true).crcOk = true ∧
    (flit .data 4095 true).lseq = ((linked 2).port 0).rxSeq ∧ (⟨[], .nothing⟩ : Flit).crcOk = false ∧
    (flit .data 0 true).crcOk = true ∧ (flit .data 0 true).lseq ≠ ((linked 2).port 0).rxSeq ∧
    (flit .data 4095 true).ftype = some .data ∧ (flit .data 4095 true).first = true ∧ (flit .data 4095 true).last = true ∧
    (flit .ledger 4095 false).ftype = some .ledger ∧ (flit .ledger 4095 false).last = false ∧ (linked 2).postFor (flit .data 4095 true) = none ∧
    (({ linked 2 with xfers := [post] } : State).postFor (flit .data 4095 false)).isSome = true ∧
    ({ linked 2 with xfers := [post] } : State).postFor (flit .data 4095 true) = some post ∧
    sendRows (flit .data 4095 true).desc * sendRlen (flit .data 4095 true).desc = postRows post.desc * postRlen post.desc ∧
    (let f := mkFlit { ftype := .control, lseq := 4095 } (toBytes 16 7) .remap
     f.crcOk = true ∧ f.lseq = 4095 ∧ f.ftype = some .control ∧ f.note = .remap ∧ (linked 2).standalone = false) ∧
    (let s := (linked 2).modPort 0 (fun x => { x with replay := [flit .data 7 true] })
     (s.port 0).replay.dropWhile (fun f => f.lseq != 7) ≠ [] ∧ (s.port 0).replay.dropWhile (fun f => f.lseq != 8) = [] ∧
     ¬ (bits (s.lnkPcfg 0) 16 16 < (s.port 0).replays + 1)) ∧
    (let s := (linked 2).modPort 0 (fun x => { x with replays := bits ((linked 2).lnkPcfg 0) 16 16 })
     bits (s.lnkPcfg 0) 16 16 < (s.port 0).replays + 1) ∧
    (let s := { linked 2 with xfers := [sent] }
     s.xfers.find? (fun f => f.kind == .linkSend && !f.done && !sendLedger f.desc && dfield f.desc 88 8 == 5 &&
       (sendPeers f.desc).any (fun l => s.portOfLid l == 0 && bitOf f.got l)) = some sent) := by decide +kernel

/-- The 64th scalar message and the one after it. -/
theorem test_hyp_ScalarRows_held :
    (linked 2).lidOfPort 0 = some 0 ∧ (linked 2).reduceWaiter 0 9 = none ∧ 2 ≤ ((linked 2).port 0).st ∧
    (let s (n : Nat) : State := { linked 2 with board := { (linked 2).board with scalars := List.replicate n ⟨0, 0, 9, 1, []⟩ } }
     (s 63).board.scalars.countP (fun m => m.ctx == 0 && m.lid == 0) < 64 ∧ 64 ≤ (s 64).board.scalars.countP (fun m => m.ctx == 0 && m.lid == 0)) := by
  decide +kernel

/-- Port 0 in service and enabled, on the board as the slot 1. -/
def trained (st : Nat) : State :=
  let s := (linked st).modUnit 112 (fun x => { x with active := true })
  { s with board := { s.board with slot := 1 } }
/-- A training that found slot n behind the port. -/
def training (n : Nat) (lanes : BitVec 8) : Training := ⟨lanes, false, n, 0, 0, 0⟩

/-- A module where logical ID l, or the spare (8), has not been seen for three ticks; AUTO and the spare's service as given. -/
def missed (l : Nat) (auto spareOk : Bool) (phase : Nat) : State :=
  { linked 2 with board := { (linked 2).board with auto := auto, spareOk := spareOk, phase := phase, unseen := smSet 0 [] l 3 } }

theorem test_hyp_PortRows :
    (trained 2).lidOfPort 0 = some 0 ∧ (trained 2).standalone = false ∧ (trained 2).board.lid < 8 ∧ (0 : Nat) ∈ (trained 2).ctxsOf 0 ∧
    (trained 2).board.lid ∈ (trained 2).participants 0 ∧ ((trained 2).ctx 0).step.flight ≠ [] ∧
    (bitOf ((trained 2).lnkPcfg 0) 1 = true ∧ bits (0x0F : BitVec 8).toNat 0 4 = 15 ∧ bits (0xF7 : BitVec 8).toNat 4 4 = 15) ∧
    ((trained 0).unit 112).active = true ∧ bitOf ((trained 0).lnkPcfg 0) 0 = true ∧ (trained 0).miscabled 0 (training 0 0xFF) = false ∧
    (trained 0).miscabled 0 (training 1 0xFF) = true ∧ ((linked 0).unit 112).active = false ∧
    (missed 0 true true 0).seemsFailed 0 = true ∧ (missed 0 false false 0).seemsFailed 0 = true ∧ (missed 0 true false 0).seemsFailed 0 = true ∧
    (missed 0 true true 1).tkoRuns = true ∧ (missed 0 true true 4).tkoRuns = true ∧ (missed 0 true true 0).tkoRuns = false ∧
    (missed 8 true true 0).seemsFailed 8 = true ∧ (linked 2).seemsFailed 0 = false ∧ (linked 2).seemsFailed 8 = false := by decide +kernel

/-- A remap to come at tick 10, at the tick before it and at it; a takeover's phases. -/
theorem test_hyp_TakeoverRows :
    (let s (n ph : Nat) : State := { linked 2 with beat := { (linked 2).beat with tick := n },
                                                   board := { (linked 2).board with remapAt := some (10, [1], 0xF), phase := ph } }
     (s 9 1).beat.tick < 10 ∧ 10 ≤ (s 10 2).beat.tick ∧ (∀ f, f < 17 → ((s 10 2).fn f).busy = none) ∧ (s 10 3).board.phase = 3 ∧
     (s 10 3).board.sourcesMissing = false ∧ (s 10 3).board.lid ≠ (s 10 3).board.flid ∧ (s 10 4).board.phase = 4 ∧ (s 10 4).board.flid < 9) ∧
    (let s : State := { linked 2 with board := { (linked 2).board with phase := 3, flid := 1 } }
     s.board.lid = s.board.flid ∧ s.sourceFresh s.board.flid = none) ∧ (linked 2).board.remapAt = none ∧ (linked 2).board.phase ≠ 3 ∧
    (linked 2).board.phase ≠ 4 := by decide +kernel

/-! ### Statements of windows, placement and transfers -/

/-- The part of updState behind host port 0, its function 0 with a window. -/
def windowed : State := (hosted mapped).modFn 0 (fun x => { x with bme := true, winLog2 := 1 })
def held : HeldWrite := { port := 0, fn := 0, ctx := 0, ca := 64, data := [1], flags := [3] }

/-- The window's first byte and its last, and the byte past it. -/
theorem test_hyp_WindowRows :
    windowed.live = true ∧ windowed.fnReach 0 = true ∧ windowed.credits 0 = true ∧ windowed.fnCtx 0 = some 0 ∧
    windowed.winSize 0 - 1 < windowed.winSize 0 ∧ 0 < windowed.winSize 0 ∧ windowed.fnCtx 1 = none ∧ windowed.fnReach 1 = true ∧
    ((windowed.modCtx 0 (fun c => { c with frozen := true })).ctx 0).frozen = true ∧
    (let ca := windowed.winBase 0 + 4095
     (windowed.ctx 0).frozen = false ∧ windowed.winMapped 0 ca 1 = true ∧ windowed.guarded 0 (ca / granule) = false ∧
     ca / 4096 = (ca + 1 - 1) / 4096 ∧ (windowed.pent 0).mstate = 0 ∧ (windowed.pent 0).tier ≠ 3 ∧ (windowed.pent 0).fresh = false ∧
     windowed.translate 0 ca = .mem 0 (daKey 2 0 4095) ∧ windowed.hdrAt (daKey 2 0 4095) = 0 ∧ windowed.flagsAt 0 ca 1 = [] ∧
     windowed.caCut 0 ca = false ∧ windowed.heldWrites = []) ∧
    (windowed.windowTags 0 (windowed.winBase 0) 64 = true ∧ 0 < windowed.hostTagRoom 0 ∧
     ({ windowed with mig := { windowed.mig with moves := [{ tags := 262144 }] } } : State).hostTagRoom 0 = 0) ∧
    windowed.winMapped 0 (4 * granule) 1 = false ∧ (∀ p ∈ granulePieces 64 4096, windowed.isHost 0 p.1 = false) ∧
    (let s := { windowed with heldWrites := [held] }
     s.heldWrites = [held] ∧ held.flags.contains 3 = true ∧ s.writeBlocks held.ctx held.ca held.data.length = [] ∧
     s.mappedOk held.ctx held.ca held.data.length = true ∧ ∀ p ∈ granulePieces held.ca held.data.length, s.isHost held.ctx p.1 = false) := by
  decide +kernel

/-- A promotion of granule 0 from BULK to BANK, queued and running. -/
def promotion (started : Bool) : Move := { lgn := 0, cls := 1, target := 1, started := started }
def moving : State :=
  let s := (mapped.modPent 0 (fun e => { e with mstate := 1, dtier := 1, dloc := 0 }))
  { s with mig := { s.mig with moves := [promotion true] } }


/-- The queued promotion where a quota of BANK allows it; the running one, of a granule with no update and no write waiting. -/
theorem test_hyp_MoveRows :
    (let s := { mapped.modCtx 0 (fun c => { c with qBank := 1 }) with mig := { mapped.mig with moves := [promotion false] } }
     let b := s.askRoom
     let e := s.pent 0
     s.live = true ∧ b.moveQueue = promotion false :: [] ∧ (b.regionOfLgn e.ctx 0).isSome = true ∧ e.tier ≠ 0 ∧ e.tier ≠ 1 ∧ e.mstate = 0 ∧
     e.pinned = false ∧ (∀ r, b.regionOfLgn e.ctx 0 = some r → 1 ≤ r.bottom ∧ r.top ≤ 1 ∧ b.room e.ctx r 1 (b.moveMask r 1 1) = true ∧
       b.pickFrame 1 (b.moveMask r 1 1) = some 2048) ∧ b.frameCut e.tier e.loc = false ∧
     s.mig.moves.any (fun x => x.forLgn == some 0) = false ∧ s.mig.moves.countP (·.started) < 512 ∧
     s.mig.moves.countP (fun x => x.started && (s.pent x.lgn).ctx == e.ctx) < max 1 (bits s.migCfg 24 10) ∧ 0 < b.moveTagRoom e.ctx) ∧
    mapped.mig.moves.all (·.started) = true ∧ moving.live = true ∧ moving.moveOf 0 = some (promotion true) ∧ moving.upds = [] ∧ moving.heldWrites = [] ∧
    (promotion true).forLgn = none ∧ (moving.pent 0).dtier ≠ 3 ∧ (moving.pent 0).fresh = false ∧ mapped.moveOf 0 = none := by
  refine ⟨⟨by decide +kernel, by decide +kernel, by decide +kernel, by decide +kernel, by decide +kernel, by decide +kernel, by decide +kernel, ?_,
    by decide +kernel, by decide +kernel, by decide +kernel, by decide +kernel, by decide +kernel⟩, by decide +kernel⟩
  intro r h
  cases h
  decide +kernel

/-- A FRESH granule whose fill runs; HEAT at DECAY and one beat before; a region unmapped that is still pinned, and one that is free. -/
theorem test_hyp_PlacementRows :
    (let s := mapped.modPent 0 (fun e => { e with fresh := true, filling := true })
     s.live = true ∧ s.heldWrites = [] ∧ (s.pent 0).fresh = true ∧ (s.pent 0).filling = true) ∧ (mapped.pent 0).fresh = false ∧
    (let s (n : Nat) : State := { mapped with mig := { mapped.mig with decay := n } }
     (s (max 1 (bits mapped.migCfg 8 16) - 1)).mig.decay < max 1 (bits (s 0).migCfg 8 16) ∧
     max 1 (bits (s 0).migCfg 8 16) ≤ (s (max 1 (bits mapped.migCfg 8 16))).mig.decay) ∧
    (let s := mapped.modCtx 0 (fun c => { c with regions := [], releasing := c.regions })
     let r : Region := ⟨0, 0, 4, 0, 2, 1, 2, 0, false, 0xFF, 0x3FFFF, false, false, false, []⟩
     (s.ctx 0).releasing.find? (fun q => q.gbase == 0) = some r ∧ (∀ l ∈ r.lgns, (s.pent l).pcnt = 0 ∧ (s.pent l).mstate = 0) ∧
     (∃ l ∈ r.lgns, 0 < ((s.modPent 3 (fun e => { e with pcnt := 1 })).pent l).pcnt)) ∧
    (mapped.ctx 0).releasing.find? (fun q => q.gbase == 0) = none ∧
    stackFitted mapped.variant 7 = true ∧ bitOf (smGet {} mapped.ras.stk 7).ret 63 = false ∧ bitOf (smGet {} mapped.ras.ch 17).ret 15 = false ∧
    stackFitted .h6 7 = false ∧
    (∀ k, k < 3 → mapped.beat.now < smGet 0 mapped.ras.patrolClk k + mapped.patrolPeriod k) ∧
    (let s : State := { mapped with beat := { mapped.beat with now := 2 ^ 60 } }
     ∀ k, k < 3 → smGet 0 s.ras.patrolClk k + s.patrolPeriod k ≤ s.beat.now) := by decide +kernel

/-- A transfer of the descriptor d. -/
def withXfer (s : State) (kind : XKind) (got d : Nat) : State := { s with xfers := [{ id := 1, kind := kind, tag := true, got := got, desc := d }] }
def copyDesc : Nat := fields [(80, 1), (96, 32), (128, scratchBase + 0x1000), (192, scratchBase + 0x2000)]
def readDesc0 : Nat := fields [(80, 1), (96, 32), (128, 0), (192, scratchBase + 0x2000)]
/-- The four granules as a host region. -/
def hostMapped : State :=
  mapped.modCtx 0 (fun c => { c with regions := [⟨0, 0, 4, 0, 2, 1, 2, 0, false, 0xFF, 0x3FFFF, true, false, false, [0, granule, 2 * granule, 3 * granule]⟩] })

theorem test_hyp_TransferCompletes :
    (let s := withXfer mapped .dmaCopy 0 copyDesc
     let f : Xfer := { id := 1, kind := .dmaCopy, tag := true, desc := copyDesc }
     s.live = true ∧ s.xfers.find? (fun f => f.id == 1 && !f.done && (f.tag || f.kind == .dmaFill || f.released)) = some f ∧
     s.xfers.find? (fun f => f.id == 2 && !f.done && (f.tag || f.kind == .dmaFill || f.released)) = none ∧
     f.released = false ∧ s.reachesHub f = true ∧ s.xfers = [f] ∧ f.left = 0 ∧
     dmaCmp f.desc = false ∧ dmaHist f.desc = false ∧ dmaLedg f.desc = false ∧
     ∀ r, r < dmaRows f.desc →
       scratchBase ≤ dmaSrcRow f.desc r ∧ dmaSrcRow f.desc r + dmaRlen f.desc ≤ scratchTop ∧
       scratchBase ≤ dmaDstRow f.desc r ∧ dmaDstRow f.desc r + dmaRlen f.desc ≤ scratchTop ∧
       s.poisoned (dmaSrcRow f.desc r - scratchBase) (dmaRlen f.desc) = false) ∧
    (let f : Xfer := { id := 1, tag := true, left := 1, desc := copyDesc }
     let s : State := { mapped with xfers := [f, { id := 2, stream := 1, tag := true, left := 1 }] }
     f.kind.isDma = true ∧ 0 < f.left ∧ s.dmaRivals f.tile (streamOf f.stream) ≠ []) ∧
    ((withXfer mapped .linkSend 1 (fields [(72, 1)])).xfers.any (fun f => (sendPeers f.desc).all (fun l => bitOf f.got l)) = true) ∧
    (let s := withXfer hostMapped .dmaRead 0 readDesc0
     s.live = true ∧ dmaRows readDesc0 ≠ 0 ∧ dmaRlen readDesc0 ≠ 0 ∧ s.xfers.all (fun f => s.reachesHub f) = true ∧ (∀ r, r < dmaRows readDesc0 →
       (∀ j, j < dmaRlen readDesc0 → s.isHost 0 (dmaSrcRow readDesc0 r + j) = true) ∧
       scratchBase ≤ dmaDstRow readDesc0 r ∧ dmaDstRow readDesc0 r + dmaRlen readDesc0 ≤ scratchTop)) ∧
    (∀ a ∈ xferReads { kind := .dmaCopy, desc := copyDesc }, mapped.isHost 0 a = false) := by decide +kernel
theorem test_hyp_TransferCompletes_sound : (withXfer mapped .dmaCopy 0 copyDesc).Sound ∧ (withXfer hostMapped .dmaRead 0 readDesc0).Sound :=
  ⟨⟨by decide, by decide, by decide⟩, ⟨by decide, by decide, by decide⟩⟩

/-- The slice of updState, open with what has arrived, and a contribution of logical ID lid. -/
def summed (arrived lid n : Nat) (f : Contrib → Contrib) (slots : Nat) : State :=
  let s := (mapped.wrCa 0 granule (toBytes 32 (entry arrived 1))).modCtx 0 (fun c => { c with cmbSlots := slots })
  { s with contribs := [f { ctx := 0, slice := 0, lid := lid, step := 1, vals := List.replicate n 0 }] }

theorem test_hyp_LedgerRows :
    (let s := summed 0 0 1 id 0
     let e := s.led 0 false 0
     s.live = true ∧ (s.contribs.find? (fun x => x.ctx == 0 && x.slice == 0 && x.lid == 0 && !x.staged)).isSome = true ∧
     (ledState e != 0 && ledStep e != 1) = false ∧ ledState e ≠ 0 ∧ bitOf (ledExpect e) 0 = true ∧ ledNelem e = 1 ∧
     0 < (s.ctx 0).slices ∧ bitOf (ledArrived e) 0 = false ∧ ledNext e = some 0 ∧ (∀ y ∈ s.contribs, y.staged = false) ∧ s.ledBlocks 0 0 = [] ∧
     s.contribs.all (·.whole) = true ∧ s.rdCaPoison 0 (s.ledData 0 false 0) 4 = false) ∧
    (let s := summed 0 1 1 id 0
     ledNext (s.led 0 false 0) ≠ some 1 ∧ (s.ctx 0).cmbSlots ≤ s.cmbUsed 0 ∧ (s.ctx 0).step.loggedStall.contains 1 = false ∧
     ((s.modStep 0 (fun k => { k with loggedStall := [1] })).ctx 0).step.loggedStall.contains 1 = true) ∧
    (let e := (summed 1 1 1 id 0).led 0 false 0
     ledNext e = some 1 ∧ ledArrived e + 2 ^ 1 = ledExpect e) ∧
    (let s := summed 0 1 1 id 1
     ledNext (s.led 0 false 0) ≠ some 1 ∧ s.cmbUsed 0 < (s.ctx 0).cmbSlots) ∧
    bitOf (ledExpect ((summed 0 2 1 id 0).led 0 false 0)) 2 = false ∧ (summed 0 0 1 (fun x => { x with poison := true }) 0).contribs.any (·.poison) = true ∧
    (summed 0 0 1 (fun x => { x with step := 2 }) 0).contribs.any (fun x => ledStep ((summed 0 0 1 id 0).led 0 false 0) != x.step) = true ∧
    (summed 0 0 2 id 0).contribs.any (fun x => x.vals.length != 1) = true := by decide +kernel

/-- An update of that slice with the descriptor of updState, complete, at the stage given. -/
def updDesc : Nat := fields ([(0, 6), (12, 1), (16, 1)] ++ updFields)
def updating (led : Nat) (f : Upd → Upd) : State :=
  { (mapped.wrCa 0 granule (toBytes 32 (entry 3 led))) with upds := [f { id := 1, ctx := 0, tile := 0, step := 1, desc := updDesc }] }
/-- Its coefficient negative: −1.0 at COEFA, where a two-pass CLIP reads it. -/
def badCoef : State :=
  let d := updDesc + 2 * 2 ^ 52
  ((updating 2 (fun u => { u with desc := d })).modCtx 0 (fun c => { c with coefA := 0x5000 })).wrCa 0 0x5000 (toBytes 4 0xBF800000)

theorem test_hyp_KilnRows :
    (let s := updating 2 id
     let v : Upd := { id := 1, ctx := 0, tile := 0, step := 1, desc := updDesc }
     let d := v.desc
     s.live = true ∧ s.upds.find? (fun u => u.id == 1 && u.stage == .issued) = some v ∧ s.upds.find? (fun u => u.id == 2 && u.stage == .issued) = none ∧
     (!updBuild d && s.prevCommitted v.ctx v.step && s.pinsStill v && ledState (s.led 0 false 0) == 2 && ledStep (s.led 0 false 0) == 1) = true ∧
     updRecipe d = 0 ∧ dfield d 52 2 = 0 ∧ bitOf d 51 = false ∧ bitOf d 54 = false ∧ bitOf d 55 = false ∧
     s.rdCaPoison 0 (dfield d 256 48 + 64) 36 = false ∧ s.rdCaPoison 0 (s.ledData 0 false 0) 4 = false ∧
     s.rdCaPoison 0 (s.momAddr v + (s.slotsRW 0).1 * momSlot d) (momSlot d) = false ∧ s.kilnBlocks v = [] ∧
     ((s.modPent 0 (fun e => { e with mstate := 1 })).kilnBlocks v ++ (s.modPent 0 (fun e => { e with tier := 3 })).kilnBlocks v) ≠ []) ∧
    (ledState ((updating 1 id).led 0 false 0) == 2) = false ∧
    badCoef.upds.all (fun v => !(badCoef.coefficient v).2 && coefBad (badCoef.coefficient v).1) = true ∧
    (let s := updating 3 (fun u => { u with stage := .kiln, dirs := [{ code := 0x3F800000 }], pins := [0] })
     s.upds.all (fun v => s.pinsStill v && !v.skip && !s.rdCaPoison 0 (s.mstAddr v + (s.slotsRW 0).1 * mstSlot v.desc) 4) = true ∧
     (s.modPent 0 (fun e => { e with mstate := 1 })).upds.all (fun v => (s.modPent 0 (fun e => { e with mstate := 1 })).pinsStill v) = false ∧
     s.upds.all (fun v => s.condBlocks v == [] && (s.mstSlots v).1 != (s.mstSlots v).2) = true ∧
     s.upds.all (fun v => ((s.modPent 0 (fun e => { e with tier := 3 })).condBlocks v).isEmpty) = false) := by decide +kernel

/-- The update held at issue, or parked, with the granule of its moment in BANK on a stack in service. -/
def parkedUpd (stage : UpdStage) (led : Nat) (d : Nat) : State :=
  let s := (updating led (fun u => { u with stage := stage, desc := d })).modCtx 0 (fun c => { c with
    regions := [⟨0, 0, 4, 0, 2, 1, 2, 0, false, 0xFF, 0x3FFFF, false, false, false, []⟩, ⟨1, 4, 1, 4, 1, 1, 2, 0, false, 0xFF, 0x3FFFF, false, false, false, []⟩] })
  let s := (s.modPent 4 (fun _ => { tier := 1, loc := 0 })).modUnit (8 + bankStack s.variant 0) (fun x => { x with active := true })
  { waitsFor s { seq := 3, wait := .deferRec 1 } with xfers := [{ id := 1, tile := 0, stream := 1, seq := 3, kind := .kiln }] }
/-- The descriptor with its moment at granule 4. -/
def bankDesc : Nat := updDesc - 0x1000 * 2 ^ 128 + 4 * granule * 2 ^ 128

theorem test_hyp_DeferralRows :
    (let s := parkedUpd .hold 2 bankDesc
     s.live = true ∧ (s.upds.find? (fun u => u.ctx == 0 && u.stage == .hold)).isSome = true ∧
     (∀ v ∈ s.upds, (∀ n ∈ s.updNeeds v, s.inPlace n = true ∧ (s.pent n.1).pcnt < 4095) ∧ ((s.updNeeds v).map (·.1)).Nodup ∧ s.updNeeds v ≠ []) ∧
     (s.xfers.find? (fun f => f.id == 1)).isSome = true ∧ s.tagFree 0 = true) ∧
    (let s := (parkedUpd .hold 2 bankDesc).modPent 4 (fun e => { e with tier := 2 })
     (∀ v ∈ s.upds, ∃ n ∈ s.updNeeds v, s.inPlace n = false) ∧ s.deferFree 0 = none) ∧
    (updating 2 id).upds.find? (fun u => u.ctx == 0 && u.stage == .hold) = none ∧
    (let s := parkedUpd .deferred 4 bankDesc
     let r (v : Upd) : Bool := (s.updNeeds v).all (fun n => v.pins.contains n.1) && s.pinsStill v && s.prevCommitted v.ctx v.step &&
       (ledState (s.led 0 false 0) == 4 && ledStep (s.led 0 false 0) == 1)
     (∀ v ∈ s.upds, r v = false ∧ r { v with pins := [4, 0] } = true ∧ updBuild v.desc = false ∧ v.stage = .deferred ∧
       s.kilnBlocks v ++ s.condBlocks v = [] ∧ (s.kilnRun { v with pins := [4, 0] }).upds.any (fun y => y.id == 1 && y.stage == .kiln) = true) ∧
     s.upds.length = 1) ∧
    (let s := parkedUpd .deferred 4 (bankDesc + 2 ^ 57)
     ∀ v ∈ s.upds, updBuild v.desc = true ∧ (s.updNeeds v).map (·.1) = [0] ∧ s.condBlocks v = [] ∧
       s.rdCaPoison 0 (s.mstAddr v + (s.slotsRW 0).1 * (256 * ledWslot (s.led 0 false 0))) (4 * updN v.desc) = false) ∧
    ((updating 2 id).upds.all (·.reruns == 0)) = true ∧ ((updating 2 (fun u => { u with reruns := 1 })).upds.all (fun u => u.reruns != 0)) = true ∧
    (let s := (updating 2 id).modCtx 0 (fun c => { c with timeout := 3, step := { c.step with passTicks := 4 } })
     (s.ctx 0).step.flight = 1 :: [] ∧ (∃ u ∈ s.upds, u.ctx = 0 ∧ u.step = 1 ∧ u.stage ≠ .done) ∧ (s.ctx 0).timeout ≠ 0 ∧
     (s.ctx 0).timeout < (s.ctx 0).step.passTicks ∧ ∀ q ∈ (s.ctx 0).step.causes, q.code ≠ 0x200A) ∧ (idleRun.ctx 0).step.flight = [] := by
  decide +kernel

theorem test_hyp_MirrorRows :
    (let s := (parkedUpd .hold 2 bankDesc).modCtx 0 (fun c => { c with mirror := true })
     s.live = true ∧ (s.ctx 0).st = .isOpen ∧ (s.ctx 0).mirror = true ∧
     ∀ n ∈ s.updNeeds { id := s.mig.nextId, ctx := 0, step := 2, desc := bankDesc, stage := .hold, shadow := true },
       s.inPlace n = true ∧ (s.pent n.1).pcnt < 4095) ∧
    (let s := parkedUpd .hold 2 bankDesc
     ((s.updNeeds { id := s.mig.nextId, ctx := 0, step := 2, desc := bankDesc, stage := .hold, shadow := true }).map (·.1)).Nodup) ∧
    (mapped.ctx 0).mirror = false ∧ (mapped.ctx 0).step.rebuild = [] ∧
    (let s := mapped.modStep 0 (fun k => { k with rebuild := [(1, updDesc)] })
     (s.ctx 0).step.rebuild = [(1, updDesc)] ∧ s.rdCaPoison 0 (updMst updDesc + (s.slotsRW 0).1 * mstSlot updDesc) (4 * updN updDesc) = false ∧ s.rebuildBlocks 0 = []) := by
  decide +kernel


/-! ### Statements of the cellar, the host and the mailbox -/

/-- A part whose cellar holds one stream, in frame 4: three units in superblock 8, written or not. -/
def celState (written : Bool) : State :=
  { on with cel := { on.cel with frames := [(4, { ext := [(8, 0, 3)], len := 131073, written := written })], sbs := [(8, { st := 1, used := 3, live := 3 })] } }

/-- Each step of the read ladder at an end of its range: 0, 1, 8 and 9, and a lost unit; a unit in place whose directory is not read; a unit on a failed
die, and a row with one. -/
theorem test_hyp_CellarStreams :
    (celState true).live = true ∧ cellarFitted .h8 = true ∧ cellarFitted .n8 = false ∧ ((celState true).cel.stream 4).ext ≠ [] ∧
    ((celState true).cel.stream 5).ext = [] ∧ 0 < bits (celState true).celCfg 8 4 ∧ (celState true).cel.step9 = [] ∧
    ((celState true).cel.unitPlace 4 0).isSome = true ∧ ((celState true).cel.stream 4).lost.contains 0 = false ∧ (celState true).celInPlace 4 = false ∧
    (celState true).cel.memberDead 8 0 = false ∧ (celState true).cel.unitPlace 4 3 = none ∧
    ((celState true).cel.channels 8).any (fun c => c != 0 && (celState true).cel.memberDead 8 c) = false ∧
    ({ (celState true).cel with dead := [(0, sbDie 8 0)] } : Cellar).memberDead 8 0 = true ∧
    (celState true).cel.logged.contains (4, 0) = false ∧ (celState true).lostSlots 4 1 (2 ^ 32 - 1) ≠ [] ∧
    (let s := { celState true with place := [(0, ({ tier := 3, loc := 4 } : PEntry))] }
     s.celInPlace 4 = true ∧ s.cel.dirs.contains 4 = false ∧ (s.cel.stream 4).walk = false) ∧
    ((celState false).cel.stream 4).written = false ∧ (∀ p ∈ (celState false).cel.frames, p.2.written = false → 0 ≤ p.2.wseq) ∧
    (∀ p ∈ smSet {} (celState false).cel.frames 4 { (celState false).cel.stream 4 with written := true }, p.2.written = true) ∧
    (let s := { celState false with cel := { (celState false).cel with frames := (celState false).cel.frames ++ [(5, ({ ext := [(8, 3, 1)] } : CelStream))] } }
     ∃ p ∈ s.cel.frames, p.1 ≠ 4 ∧ p.2.written = false) ∧
    (let s := { celState true with cel := { (celState true).cel with refresh := [(4, 0)] } }
     s.cel.refresh = (4, 0) :: [] ∧ (s.cel.stream 4).wseq = 0 ∧
     (Cellar.placeUnits { s.cel with refresh := [] } (streamUnits (s.cel.stream 4).len)).isSome = true) := by
  decide +kernel

/-- A cellar with every superblock filled. -/
@[irreducible] def filled : SMap Superblock := (List.range 5120).map (fun k => (k, { st := 2 }))

theorem smGet_all (l : List Nat) (k : Nat) (hk : k ∈ l) :
    (smGet ({} : Superblock) (l.map (fun k => (k, ({ st := 2 } : Superblock)))) k).st = 2 := by
  induction l with
  | nil => cases hk
  | cons a r ih =>
    simp only [List.map_cons, smGet]
    split
    · rfl
    · rename_i h
      exact ih (by
        rcases List.mem_cons.mp hk with e | e
        · exact absurd e.symm h
        · exact e)

theorem filled_eq : filled = (List.range 5120).map (fun k => (k, ({ st := 2 } : Superblock))) := by
  unfold filled
  with_reducible rfl

theorem filled_sb (x : Cellar) (h : x.sbs = filled) (k : Nat) (hk : k < 5120) : (x.sb k).st = 2 := by
  unfold Cellar.sb
  rw [h, filled_eq]
  exact smGet_all _ k (List.mem_range.mpr hk)

theorem filled_free (x : Cellar) (h : x.sbs = filled) : x.freeCount = 0 := by
  unfold Cellar.freeCount
  rw [List.countP_eq_zero]
  intro k hk
  simp [filled_sb x h k (List.mem_range.mp hk)]

theorem filled_compacting (s : State) (h : s.cel.sbs = filled) (hv : cellarFitted s.variant = true) (hc : 0 < bits s.celCfg 28 8) :
    s.compacting = true := by
  simp [State.compacting, filled_free _ h, hv, hc]

/-- A live part whose cellar has every superblock filled. -/
def fullCel : State := { on with cel := { on.cel with sbs := filled } }


/-- A part whose free superblock 9 is worn past superblock 8. -/
def worn : State := { on with cel := { on.cel with sbs := [(8, { st := 2, live := 1 }), (9, { erase := 5000 })] } }

/-- The least erase count, one superblock further. -/
def least (x : Cellar) (a k : Nat) : Nat := if x.inUse k then min a (x.sb k).erase else a

theorem least_le (x : Cellar) (l : List Nat) (a : Nat) : l.foldl (least x) a ≤ a := by
  induction l generalizing a with
  | nil => exact Nat.le_refl a
  | cons k r ih =>
    refine Nat.le_trans (ih _) ?_
    unfold least
    split
    · exact Nat.min_le_left _ _
    · exact Nat.le_refl _

theorem worn_least (l : List Nat) (a : Nat) (h : 8 ∈ l) : l.foldl (least worn.cel) a = 0 := by
  induction l generalizing a with
  | nil => cases h
  | cons k r ih =>
    by_cases e : k = 8
    · subst e
      have h0 : least worn.cel a 8 = 0 := by
        unfold least
        rw [if_pos (by decide), show (worn.cel.sb 8).erase = 0 from rfl, Nat.min_zero]
      rw [List.foldl_cons, h0]
      exact Nat.le_zero.mp (least_le _ _ _)
    · exact ih _ (by
        rcases List.mem_cons.mp h with h | h
        · exact absurd h.symm e
        · exact h)

theorem worn_wearMin : worn.cel.wearMin = 0 := worn_least (List.range 5120) _ (List.mem_range.mpr (by decide))

theorem worn_erase (k : Nat) (h : k ≠ 9) : (worn.cel.sb k).erase = 0 := by
  show (smGet {} [(8, _), (9, _)] k : Superblock).erase = 0
  unfold smGet
  split
  · rfl
  · unfold smGet
    rw [if_neg (fun e => h e.symm)]
    rfl

/-- The choice of the most worn free superblock, at one superblock. -/
def pick (x : Cellar) (a : Option Nat) (k : Nat) : Option Nat :=
  if k < 8 ∨ (x.sb k).st ≠ 0 then a
  else match a with
    | none => some k
    | some j => if (x.sb j).erase < (x.sb k).erase then some k else a

theorem pick_keeps (l : List Nat) : l.foldl (pick worn.cel) (some 9) = some 9 := by
  induction l with
  | nil => rfl
  | cons k r ih =>
    have : pick worn.cel (some 9) k = some 9 := by
      unfold pick
      by_cases h : k = 9
      · subst h; decide
      · rw [worn_erase k h]; simp
    rw [List.foldl_cons, this, ih]

theorem pick_finds (l : List Nat) (a : Option Nat) (h : 9 ∈ l) (ha : ∀ j, a = some j → j ≠ 9) : l.foldl (pick worn.cel) a = some 9 := by
  induction l generalizing a with
  | nil => cases h
  | cons k r ih =>
    by_cases e : k = 9
    · subst e
      have : pick worn.cel a 9 = some 9 := by
        cases a with
        | none => decide
        | some j =>
          have h8 : ¬ (9 < 8 ∨ (worn.cel.sb 9).st ≠ 0) := by decide
          have h9 : 0 < (worn.cel.sb 9).erase := by decide
          simp only [pick, h8, if_false, worn_erase j (ha j rfl), h9, if_true]
      rw [List.foldl_cons, this, pick_keeps]
    · have hr : 9 ∈ r := by
        rcases List.mem_cons.mp h with h | h
        · exact absurd h.symm e
        · exact h
      refine ih _ hr ?_
      intro j hj
      unfold pick at hj
      split at hj
      · exact ha j hj
      · split at hj
        · cases hj; exact e
        · split at hj
          · cases hj; exact e
          · exact ha j hj

theorem worn_free : worn.cel.mostWornFree = some 9 :=
  pick_finds (List.range 5120) none (List.mem_range.mpr (by decide)) (fun j h => by cases h)

theorem worn_leastWorn : worn.cel.leastWorn = some 8 := by
  unfold Cellar.leastWorn
  rw [worn_wearMin]
  decide +kernel

theorem test_hyp_CellarWear :
    bits worn.celCfg 36 12 < worn.cel.wearMax - worn.cel.wearMin ∧ worn.cel.leastWorn = some 8 ∧ worn.cel.mostWornFree = some 9 ∧ (8 : Nat) ≠ 9 ∧
    (worn.cel.sb 8).live ≤ (worn.cel.sb 9).cap ∧ (worn.cel.sb 8).st = 2 ∧ on.cel.wearMax = 0 ∧
    ({ on with variant := .n8 } : State).compacting = false := by
  rw [worn_wearMin, worn_free, worn_leastWorn]
  decide +kernel

/-- A die that fails first, one that fails again, a row with two failed dies; a superblock that compaction empties, and one to be dissolved; a member
with a spare on its channel and one without; a word line with the last unit of a stream. -/
theorem test_hyp_CellarUpkeep :
    (let s := celState true
     s.cel.dead = [] ∧ s.cel.dead.contains (31, 4) = false ∧ s.cel.rebuilding = [] ∧ bits s.celCfg 16 12 ≠ 0 ∧
     bits s.celCfg 16 12 * 51840000000000 < bits s.celCfg 16 12 * 51840000000000 + 1 - (s.cel.stream 4).day ∧
     s.beat.now < s.cel.patrolClk + max 1 (bits s.celCfg 0 8) * 51840000000000) ∧
    (let x : Cellar := { (celState true).cel with dead := [(0, sbDie 8 0), (1, sbDie 8 1)] }
     0 < streamUnits (x.stream 4).len ∧ (∃ i, i < 3 ∧ (x.unitPlace 4 i).map (fun p => x.memberDead p.sb p.ch) = some true) ∧
     2 ≤ (x.channels 8).countP (x.memberDead 8)) ∧
    (let s := { on with cel := { on.cel with sbs := [(8, { st := 2 })] } }
     s.cel.compactVictim = some 8 ∧ (s.celEmpty 8).cel.framesIn 8 = []) ∧
    (let s := { on with cel := { on.cel with sbs := [(8, { st := 5 })] } }
     s.cel.compactVictim = some 8 ∧ (s.cel.sb 8).st = 5 ∧ s.cel.framesIn 8 = []) ∧
    (let s := { celState false with cel := { (celState false).cel with spares := [⟨0, 1, 5, 0⟩] } }
     (s.cel.pickSpare 0).isSome = true ∧ s.cel.pickSpare 31 = none ∧ (s.cel.sb 8).st = 1 ∧ (s.cel.channels 8).contains 0 = true ∧ (s.cel.sb 5119).live = 0 ∧
     (s.cel.sb 5119).st ≠ 4 ∧ s.cel.lineUnits 8 3 0 = [(4, 2)] ∧ (s.cel.placeUnits (streamUnits (s.cel.stream 4).len - 2)).isSome = true) := by
  decide +kernel

theorem test_hyp_CellarCompaction : fullCel.compacting = true := filled_compacting fullCel rfl (by decide) (by decide)

/-- A host port at each end of what it takes; functions that own an idle context, one with a step open, and none. -/
theorem test_hyp_HostRows :
    (hosted on).pwr.powered = true ∧ (hosted on).pwr.clkOk = true ∧ ((hosted on).hport 0).perst = false ∧ ((hosted on).hport 0).up = true ∧
    ((on.modHport 1 (fun p => { p with perst := true })).hport (1 - (0 : HostPort).val)).perst = true ∧ (on.hport 0).up = false ∧
    (on.modHport 0 (fun p => { p with perst := true })).hport 0 ≠ on.hport 0 ∧
    (hosted ready).fnReach 0 = true ∧ (hosted ready).fnReach 7 = true ∧ 7 % 8 ≠ 0 ∧ ((hosted ready).fn 7).l2 = none ∧ (hosted ready).fnCtx 7 = none ∧
    on.fnReach 1 = false ∧
    (let s := hosted (ready.modCtx 0 (fun c => { c with owner := some 1 }))
     s.fnCtx 1 = some 0 ∧ s.idle 0 = false ∧ s.fnReach 1 = true) ∧
    (let s := hosted (idleRun.modCtx 0 (fun c => { c with owner := some 1 }))
     s.fnCtx 1 = some 0 ∧ s.idle 0 = true ∧ s.detachedOf 0 = []) ∧
    (hosted ready).fnExists 7 = true ∧ ((hosted ready).modHport 0 (fun p => { p with numVfs := 6 })).fnExists 7 = false := by decide +kernel

/-- The header of a request of function 0. -/
def hdr (len ctx : Nat) : ReqHdr := ⟨.fn 0, 7, len, ctx, false, false, false, false, false⟩

/-- Whether Posts and Accepts hold. -/
def posts (s : State) (c : Instr) (f : FnId) : Bool :=
  match mailboxRow c with
  | none => false
  | some (h, _) => h.issuer == .fn f && s.live && s.fnReach f.val && (s.fn f.val).busy == none && (s.fn f.val).posted == none && s.serving &&
    s.postTurn f.val s.beat.now
def accepts (s : State) (c : Instr) (f : FnId) : Bool :=
  posts s c f && match mailboxRow c with
  | none => false
  | some (h, i) => h.len == i.len && s.issuerBad f.val h.ctx i.may i.code == none && hdrBad h i == none && s.stateBad f.val h i == none

theorem accepts_of {s c f} (e : accepts s c f = true) : ∃ h i, Accepts s c f h i := by
  unfold accepts posts at e
  split at e
  · simp at e
  · rename_i h i hr
    simp only [Bool.and_eq_true, beq_iff_eq] at e
    obtain ⟨⟨⟨⟨⟨⟨⟨h1, h2⟩, h3⟩, h4⟩, h5⟩, h6⟩, ht⟩, ⟨⟨h7, h8⟩, h9⟩, h10⟩ := e
    exact ⟨h, i, ⟨hr, h1, h2, h3, h4, h5, h6, ht⟩, h7, h8, h9, h10⟩

/-- Function 0 past its HELLO, with context 0 open, a step in flight or none. -/
def serves (s : State) : State := (hosted s).modFn 0 (fun x => { x with needHello := false })
def free : State := serves on
def openReq : OpenReq := ⟨0x800000, false, false, 0, 0⟩
def quotas : QuotaReq := ⟨2, 1, 1, 4, 1, 0, 0, 0, 0, 0, 0, 0⟩

/-- One post for each answer of the mailbox's order: BUSY, waiting, BAD_LENGTH, NOT_OWNER, BAD_FIELD. -/
theorem test_hyp_MailboxOrder :
    (let s := serves ready
     posts s (.stepRun (hdr 8 0)) 0 = true ∧ s.issuerBad 0 1 .own 0x0041 = some 0x0005 ∧ hdrBad { hdr 0 0 with rsv := true } ⟨0x0041, 0, .own, .none, false, true⟩ =
       some 4 ∧
     ((s.modFn 0 (fun x => { x with busy := some {} })).fn 0).busy ≠ none ∧
     (let p := { s with evt := { s.evt with wdog := true } }
      p.serving = false ∧ (p.fn 0).posted = none ∧ (p.fn 0).busy = none) ∧
     (let p := s.modFn 1 (fun x => { x with posted := some [], postClk := 0 })
      p.serving = true ∧ p.postTurn 0 1 = false ∧ p.postTurn 0 0 = true ∧ s.postTurn 0 s.beat.now = true) ∧
     postIs (toBytes 16 0x41) (hdr 0 0) 0x0010 = false ∧ postIs (toBytes 16 (fields [(0, 0x41), (16, 7), (32, 8)])) (hdr 8 0) 0x0041 = true) ∧
    on.fnReach 0 = false := by decide +kernel

theorem test_hyp_ContextCommands :
    (accepts free (.hello (hdr 8 0xFF)) 0 && accepts free (.ctxOpen (hdr 24 15) openReq) 0 && accepts (serves idleRun) (.ctxClose (hdr 0 0)) 0 &&
     accepts (serves ready) (.ctxClose { hdr 0 0 with force := true }) 0 && accepts (serves ready) (.ctxQuotaSet (hdr 48 0) quotas) 0 &&
     accepts (serves (ready.modCtx 0 (fun c => { c with frozen := true }))) (.ctxAdopt (hdr 0 0)) 0) = true ∧
    (let s := { free with hub := { free.hub with mode := 2 } }
     openReq.tsets ≠ 0 ∧ openReq.coefA % 64 = 0 ∧ openReq.coefA < scratchBase ∧ s.hub.mode ≠ 0 ∧ (s.ctx 15).st ≠ .isOpen ∧
     (∀ t ∈ tilesOf openReq.tsets.toNat, s.tileCtx t = none ∧ (s.unit (16 + t)).quar = false) ∧ s.overTiles 0 openReq.tsets.toNat = false) ∧
    (let s := serves ready
     (cellarFitted s.variant = true ∨ quotas.cellar = 0) ∧ quotas.bankCask + quotas.ledger ≤ quotas.bank ∧ quotas.bulkCask ≤ quotas.bulk ∧
     (∀ t, t < 4 → 1 ≤ t → s.overCap 0 ((s.ctx 0).withQuota quotas) t = false) ∧ s.tierUse 0 3 ≤ quotas.cellar ∧
     (∀ p ∈ quotaClasses, s.pinnedBy 0 p.1 p.2 ≤ ((s.ctx 0).withQuota quotas).quota p.1 p.2) ∧ s.overBundle 0 quotas = false ∧
     s.poolTaken 0 quotas = false ∧ s.overQuota 0 ((s.ctx 0).withQuota quotas) = false) ∧
    (let s := serves (idleRun.modCtx 0 (fun c => { c with regions := [⟨0, 0, 4, 0, 2, 1, 2, 0, false, 0xFF, 0x3FFFF, false, false, false, []⟩] }))
     let p := { s with place := mapped.place }
     p.overQuota 0 ((p.ctx 0).withQuota { quotas with bulk := 1 }) = true ∧ p.idle 0 = true) ∧
    (ready.modCtx 0 (fun c => { c with frozen := true })).mayAdopt 0 0 = true := by decide +kernel


/-- Function 0 past its HELLO, context 0 idle with a region of BULK at granules 0 to 3, and one of a host at granules 4 to 11. -/
def desk : State :=
  let s := serves (mapped.modStep 0 (fun k => { k with opened := false }))
  s.modCtx 0 (fun c => { c with coefA := 0x3000, regions := c.regions ++
    [⟨1, 4, 8, 0x800, 0, 0, 0, 1, false, 0, 0, true, false, false, (List.range 8).map (· * granule)⟩] })
def hostReq : MapReq := ⟨12 * granule, 1, 0, 0, 0, 1, false, true, false, false, 0, 0, [0]⟩
def bulkReq : MapReq := ⟨scratchBase - granule, 1, 2, 1, 2, 0, false, false, false, false, 0xFF, 0x3FFFF, []⟩
def pinned : State := desk.modPent 3 (fun e => { e with mpin := true })
def roomy (s : State) : State := s.modCtx 0 (fun c => { c with qBulk := 99, qBank := 9, qCel := 9 })

theorem pickRegion_some (s : State) (c : Nat) (h : (List.range 1024).any (fun n => (s.ctx c).regions.all (fun r => r.no != n)) = true) :
    (s.pickRegion c).isSome = true := by
  unfold State.pickRegion
  dsimp only
  split
  · rfl
  · obtain ⟨n, hn, hf⟩ := List.any_eq_true.mp h
    rw [List.find?_isSome]
    exact ⟨n, hn, by simp [List.mem_range.mp hn, hf]⟩

theorem pickLgn_some (s : State) (n : Nat) (h : (0 :: s.lgnRuns.map (fun p => p.1 + p.2)).any (fun lo => s.lgnFree lo n) = true) :
    (s.pickLgn n).isSome = true := by
  unfold State.pickLgn
  dsimp only
  split
  · rfl
  · rw [List.find?_isSome]
    exact List.any_eq_true.mp h

theorem test_hyp_MemMap : ∃ s1 q, desk.mapped 0 hostReq = some (s1, q) := by
  obtain ⟨a, ha⟩ := Option.isSome_iff_exists.mp (pickRegion_some desk 0 (by decide +kernel))
  obtain ⟨b, hb⟩ := Option.isSome_iff_exists.mp (pickLgn_some desk 1 (by decide +kernel))
  refine ⟨desk, MapReq.region hostReq a b, ?_⟩
  unfold State.mapped
  rw [if_neg (by decide +kernel), if_neg (by decide +kernel), if_neg (by decide +kernel), show hostReq.gcnt = 1 from rfl, ha, hb]
  rfl

theorem test_hyp_MemMapBulk : ∃ s1 q, (roomy desk).mapped 0 bulkReq = some (s1, q) := by
  obtain ⟨a, ha⟩ := Option.isSome_iff_exists.mp (pickRegion_some (roomy desk) 0 (by decide +kernel))
  obtain ⟨b, hb⟩ := Option.isSome_iff_exists.mp (pickLgn_some (roomy desk) 1 (by decide +kernel))
  have hp : ((roomy desk).pickFrame 2 0x3FFFF).isSome = true := by decide +kernel
  obtain ⟨p, hp⟩ := Option.isSome_iff_exists.mp hp
  unfold State.mapped
  rw [if_neg (by decide +kernel), if_neg (by decide +kernel), if_neg (by decide +kernel), show bulkReq.gcnt = 1 from rfl, ha, hb]
  simp [placeAll, MapReq.region, Region.mask, hp, bulkReq]

/-- The last granule below SCRATCH, a granule under a pin, granules in their tier and one in another. -/
theorem test_hyp_MemoryCommands :
    (accepts desk (.memMap (hdr 40 0) hostReq) 0 && accepts (roomy desk) (.memMap (hdr 24 0) bulkReq) 0 && accepts desk (.memUnmap (hdr 8 0) 0) 0 &&
     accepts desk (.memPin (hdr 16 0) 0 4 2) 0 && accepts desk (.memUnpin (hdr 16 0) 0 4 2) 0 &&
     accepts desk (.memHint (hdr 16 0) 0 4 1) 0) = true ∧
    MapReq.bad desk.variant hostReq = false ∧ MapReq.noUnit desk.variant hostReq = false ∧ MapReq.bad desk.variant bulkReq = false ∧
    MapReq.noUnit desk.variant bulkReq = false ∧ hostReq.host = true ∧ bulkReq.host = false ∧
    (∃ q, desk.regionAt 0 0 = some q ∧ q.host = false ∧ ∀ g ∈ q.lgns, (desk.pent g).mpin = false) ∧
    (∃ q, desk.regionAt 0 (4 * granule) = some q ∧ q.host = true ∧ ∀ g ∈ q.lgns, (desk.pent g).mpin = false) ∧
    desk.rangeBad 0 0 4 = false ∧ desk.named 0 0 4 = some [0, 1, 2, 3] ∧
    (∀ g ∈ [0, 1, 2, 3], (desk.pent g).mpin = false ∧ desk.restsIn g 2 = true ∧ desk.restsIn g 1 = false) ∧
    (∀ g ∈ [0, 1, 2, 3], (pinned.pent g).mpin = true → (pinned.pent g).tier = 2) ∧
    (desk.pent 0).tier ≠ 0 ∧ (desk.pent 0).tier ≠ 1 ∧ (desk.pent 0).mstate = 0 ∧ cellarFitted desk.variant = true := by
  refine ⟨by decide +kernel, by decide +kernel, by decide +kernel, by decide +kernel, by decide +kernel, rfl, rfl, ⟨_, rfl, ?_⟩, ⟨_, rfl, ?_⟩, ?_⟩ <;>
    decide +kernel

/-- An image at the context's first byte: one tile, whose F stream has one instruction at 256; rings of 16 units from 0 on. -/
def image : List Byte :=
  toBytes 1088 (fields [(0, 0x47525031), (32, 1088), (224, 1), (8256, 256), (8320, 1), (8352, 4 * 2 ^ 24),
    (8480, 4 * 2 ^ 24 + 16), (8608, 4 * 2 ^ 24 + 32)])
def loaded : State := desk.wrCa 0 0 image
def programmed : State := desk.modCtx 0 (fun c => { c with prog := some { imageCa := 0, len := 1088, tiles := [0] } })
/-- A table of two symbols. -/
def table2 : Grist := Grist.build { cnt := [(1, 3), (2, 1)] } 1

set_option maxRecDepth 100000 in
theorem test_hyp_ProgImage : loaded.imageBad 0 1088 (loaded.readCtx 0 0 1088) = false := by decide +kernel

set_option maxRecDepth 100000 in
theorem test_hyp_ProgramCommands :
    (accepts loaded (.progLoad (hdr 16 0) 0 1088) 0 && accepts programmed (.progUnload (hdr 0 0)) 0 && accepts programmed (.stepArm (hdr 16 0) 1 0) 0 &&
     accepts desk (.stepRun (hdr 0 0)) 0 && accepts desk (.stepAbort (hdr 0 0)) 0 && accepts (serves ready) (.stepAbort (hdr 0 0)) 0 &&
     accepts desk (.stepStatus (hdr 0 0)) 0 && accepts desk (.tableBuild (hdr 24 0) 63 0 true 0 granule) 0 &&
     accepts desk (.tableLoad (hdr 144 0) 63 table2.image) 0) = true ∧
    (loaded.ctx 0).prog = none ∧ loaded.oneRegion 0 0 1088 = true ∧
    (programmed.ctx 0).prog ≠ none ∧ desk.idle 0 = true ∧ (serves ready).idle 0 = false ∧
    (let s := desk.modStep 0 (fun k => { k with armed := true, running := false })
     accepts s (.stepRun (hdr 0 0)) 0 = true ∧ (s.ctx 0).step.halted = false ∧ (s.ctx 0).step.armed = true ∧ (s.ctx 0).step.running = false ∧
     (s.ctx 0).torn = false ∧ (s.ctx 0).frozen = false) ∧
    (let s := desk.modStep 0 (fun k => { k with halted := true })
     accepts s (.stepRun (hdr 0 0)) 0 = true ∧ (s.ctx 0).step.halted = true ∧ s.board.sourcesMissing = false) ∧
    sfOk 0 = true ∧ desk.inRegions 0 0 granule = true ∧ (gristOfImage table2.image []).isSome = true ∧
    (gristOfImage table2.image (desk.table 0 63).cnt).isSome = true := by decide +kernel


/-- A part that holds a checkpoint of context 0 under ID 7, and the same for a context of another board's. -/
def keeping (gen : Nat) : State :=
  let s := roomy desk
  { s with cel := { s.cel with ckpts := [{ ctx := 0, ckid := 7, lid := s.board.lid, gen := gen, parts := [(0, [1, 2])] }] } }
/-- A detached command that has ended, and one that goes on. -/
def ended (st : Nat) : Cmd := { cmd := 0x0060, wait := .seal 7 st [] }

theorem sealed_some : ((roomy desk).sealCel 0 7).isSome = true := by decide +kernel

theorem test_hyp_CheckpointCommands :
    (∃ s1, (roomy desk).sealCel 0 7 = some s1) ∧
    (accepts (roomy desk) (.ckptSeal (hdr 24 0) 7 0 0) 0 && accepts (roomy desk) (.ckptSeal (hdr 24 0) 7 1 (4 * granule)) 0 &&
     accepts (keeping 1) (.ckptDelete { hdr 24 0 with del := true } 7) 0 && accepts (keeping 1) (.ckptRestore (hdr 24 0) 7 0 0xFF 0 []) 0 &&
     accepts desk (.ckptRestore (hdr 24 0) 7 1 0xFF (11 * granule) []) 0 && accepts desk (.stateExport (hdr 8 0) (4 * granule)) 0) = true ∧
    (roomy desk).ckptHeld 0 7 = false ∧ (keeping 1).ckptHeld 0 7 = true ∧ (roomy desk).cel.readOnly = false ∧ (roomy desk).celCkptOk = true ∧
    (let s := { roomy desk with cel := { (roomy desk).cel with credit := -(roomy desk).celDepth } }
     s.celEnforce = true ∧ s.celCkptOk = false) ∧ cellarFitted desk.variant = true ∧
    (roomy desk).hostRoom 0 (4 * granule) (((roomy desk).ckptG 0 + 1) * granule) = true ∧ desk.hostRoom 0 (11 * granule) granule = true ∧
    desk.hostRoom 0 (12 * granule) granule = false ∧ desk.hostRoom 0 (4 * granule) (desk.exportBytes 0) = true ∧
    (keeping 2).readCkpt 0 7 0 0xFF [] = .refused 0x000C none ∧ (keeping 1).readCkpt 0 7 0 0xFF [] = .ok 0 [(0, [1, 2])] ∧
    desk.readCkpt 0 7 1 0xFF [] = .refused 0x000B none ∧
    (∀ k ∈ (desk.fn 0).detached, desk.cmdEnd k = none) ∧ desk.live = true ∧ desk.cmdEnd (ended 1) ≠ none ∧
    (let s := desk.modFn 0 (fun x => { x with detached := [ended 0] })
     (s.fn 0).detached = [ended 0] ∧ s.cmdEnd (ended 0) = some (s, 0, []) ∧
     ∀ k ∈ (s.fn 0).detached, ∀ id rep, k.wait ≠ .sealCel id false rep) ∧
    (let k : Cmd := { cmd := 0x0060, wait := .sealCel 7 false [] }
     let s := (roomy desk).modFn 0 (fun x => { x with detached := [k] })
     (s.fn 0).detached = k :: [] ∧ s.celCkptOk = true ∧ (s.sealCel 0 7).isSome = true) := by
  refine ⟨Option.isSome_iff_exists.mp sealed_some, by decide +kernel, by decide +kernel, by decide +kernel, by decide +kernel, by decide +kernel,
    by decide +kernel, by decide +kernel, by decide +kernel, by decide +kernel, by decide +kernel, by decide +kernel, by decide +kernel, by decide +kernel,
    by decide +kernel, by decide +kernel, by decide +kernel, by decide +kernel, ⟨by decide +kernel, by decide +kernel, ?_⟩,
    by decide +kernel, by decide +kernel, by decide +kernel⟩
  intro k hk id rep e
  have d : ((desk.modFn 0 (fun x => { x with detached := [ended 0] })).fn 0).detached = [ended 0] := by decide +kernel
  rw [d] at hk
  rw [List.mem_singleton.mp hk] at e
  cases e

/-- A part past its HELLO whose bundle has the map given. -/
def mapsTo (m : List (Nat × Nat)) : State := { free with boot := { free.boot with active := { free.boot.active with linkMap := m } } }
/-- A coordinator of two modules. -/
def coordinator : State := { free with board := { free.board with lid := 0, nact := 2, slot := 0 } }

/-- A slot alone, a slot whose neighbour is not reached, a slot of logical ID 1; the earliest tick of a remap and the one before. -/
theorem test_hyp_BoardCommands :
    (accepts (mapsTo [(1, 0)]) (.boardJoin (hdr 0 0xFF) 0 0 0 0 false) 0 && accepts coordinator (.boardRemap (hdr 24 0xFF) 8 [0] 0xF) 0 &&
     accepts coordinator (.spareTakeover (hdr 8 0xFF) 1) 0 && accepts desk (.mirrorSet (hdr 24 0) true true 63 0 granule) 0) = true ∧
    (let s := mapsTo [(1, 0)]
     (s.linkEntry 0).1 ≠ 0 ∧ (∀ c, c < 16 → (s.ctx c).st ≠ .isOpen) ∧ s.joinLid 0 0 = 0 ∧ s.unreached 0 = false ∧ s.keyExchange 0 0 = false) ∧
    (let s := mapsTo [(1, 0), (1, 1)]
     (s.linkEntry 0).1 ≠ 0 ∧ s.unreached 0 = true) ∧
    (let s := mapsTo [(1, 1)]
     s.joinLid 0 0 = 1 ∧ bits (BitVec.ofNat 64 (capWord s.variant)).toNat 56 8 = bits (capWord s.variant) 56 8 ∧ s.unreached 0 = false ∧ s.keyExchange 1 0 = true) ∧
    coordinator.board.lid = 0 ∧ coordinator.board.remapAt = none ∧ (∀ c, c < 16 → coordinator.idle c = true) ∧
    coordinator.remapBad 8 [0] 0xF = false ∧ coordinator.remapBad 7 [0] 0xF = true ∧ 1 < coordinator.board.nact ∧ coordinator.tkoRuns = false ∧
    (let s := { coordinator with board := { coordinator.board with spareOk := true } }
     accepts s (.spareTakeover (hdr 8 0xFF) 1) 0 = true ∧ s.board.spareOk = true) := by decide +kernel

/-- A part with a staging of two bytes of four, one that holds a staged bundle, one in probation. -/
def staging : State := { free with boot := { free.boot with staging := some ⟨0, 4, [1, 2], 0⟩ } }
def staged : State := { free with boot := { free.boot with otherSt := .staged } }
def trying : State := { free with boot := { free.boot with probation := true, otherSt := .fallback } }

theorem test_hyp_BundleCommands :
    (accepts free (.cfgStage (hdr 10 0xFF) ⟨0, 2, [1, 2]⟩ Bundle.reset) 0 && accepts staging (.cfgStage (hdr 9 0xFF) ⟨2, 4, [3]⟩ Bundle.reset) 0 &&
     accepts staging (.cfgStage { hdr 10 0xFF with last := true } ⟨2, 4, [3, 4]⟩ Bundle.reset) 0 && accepts staged (.cfgCommit (hdr 0 0xFF)) 0 &&
     accepts trying (.cfgRevert (hdr 0 0xFF)) 0) = true ∧
    free.boot.probation = false ∧ free.stagingHeld 0 = false ∧ staging.boot.probation = false ∧ staging.stagingHeld 0 = false ∧
    staging.boot.staging = some ⟨0, 4, [1, 2], 0⟩ ∧
    staged.boot.otherSt = .staged ∧ staged.boot.ctrLost = false ∧ staged.anyStep = false ∧ staged.anyDetached = false ∧
    staged.slotOk staged.boot.other staged.boot.otherSig = true ∧ trying.boot.probation = true ∧ trying.anyStep = false ∧
    trying.boot.otherSt = .fallback ∧ trying.boot.ctrLost = false ∧ trying.slotOk trying.boot.other trying.boot.otherSig = true ∧
    trying.probationOver = false ∧
    ({ trying with beat := { trying.beat with now := 360000000000 } } : State).probationOver = true ∧
    ({ trying with beat := { trying.beat with now := 359999999999 } } : State).probationOver = false ∧
    ({ trying with boot := { trying.boot with probCommits := 1000 } } : State).probationOver = true ∧
    ({ trying with boot := { trying.boot with probCommits := 999 } } : State).probationOver = false := by decide +kernel

/-- A pending quote with more than one part left, and with its last byte left. -/
theorem test_hyp_ServiceCommands :
    (accepts free (.attestQuote (hdr 64 0xFF) [1]) 0 && accepts free (.identityGet (hdr 8 0xFF) 0) 0 && accepts free (.eventRead (hdr 16 0xFF) 0 0) 0 &&
     accepts free (.telemetryRead (hdr 0 0xFF)) 0 && accepts desk (.resetFunc (hdr 0 0)) 0 &&
     accepts desk (.resetDevice { hdr 0 0xFF with keep := true }) 0) = true ∧
    (∃ x ∈ ([1] : List Byte), x ≠ 0) ∧ (∀ x ∈ ([0] : List Byte), x = 0) ∧
    (let s (n : Nat) := free.modFn 0 (fun x => { x with quote := List.replicate 3 1, quoteOff := n })
     accepts (s 2) (.attestQuote (hdr 64 0xFF) [0]) 0 = true ∧ ((s 2).fn 0).quote ≠ [] ∧
     ((s 2).fn 0).quote.length ≤ 2 + (((s 2).fn 0).quote.drop 2).length) ∧
    0 + 4072 < (List.replicate 4073 (1 : Byte)).length ∧
    (desk.ctx 0).owner = some 0 ∧ desk.fnCtx 0 = some 0 ∧ (desk.fn 0).l2 = none ∧ desk.idle 0 = true ∧ (desk.ctx 0).st = .isOpen ∧
    State.reset.pwr.powered = false ∧ free.live = true ∧ free.serving = true ∧ free.boot.recovery = false ∧ mgmtServes 0x0010 = false ∧
    mgmtServes 0x0082 = true ∧ free.postTurn 16 free.beat.now = true ∧
    (free.modFn 1 (fun x => { x with busy := some {} })).postTurn 16 free.beat.now = false := by
  refine ⟨by decide +kernel, ⟨1, by decide, by decide⟩, ?_⟩
  refine ⟨by decide, by decide +kernel, by rw [List.length_replicate]; decide, ?_⟩
  decide +kernel


/-! ### Well-formed and ill-formed commands -/

/-- A request header that fits. -/
def hd : ReqHdr := hdr 0 0
/-- The header with a CTX of nine bits. -/
def badHdr : ReqHdr := hdr 0 256
/-- A page of bytes. -/
def bytesOf (n : Nat) : List Byte := List.replicate n 0

/-- Every check of WellFormed refuses a term that breaks it alone: first the records, at the value past the end of each field. -/
theorem test_wf_records :
    (hdr (2 ^ 32) 0).wf = false ∧ badHdr.wf = false ∧
    ({ quotas with bank := 2 ^ 32 } : QuotaReq).wf = false ∧ ({ quotas with cellar := 2 ^ 32 } : QuotaReq).wf = false ∧
    ({ quotas with deferRecs := 65536 } : QuotaReq).wf = false ∧ ({ quotas with slots := 65536 } : QuotaReq).wf = false ∧
    ({ bulkReq with ca := 2 ^ 64 } : MapReq).wf = false ∧ ({ bulkReq with gcnt := 2 ^ 32 } : MapReq).wf = false ∧
    ({ bulkReq with home := 4 } : MapReq).wf = false ∧ ({ bulkReq with use := 256 } : MapReq).wf = false ∧
    ({ bulkReq with bus := [0] } : MapReq).wf = false ∧ ({ hostReq with bus := [] } : MapReq).wf = false ∧
    ({ hostReq with bus := [2 ^ 64] } : MapReq).wf = false ∧
    (⟨2 ^ 32, 0, []⟩ : StageReq).wf = false ∧ (⟨0, 2 ^ 32, []⟩ : StageReq).wf = false ∧ (MgmtReq.attestQuote []).wf = false ∧
    (MgmtReq.identityGet (2 ^ 32)).wf = false ∧ (MgmtReq.eventRead (2 ^ 64) 0).wf = false ∧ (MgmtReq.eventRead 0 (2 ^ 32)).wf = false ∧
    (MgmtReq.other 65536).wf = false ∧ (⟨2 ^ 64, 0, 0, 0⟩ : Verdict).wf = false ∧
    (⟨bytesOf 255, .nothing⟩ : Flit).wf = false ∧ (⟨bytesOf 257, .nothing⟩ : Flit).wf = false ∧ (flit .data 0 true).wf = true ∧
    (⟨16, 0, 0, 0, false⟩ : PeerCause).wf = false ∧ (ReadOutcome.rebuilt (List.replicate 32 0)).wf = false ∧
    (ReadOutcome.rebuilt (List.replicate 31 0)).wf = true ∧
    ({ training 0 0 with peerSlot := 16 } : Training).wf = false ∧ ({ training 0 0 with peerLid := 16 } : Training).wf = false ∧
    ({ training 0 0 with lat := 65536 } : Training).wf = false ∧ arbWf 304 [] = false ∧ arbWf 0 [⟨1, .other⟩, ⟨1, .move 0⟩] = false ∧ rangeWf (2 ^ 64) 0 0 = false ∧
    rangeWf 0 (2 ^ 32) 0 = false ∧ rangeWf 0 0 256 = false := by decide +kernel

theorem test_wf_chunk : (⟨0, 0, bytesOf 4073⟩ : StageReq).wf = false := by
  simp only [StageReq.wf, bytesOf, List.length_replicate]
  decide

theorem test_wf_payloads : (Instr.transferComplete 0 ⟨true, (bytesOf (2 ^ 24 + 1))⟩ []).wf = false ∧ (Instr.tableLoad hd 0 (bytesOf 4081)).wf = false ∧
    ∀ l : List F32, l.length = 16385 → (Instr.mirrorSum 0 0 0 l false).wf = false := by
  refine ⟨?_, ?_, ?_⟩
  · simp only [Instr.wf, bytesOf, List.length_replicate]; decide
  · simp only [Instr.wf, bytesOf, List.length_replicate]; decide
  · intro l h
    simp only [Instr.wf, h]
    decide

/-- The other operands of the rows, each past the end of its field. -/
theorem test_wf_operands :
    ([.insnComplete 0 .F (2 ^ 32), .beatInPulse 65536, .arbDraw 304 ⟨false, []⟩, .arbPreempt 304 [], .ledgerContribution 0 (2 ^ 24) 0,
      .ledgerContribution 0 0 8, .shadowUpdate 0 (2 ^ 64) 0, .shadowUpdate 0 0 (2 ^ 1024), .mirrorSum 0 (2 ^ 24) 0 [] false,
      .mirrorSum 0 0 (2 ^ 64) [] false, .freshFillDone (2 ^ 24), .moveComplete (2 ^ 24), .tagGrant 0 .F (2 ^ 32), .regionRelease 0 (2 ^ 48),
      .windowWrite 0 (2 ^ 39) [0] 0 ⟨false, false⟩ [], .windowWrite 0 0 [] 0 ⟨false, false⟩ [], .windowWrite 0 0 [0] 65536 ⟨false, false⟩ [], .windowRead 0 (2 ^ 39) ⟨1, []⟩,
      .windowRead 0 0 ⟨0, []⟩, .windowRead 0 0 ⟨4097, []⟩, .cellarRead (2 ^ 23) 0 (.delivered 0), .cellarRead 0 33 (.delivered 0), .cellarWriteDone (2 ^ 23),
      .cellarRefresh (2 ^ 23), .cellarPatrol [(2 ^ 23, 0, .delivered 0)], .cellarPatrol [(0, 33, .delivered 0)], .programFail 5120 ⟨0, 0⟩, .programFail 0 ⟨0, 683⟩,
      .eraseFail 5120 0, .linkNak 0 4096, .scalarReceive 0 0 256 ⟨0, []⟩, .scalarReceive 0 0 0 ⟨(2 ^ 64), []⟩, .scalarReceive 0 0 0 ⟨0, (List.replicate 65 0)⟩, .stretchReport 0 17,
      .hostPortTrained 0 8 0 false, .hostPortTrained 0 0 32 false] : List Instr).all (fun i => !i.wf) = true ∧
    ([.ctxOpen hd { openReq with coefA := 2 ^ 48 }, .memUnmap hd (2 ^ 64), .progLoad hd (2 ^ 64) 0, .progLoad hd 0 (2 ^ 32), .tableBuild hd 256 0 false 0 0,
      .tableBuild hd 0 256 false 0 0, .tableBuild hd 0 0 false (2 ^ 64) 0, .tableBuild hd 0 0 false 0 (2 ^ 64), .tableLoad hd 256 [],
      .ckptSeal hd 0 256 0, .ckptSeal hd 0 0 (2 ^ 64), .ckptRestore hd 0 256 0 0 [], .ckptRestore hd 0 0 256 0 [], .ckptRestore hd 0 0 0 (2 ^ 64) [],
      .stateExport hd (2 ^ 64), .boardJoin hd 16 0 0 0 false, .boardRemap hd (2 ^ 64) [] 0, .boardRemap hd 0 (List.replicate 9 0) 0,
      .boardRemap hd 0 [] 16, .spareTakeover hd 256, .mirrorSet hd false false 64 0 0, .mirrorSet hd false false 0 (2 ^ 48) 0,
      .mirrorSet hd false false 0 0 (2 ^ 48), .attestQuote hd [], .identityGet hd (2 ^ 32), .eventRead hd (2 ^ 64) 0, .eventRead hd 0 (2 ^ 32),
      .registerWrite 0 8 0 8 0, .registerWrite 0 0 (2 ^ 26) 8 0, .registerWrite 0 0 0 0 0, .registerWrite 0 0 0 9 0, .thermalEval 65536 0 false,
      .thermalEval 0 2048 false, .vinRange 655360, .powerPeak 65536, .notPosted 0 256, .verdictRequest 0 (2 ^ 64), .thermTripRelease 2048,
      .vfEnable 0 false 65536, .mctpMessage 0 256 false false .hello Bundle.reset, .mctpMessage 0 0 false false (.other 65536) Bundle.reset,
      .verdictReceive 0 (bytesOf 15), .markerReceive 0 (bytesOf 23), .abortTick ⟨0, [⟨16, 0, 0, 0, false⟩]⟩, .verdictReply ⟨2 ^ 64, 0, 0, 0⟩, .flitReceive 0 ⟨[], .nothing⟩,
      .linkTrainingDone 0 (training 16 0)] : List Instr).all (fun i => !i.wf) = true := by decide +kernel

/-- Every mailbox row refuses a header that does not fit, and takes one that does. -/
theorem test_wf_headers :
    let rows (h : ReqHdr) : List Instr := [.hello h, .ctxOpen h openReq, .ctxClose h, .ctxQuotaSet h quotas, .ctxAdopt h, .memMap h hostReq, .memUnmap h 0,
      .memPin h 0 1 2, .memUnpin h 0 1 2, .memHint h 0 1 2, .progLoad h 0 1088, .progUnload h, .stepArm h 1 0, .stepRun h, .stepAbort h, .stepStatus h,
      .tableBuild h 0 0 true 0 0, .tableLoad h 0 [], .ckptSeal h 0 0 0, .ckptDelete h 0, .ckptRestore h 0 0 0 0 [], .stateExport h 0,
      .boardJoin h 0 0 0 0 false, .boardRemap h 0 [] 0, .spareTakeover h 0, .mirrorSet h false false 0 0 0, .cfgStage h ⟨0, 0, []⟩ Bundle.reset,
      .cfgCommit h, .cfgRevert h, .resetFunc h, .resetDevice h, .attestQuote h (bytesOf 64), .identityGet h 0, .eventRead h 0 0, .telemetryRead h]
    (rows badHdr).all (fun i => !i.wf) = true ∧ (rows hd).all (fun i => i.wf) = true := by decide +kernel


theorem test_wf_marker :
    (Instr.markerReceive 0 sign.image).wf = true ∧ (Instr.verdictReceive 0 ((⟨1, 0, 0, 0⟩ : Verdict).image 0)).wf = true ∧
    (Instr.powerOn ⟨true, true, true, true, true, true, 15⟩).wf = true ∧ (Instr.powerOn ⟨true, true, true, true, true, true, 16⟩).wf = false := by decide +kernel

/-- Inputs of a boot at which the newer record of the anti-rollback counter verifies, or the older one. -/
def bootWith (new old : Bool) : BootInputs := ⟨true, new, old, true, true, true, 0⟩
/-- A part that has not come up, its counter at 7 and the older record's at 5. -/
def records : State := { State.reset with boot := { State.reset.boot with ctr := 7, ctrOld := 5 } }

/-- POWER_ON takes the counter of the newer record that verifies (R448). -/
theorem test_ctr_records :
    records.pwr.powered = false ∧ (doPowerOn (bootWith true true) records).boot.ctr = 7 ∧ (doPowerOn (bootWith false true) records).boot.ctr = 5 ∧
    (doPowerOn (bootWith false false) records).boot.ctrLost = true ∧ (doPowerOn (bootWith false true) records).boot.ctrLost = false := by decide +kernel

/-- A part whose management side waits for a message of SEQ 3. -/
def served (m : Option (Nat × BitVec 16)) : State := free.modFn 16 (fun x => { x with mgmt := m })
theorem test_hyp_ServiceCommands_waiting :
    (free.fn 16).mgmt = none ∧ ((served (some (1, 3))).fn 16).mgmt = some (0x0001, 3) ∧ (served (some (1, 3))).live = true ∧
    (served (some (1, 3))).serving = true ∧ (served (some (1, 3))).boot.recovery = false ∧
    (served (some (1, 3))).postTurn 16 (served (some (1, 3))).beat.now = true := by decide +kernel

/-- A takeover's flit counts on a module that is not the one that takes over, and slot 5 is none of a board of the -8S. -/
theorem test_hyp_LinkAndBoardClauses :
    (let f := flit .takeover 4095 true
     f.crcOk = true ∧ f.lseq = ((linked 2).port 0).rxSeq ∧ f.ftype = some .takeover ∧ f.last = true ∧ (linked 2).board.phase ≠ 3) ∧
    slotIdOk .s8 5 = false ∧ slotIdOk .s8 4 = true ∧ slotIdOk .h8 8 = true ∧ ((mapsTo []).linkEntry 0).1 = 0 ∧
    accepts (mapsTo []) (.boardJoin (hdr 0 0xFF) 0 0 0 0 false) 0 = true ∧
    ((on.modFn 2 (fun x => { x with pendEn := true, l2 := some 0x90 })).fn 2).l2.isSome = true ∧ (linked 2).linked 0 = true := by decide +kernel

/-! ### Results of the spec's tables and worked examples -/

/-- 50.0 in an E4M3 block of X = −3: 400 lies between 384 and 416, ties to even, code 0x7C (the example after Table 05-3). -/
theorem test_e4m3_tie : fmtOf 3 = some ⟨8, 0, 4, 3, 7, 0x7E, false, true, 0x7F⟩ ∧
    (convert ⟨8, 0, 4, 3, 7, 0x7E, false, true, 0x7F⟩ .nearest false (.fin false 400 0)).code = 0x7C := by decide

/-- The overflowing block (05, worked example): a factor of 96 puts 50,000 past 448, written as 0x7E and counted; 192 gives 0x78. -/
theorem test_e4m3_saturates :
    let k : Fmt := ⟨8, 0, 4, 3, 7, 0x7E, false, true, 0x7F⟩
    convert k .nearest false ((Val.fin false 50000 0).div (.fin false 96 0)) = ⟨0x7E, true, false⟩ ∧
    convert k .nearest false ((Val.fin false 50000 0).div (.fin false 192 0)) = ⟨0x78, false, false⟩ := by decide +kernel

/-- The offsets of the same example: base 0.75 gives O = −2 for amax 50 (R128). -/
theorem test_two_level_offset :
    offsetOf ⟨8, 0, 4, 3, 7, 0x7E, false, true, 0x7F⟩ (.fin false 3 (-2)) (.fin false 50 0) = some (-2) ∧
    offsetOf ⟨8, 0, 4, 3, 7, 0x7E, false, true, 0x7F⟩ (.fin false 3 (-1)) (.fin false 50 0) = some (-3) := by decide +kernel

/-- One BF16 block (09, worked example): lengths 1, 2, 3, 3 and the codes 0, 10, 110, 111. -/
theorem test_grist_codes :
    (Grist.build { cnt := [(122, 148), (123, 600), (124, 1000), (125, 300)] } 1).codes = [(1, 0, 124), (2, 2, 123), (3, 6, 122), (3, 7, 125)] := by
  decide +kernel

/-- The LFSR from clk 1,000 to clk 1,008 (12, worked example). -/
theorem test_lfsr : iter 8 lfsrStep 0x35 = 0x35B6 ∧ iter 5 lfsrStep 0x35 = 0x6B6 := by decide +kernel

/-- A part whose arbiter of hub port 4 has its LFSR at n in this clk, with 8 tickets for CD1, CD3 and the conditioning engine and 2 for the
migration engine. -/
def drawAt (n : Nat) : State :=
  let s := { on with hub := { on.hub with lfsrSeed := n ^^^ (4 * 0x9E3779B9 % 2 ^ 32), lfsrClk := 5 }, beat := { on.beat with now := 5 } }
  { s with rwi := [(0x401040, BitVec.ofNat 64 (fields [(8, 8), (24, 8)])), (0x401048, BitVec.ofNat 64 (fields [(0, 2), (8, 8)]))] }

/-- The draws of the example at clk 1,000 (53 mod 18 = 17: migration) and 1,005 (1,718 mod 18 = 8: CD3), and the draw among PREEMPT
requesters at clk 1,002. -/
theorem test_draws :
    let l (n : List Nat) : List PortReq := n.map (fun i => ⟨i, .other⟩)
    let won (s : State) : Option (Nat × Bool) := (s.arb 4).grant.map (fun g => (g.who, g.forced))
    won (doArbDraw 4 false (l [1, 3, 8]) (drawAt 0x35)) = some (8, false) ∧
    smGet 0 ((doArbDraw 4 false (l [1, 3, 8]) (drawAt 0x35)).arb 4).loss 1 = 1 ∧
    won (doArbDraw 4 false (l [1, 3, 8]) (drawAt 0x6B6)) = some (3, false) ∧
    won (doArbPreempt 4 (l [1, 3, 8, 9]) ((drawAt 0xD6).modArb 4 (fun x => { x with
      grant := some ⟨8, false, 4, .other, false, none⟩ }))) = some (9, false) := by
  decide +kernel

/-- MM with BUDGET 900 at clk 11,200 of a beat of 12,000 is held, and is admitted at clk 11,100 (02, worked example). -/
theorem test_admission :
    ({ on with beat := { on.beat with now := 11200 } } : State).admitTest 900 = .hold ∧
    ({ on with beat := { on.beat with now := 11100 } } : State).admitTest 900 = .ok := by decide

/-- Row 37, column 90, chunk 156, KIND 0: TILE_XLOC1 [31:0] is 0x009C_5A25 (04, example after R107). -/
theorem test_xloc : (({} : XLoc).capture 0 { row := 37, col := 90, kchunk := 156 }).word1 % 2 ^ 32 = 0x009C5A25 := by decide +kernel

/-- Tile 40's scratchpad starts at 0xFFF0_5000_0000 (03, example after R48). -/
theorem test_scratch_address : scratchBase + 40 * 0x2000000 = 0xFFF050000000 := by decide +kernel

/-- The statements about every next state: some state answers one. -/
theorem test_hyp_CommandsRun : ∃ t, exec (.nop 0 .F (word opNop 0 0 0)) ready = .next t := ⟨_, rfl⟩
theorem test_hyp_FrameInstructions : ∃ t, exec (.dmaFill 0 .F (word opDmaFill 0 0 0)) ready = .next t := ⟨_, rfl⟩
theorem test_hyp_FrameMailbox : ∃ t, exec (.hello (hdr 8 0xFF)) free = .next t := ⟨_, rfl⟩
theorem test_hyp_FrameRows : ∃ t, exec .heatDecay on = .next t := ⟨_, rfl⟩

end Sys2Proof.Tests
end

/-! ### The frame of an instruction (R13, R55, R356): a DMA.FILL may move an older transfer of another context

`Obligations.InstructionFrame` asks nothing of the numbers of the transfers in `s.xfers`. The work of a DMA.FILL registers its transfer under the
number `s.mig.nextId` and then runs the first transfer with that number (`State.dmaRun`). In a state where an older transfer has that number already,
it is the older one that moves, and its reports go to the context that it belongs to. -/
section
namespace Sys2Proof.Machine.InstructionFrame

/-- A DMA.FILL of the F stream with BUDGET 100, its descriptor at local offset 64. -/
def fillWord : Insn := ⟨2, 3, false, false, false, false, 100, 64, 0, 0⟩

/-- One row of 32 bytes: ROWS and RLEN of a DMA descriptor (Table 09-4). SRC and DST are 0. -/
def oneRow : Nat := 1 * 2 ^ 80 + 32 * 2 ^ 96

/-- The descriptor of that fill: its header (CLASS 2, DOP 3, version 1, two lines), one row of 32 bytes, DST in tile 0's own scratch. -/
def fillDesc : Nat := 2 + 3 * 2 ^ 4 + 1 * 2 ^ 12 + 1 * 2 ^ 16 + oneRow + (scratchBase + 0x2000) * 2 ^ 192

/-- A transfer of context 5 to context address 0, under number 1. -/
def olderXfer : Xfer := { id := 1, ctx := 5, kind := .dmaFill, desc := oneRow }

/-- A live part: context 0 owns tile set 0 with step 1 open, and tile 0's F stream stands at `fillWord`. The next transfer gets number 1, which
`olderXfer` has. -/
def reusedNumber : State :=
  { State.reset with
    pwr := { State.reset.pwr with powered := true, coreRails := true }
    ctxs := [(0, { st := .isOpen, owner := some 0, tsets := 1, step := { stepNo := 1, opened := true } })]
    tiles := [(0, { seqF := { plen := 16, icache := [0], run := true, stepNo := 1 } })]
    mem := memWriteList [] (localKey 0 64) (toBytes 128 fillDesc)
    xfers := [olderXfer] }

/-- The state keeps the model's own invariant: what fails below is not its memory, its epoch or the bytes noted as changed. -/
theorem reusedNumber_sound : reusedNumber.Sound where
  mem := by decide +kernel
  epoch := by decide
  old := fun o ho => nomatch ho

/-- Context 0 owns tile 0, so context 5 is not the fill's own. -/
theorem reusedNumber_tileCtx : reusedNumber.tileCtx 0 = some 0 := by decide

/-- Before the fill no transfer of context 5 has reported anything. -/
theorem reusedNumber_noReport : (reusedNumber.ctx 5).step.xreport = none := by decide

/-- The fill runs, and what moves is the older transfer: context address 0 is not mapped in context 5, which reports 0x2004 (R497). -/
theorem dmaFill_reports_older_transfer :
    ∃ u, exec (.dmaFill 0 .F fillWord) reusedNumber = .next u ∧ (u.ctx 5).step.xreport = some ⟨0, .F, 0x2004, 0, 0⟩ :=
  ⟨_, rfl, by decide +kernel⟩

/-- So from a sound state a DMA.FILL of context 0's tile changes context 5. -/
theorem dmaFill_changes_other_context :
    ∃ s u, s.Sound ∧ s.tileCtx 0 = some 0 ∧ exec (.dmaFill 0 .F fillWord) s = .next u ∧ u.ctx 5 ≠ s.ctx 5 := by
  obtain ⟨u, hrun, hreport⟩ := dmaFill_reports_older_transfer
  refine ⟨reusedNumber, u, reusedNumber_sound, reusedNumber_tileCtx, hrun, fun hsame => ?_⟩
  rw [hsame, reusedNumber_noReport] at hreport
  cases hreport

/-- Refutes O21: where an older transfer of another context has the number that the next transfer gets, a DMA.FILL moves that one, and the other
context's report changes. A DMA.FILL sends no signal, so the statement's one exception (R70) does not cover it. -/
theorem not_instructionFrame : ¬ Obligations.InstructionFrame := by
  rintro ⟨hframe, -⟩
  obtain ⟨s, u, -, hown, hrun, hchanged⟩ := dmaFill_changes_other_context
  have hrow : (Instr.dmaFill 0 .F fillWord, opDmaFill) ∈ instructionRows 0 .F fillWord := by simp [instructionRows]
  obtain ⟨-, hctx⟩ := hframe s u 0 .F fillWord _ hrow hrun
  refine hchanged (hctx 5 ?_ ?_)
  · intro h
    cases hown.symm.trans h
  · rintro t' ⟨hsem | hsem, -⟩ <;> cases hsem

end Sys2Proof.Machine.InstructionFrame
end

/-! ### The cask's rows (R163-R176): CASK.PUT, CASK.GET, CASK.RELEASE, CASK_PUT_RETRY and CASK_FULL

What an instruction's work on the cask leaves of the tile's sequencers (`StreamsKept`) decides how its stream goes on, so each row is settled by the
lemma about its work and by `admitted_of_streamsKept`. -/
section
namespace Sys2Proof.Machine.CaskRows

variable {s u v : State} {t : Nat} {st : Stream} {w : Insn} {c o d par : Nat}

/-! #### Work that leaves the sequencers alone -/

/-- From s to u no tile but t changed, and no sequencer of tile t. -/
structure StreamsKept (s u : State) (t : Nat) : Prop where
  tiles : ∀ t', t' ≠ t → u.tile t' = s.tile t'
  seqs : ∀ b, u.seq t b = s.seq t b

theorem StreamsKept.trans (h : StreamsKept s u t) (k : StreamsKept u v t) : StreamsKept s v t :=
  ⟨fun t' ht => (k.tiles t' ht).trans (h.tiles t' ht), fun b => (k.seqs b).trans (h.seqs b)⟩

theorem streamsKept_of_tiles (h : u.tiles = s.tiles) (t : Nat) : StreamsKept s u t := ⟨fun t' _ => tile_congr h t', seq_congr h t⟩

/-- A change of the cask alone. -/
theorem streamsKept_modTile (s : State) (t : Nat) (f : Tile → Cask) : StreamsKept s (s.modTile t (fun x => { x with cask := f x })) t where
  tiles _ ht := modTile_other _ _ ht
  seqs b := by unfold State.seq; rw [modTile_same]; cases b <;> rfl

/-- At its admission an instruction's stream alone has changed. -/
theorem atWork_tile (s : State) (t : Nat) (st : Stream) : (s.atWork t st).tile t = (s.tile t).modSeq st (·.admitted s.beat.now) := by
  unfold State.atWork State.modSeq
  rw [asBefore_tile, modTile_same]
  rfl

theorem atWork_tile_other {t' : Nat} (h : t' ≠ t) : (s.atWork t st).tile t' = s.tile t' := by
  unfold State.atWork State.modSeq
  rw [asBefore_tile, modTile_other _ _ h]

theorem atWork_seq (s : State) (t : Nat) (st : Stream) : (s.atWork t st).seq t st = (s.seq t st).admitted s.beat.now := by
  unfold State.seq
  rw [atWork_tile, tile_modSeq_same]

theorem atWork_cask (s : State) (t : Nat) (st : Stream) : ((s.atWork t st).tile t).cask = (s.tile t).cask := by
  rw [atWork_tile]; cases st <;> rfl

/-- Where an instruction's work leaves the sequencers alone and does not branch, the instruction is admitted with the entry that the work gives. -/
theorem admitted_of_streamsKept {r : Ran} (h : StreamsKept (s.atWork t st) r.st t) (hj : r.jump = none) :
    Admitted s (s.afterIssue r t st w Seq.next) t st r.fl := by
  have hq : r.st.seq t st = (s.seq t st).admitted s.beat.now := (h.seqs st).trans (atWork_seq s t st)
  refine ⟨afterIssue_next (hq ▸ SameFlow.refl _) hj, ?_, fun t' ht => ?_⟩
  · rw [afterIssue_inflight, hq]; rfl
  · rw [afterIssue_tile ht, h.tiles t' ht, atWork_tile_other ht]

/-- Going on changes the tile's sequencer alone: the rest of the tile is as the work left it. -/
theorem afterIssue_own (r : Ran) (flow : Seq → Seq) :
    ∃ f, (s.afterIssue r t st w flow).tile t = (r.st.tile t).modSeq st f := ⟨_, modTile_same ..⟩

theorem afterIssue_cask (r : Ran) (flow : Seq → Seq) : ((s.afterIssue r t st w flow).tile t).cask = (r.st.tile t).cask := by
  obtain ⟨f, h⟩ := afterIssue_own (s := s) (t := t) (st := st) (w := w) r flow
  rw [h]; cases st <;> rfl

/-- Work that changes no tile leaves the tile's banks, counts, locator and cask. -/
theorem engineKept_afterIssue {r : Ran} {flow : Seq → Seq} (h : r.st.tile t = (s.atWork t st).tile t) :
    EngineKept s (s.afterIssue r t st w flow) t := by
  obtain ⟨f, hf⟩ := afterIssue_own (s := s) (t := t) (st := st) (w := w) r flow
  rw [h, atWork_tile] at hf
  constructor <;> rw [hf] <;> cases st <;> rfl

/-- A sound state keeps what every operation keeps. -/
theorem keeps_of_sound (h : s.Sound) : Keeps s.variant s.pending s := ⟨rfl, rfl, h.mem, h.epoch, h.old⟩

/-- What work reads in a sound state is sound (R51). -/
theorem asBefore_sound (h : s.Sound) : s.asBefore.Sound where
  mem := wf_memBefore h.mem
  epoch := h.epoch
  old := fun _ ho => nomatch ho

theorem letIn_sound (h : s.Sound) : (s.letIn t st).Sound := ⟨h.mem, h.epoch, h.old⟩

theorem atWork_sound (h : s.Sound) : (s.atWork t st).Sound := asBefore_sound (letIn_sound (t := t) (st := st) h)

/-- The memory after an instruction whose work leaves memory canonical (R51). -/
theorem landed_afterIssue {r : Ran} {flow : Seq → Seq} (hs : s.Sound) (hm : Memory.wf r.st.mem = true) :
    Landed s (s.afterIssue r t st w flow) r.st.mem :=
  landed_afterAll (s := s.letIn t st) (letIn_sound hs) hm 0

/-- An admitted cask instruction whose descriptor and reach checks pass, in time in its clk, and whose work does not fault. -/
theorem caskIssue_work {k : OpInfo} {body : Nat → Nat → InFlight → State → Ran} {r : Ran} (h : CanIssue s t st k w (s.caskPre t) c)
    (hd : (s.atWork t st).readDesc t w (s.seq t st).loops k.cls [k.op] = .ok (o, d)) (hk : k.cls ≠ 0) (hb : caskBody k.op d = none)
    (hr : k.op = 2 ∨ (s.atWork t st).caskReach t d = none) (hw : body c d (s.descEntry t st w o d) (s.atWork t st) = r)
    (hs : r.skip = false) (hf : r.fault = none) : s.caskIssue t st k w body = s.afterIssue r t st w Seq.next := by
  unfold State.caskIssue
  refine issue_work h hk _ _ ?_ hs hf
  have hl : ((s.letIn t st).asBefore.seq t st).loops = (s.seq t st).loops := by simp [State.letIn, Seq.admitted]
  have hd' : (s.letIn t st).asBefore.readDesc t w (s.seq t st).loops k.cls [k.op] = .ok (o, d) := hd
  have hr' : (if k.op = 2 then none else (s.letIn t st).asBefore.caskReach t d) = none := by
    rcases hr with h2 | h2
    · rw [if_pos h2]
    · rw [show (s.letIn t st).asBefore.caskReach t d = none from h2, ite_self]
  simp only [hl, hd', hb, hr']
  exact hw

/-! #### The directory (R166) -/

theorem foldl_wrClk_tiles (l : List Nat) (key : Nat → Nat) (b : Nat → List Byte) (s : State) :
    (l.foldl (fun s i => s.wrClk (key i) (b i)) s).tiles = s.tiles := by
  induction l generalizing s with
  | nil => rfl
  | cons i r ih => rw [List.foldl_cons, ih, wrClk_tiles]

theorem setCask_tiles (s : State) (t : Nat) (k : Cask) : (s.setCask t k).tiles = (s.modTile t (fun x => { x with cask := k })).tiles :=
  foldl_wrClk_tiles ..

@[simp] theorem setCask_cask (s : State) (t : Nat) (k : Cask) : ((s.setCask t k).tile t).cask = k := by
  rw [tile_congr (setCask_tiles s t k), modTile_same]

theorem setCask_streamsKept (s : State) (t : Nat) (k : Cask) : StreamsKept s (s.setCask t k) t :=
  (streamsKept_modTile s t fun _ => k).trans (streamsKept_of_tiles (setCask_tiles s t k) t)

/-! #### Placement (R168, R170) -/

/-- A placement of the B stream is noted with its clk (R170). -/
def marked (s : State) (t : Nat) (st : Stream) : State :=
  if st = .F then s else s.modTile t (fun y => { y with cask := { y.cask with placedB := some s.beat.now } })

/-- Where a PUT of stream st is placed: the tile after it, and where the entry lies. -/
def placing (s : State) (t : Nat) (st : Stream) (d par : Nat) : Tile × Placed := ((marked s t st).tile t).placeEntry s.beat.now d par

theorem marked_now : (marked s t st).beat.now = s.beat.now := by unfold marked; split <;> rfl

theorem marked_streamsKept (s : State) (t : Nat) (st : Stream) : StreamsKept s (marked s t st) t := by
  unfold marked
  split
  · exact streamsKept_of_tiles rfl t
  · exact streamsKept_modTile s t _

/-- The mark changes nothing that a placement looks at. -/
theorem marked_cask (s : State) (t : Nat) (st : Stream) :
    ∃ p, ((marked s t st).tile t).cask = { (s.tile t).cask with placedB := p } := by
  unfold marked
  split
  · exact ⟨_, rfl⟩
  · exact ⟨_, by rw [modTile_same]⟩

/-- A PUT's bytes change no tile. -/
theorem caskStore_tiles (s : State) (t c d tier loc : Nat) : (s.caskStore t c d tier loc).tiles = s.tiles :=
  (chg_caskStore (Chg.refl s) (Sub.self _) t c d tier loc).tiles (by decide)

/-- A try at a placement changes the cask as the placement says; where the entry lies somewhere, its bytes follow. -/
theorem caskPlace_cases : let m := (marked s t st).setCask t (placing s t st d par).1.cask
    (∃ tier loc, (placing s t st d par).2 = .at_ tier loc ∧ s.caskPlace t c st d par = (m.caskStore t c d tier loc, true)) ∨
    ((placing s t st d par).2 = .dropped ∧ s.caskPlace t c st d par = (m, true)) ∨
    ((placing s t st d par).2 = .stall ∧ s.caskPlace t c st d par = (m, false)) := by
  unfold State.caskPlace
  dsimp only
  rw [← marked, marked_now, ← placing]
  cases (placing s t st d par).2 with
  | at_ tier loc => exact .inl ⟨tier, loc, rfl, rfl⟩
  | dropped => exact .inr (.inl ⟨rfl, rfl⟩)
  | stall => exact .inr (.inr ⟨rfl, rfl⟩)

theorem caskPlace_tiles : (s.caskPlace t c st d par).1.tiles = ((marked s t st).setCask t (placing s t st d par).1.cask).tiles := by
  rcases caskPlace_cases (s := s) (t := t) (c := c) (st := st) (d := d) (par := par) with ⟨_, _, _, h⟩ | ⟨_, h⟩ | ⟨_, h⟩ <;> rw [h]
  exact caskStore_tiles ..

/-- A PUT whose entry lies somewhere is done with its placement. -/
theorem caskPlace_done {tier loc : Nat} (hp : (placing s t st d par).2 = .at_ tier loc) : (s.caskPlace t c st d par).2 = true := by
  rcases caskPlace_cases (s := s) (t := t) (c := c) (st := st) (d := d) (par := par) with ⟨_, _, _, h⟩ | ⟨_, h⟩ | ⟨h, _⟩
  · rw [h]
  · rw [h]
  · rw [h] at hp; cases hp

theorem caskPlace_streamsKept : StreamsKept s (s.caskPlace t c st d par).1 t :=
  ((marked_streamsKept s t st).trans (setCask_streamsKept ..)).trans (streamsKept_of_tiles caskPlace_tiles t)

theorem caskPlace_cask : ((s.caskPlace t c st d par).1.tile t).cask = (placing s t st d par).1.cask := by
  rw [tile_congr caskPlace_tiles, setCask_cask]

/-- A placement leaves memory canonical. -/
theorem caskPlace_wf (h : s.Sound) : Memory.wf (s.caskPlace t c st d par).1.mem = true := (keeps_caskPlace (keeps_of_sound h) ..).mem

/-- The entry of a PUT that lies in the arena from unit l on. -/
def arenaSlot (d par l : Nat) : CaskSlot :=
  { layer := caskLayer d, mb := caskMb d, kind := caskKind d, par := par, valid := true, recomp := caskBit49 d, size := caskSize d, rpc := caskRpc d,
    loc := l, tbl := if caskCmp d then caskTbl d else 0 }

/-- The arena is the first place tried: with a slot free, and where MIN allows it and it has a run of units, the entry lies there (R168). -/
theorem placeEntry_arena {x : Tile} {now i l : Nat} (hi : x.cask.freeSlot now = some i) (hmin : caskMin d = 0) (hroom : 0 < (x.cask.room 0).2)
    (hfit : x.cask.fit now 0 (caskUnits (caskSize d)) = some l) :
    x.placeEntry now d par = ({ x with cask := { x.cask with dir := smSet {} x.cask.dir i (arenaSlot d par l) } }, .at_ 0 l) := by
  unfold Tile.placeEntry
  simp [hi, hmin, hroom, hfit, arenaSlot]

theorem placing_arena {i l : Nat} (hi : (s.tile t).cask.freeSlot s.beat.now = some i) (hmin : caskMin d = 0)
    (hroom : 0 < ((s.tile t).cask.room 0).2) (hfit : (s.tile t).cask.fit s.beat.now 0 (caskUnits (caskSize d)) = some l) :
    (placing s t st d par).2 = .at_ 0 l ∧ smGet {} (placing s t st d par).1.cask.dir i = arenaSlot d par l := by
  obtain ⟨p, hp⟩ := marked_cask s t st
  have h := placeEntry_arena (x := (marked s t st).tile t) (now := s.beat.now) (d := d) (par := par) (i := i) (l := l)
    (by rw [hp]; exact hi) hmin (by rw [hp]; exact hroom) (by rw [hp]; exact hfit)
  unfold placing
  rw [h]
  exact ⟨rfl, smGet_smSet_same _ _⟩

/-! #### CASK.PUT -/

/-- What a CASK.PUT with the entry x comes to after its try r at a placement: it is placed, or it stalls its stream (R168, R169). -/
def putRan (t : Nat) (st : Stream) (x : InFlight) (r : State × Bool) : Ran :=
  if r.2 then { st := r.1, fl := x }
  else { st := r.1.modTile t (fun y => { y with cask := y.cask.setStall st (some x.seq) }), fl := { x with wait := .cask } }

theorem exec_caskPut {t : TileId} (h : CanIssue s t.val st opCaskPut w (s.caskPre t.val) c)
    (hd : (s.atWork t.val st).readDesc t.val w (s.seq t.val st).loops 7 [0] = .ok (o, d)) (hb : caskBody 0 d = none)
    (hr : (s.atWork t.val st).caskReach t.val d = none)
    (hf : (s.atWork t.val st).putFault t.val c d ((s.seq t.val st).stepNo % 2) = none) (hl : s.caskLate t.val st = false) :
    exec (.caskPut t st w) s = .next (s.afterIssue (putRan t.val st (s.descEntry t.val st w o d)
      ((s.atWork t.val st).caskPlace t.val c st d ((s.seq t.val st).stepNo % 2))) t.val st w Seq.next) := by
  have hlate : (s.atWork t.val st).caskLate t.val st = false := by
    show (st == .F && ((s.atWork t.val st).tile t.val).cask.placedB == some s.beat.now) = false
    rw [atWork_cask]; exact hl
  show Host.Outcome.next (whenLive s _) = _
  rw [whenLive_live h.live]
  refine congrArg _ (caskIssue_work (k := opCaskPut) h hd (by decide) hb (.inr hr) ?_ ?_ ?_)
  · have hstep : (s.descEntry t.val st w o d).step = (s.seq t.val st).stepNo := rfl
    simp only [hstep, hf, hlate, Bool.false_eq_true, if_false]
    rfl
  all_goals unfold putRan; split <;> rfl

theorem setStall_dir (k : Cask) (st : Stream) (v : Option Nat) : (k.setStall st v).dir = k.dir := by unfold Cask.setStall; split <;> rfl

@[simp] theorem stall_setStall (k : Cask) (st : Stream) (v : Option Nat) : (k.setStall st v).stall st = v := by
  unfold Cask.setStall Cask.stall; split <;> simp_all

section
variable {x : InFlight} {r : State × Bool}

theorem putRan_placed (h : r.2 = true) : putRan t st x r = { st := r.1, fl := x } := if_pos h

theorem putRan_stalled (h : r.2 = false) : putRan t st x r =
    { st := r.1.modTile t (fun y => { y with cask := y.cask.setStall st (some x.seq) }), fl := { x with wait := .cask } } :=
  if_neg (by rw [h]; decide)

/-- A stall changes neither memory nor the directory. -/
theorem putRan_same : (putRan t st x r).st.mem = r.1.mem ∧ (putRan t st x r).st.poison = r.1.poison ∧
    ((putRan t st x r).st.tile t).cask.dir = (r.1.tile t).cask.dir := by
  cases h : r.2
  · rw [putRan_stalled h]; exact ⟨rfl, rfl, by rw [modTile_same]; exact setStall_dir ..⟩
  · rw [putRan_placed h]; exact ⟨rfl, rfl, rfl⟩

/-- The placed PUT is admitted (R168). -/
theorem admitted_putRan_placed (hk : StreamsKept (s.atWork t st) r.1 t) (h : r.2 = true) :
    Admitted s (s.afterIssue (putRan t st x r) t st w Seq.next) t st x := by
  rw [putRan_placed h]
  exact admitted_of_streamsKept hk rfl

/-- The stalled PUT is admitted, waits, and is noted as its stream's (R169). -/
theorem admitted_putRan_stalled (hk : StreamsKept (s.atWork t st) r.1 t) (h : r.2 = false) :
    Admitted s (s.afterIssue (putRan t st x r) t st w Seq.next) t st { x with wait := .cask } ∧
      ((s.afterIssue (putRan t st x r) t st w Seq.next).tile t).cask.stall st = some x.seq := by
  rw [putRan_stalled h]
  refine ⟨admitted_of_streamsKept (hk.trans (streamsKept_modTile _ t _)) rfl, ?_⟩
  rw [afterIssue_cask, modTile_same, stall_setStall]

end

/-- A PUT whose entry fits in the arena is placed there. -/
theorem caskPlace_arena {i l : Nat} (hi : (s.tile t).cask.freeSlot s.beat.now = some i) (hmin : caskMin d = 0)
    (hroom : 0 < ((s.tile t).cask.room 0).2) (hfit : (s.tile t).cask.fit s.beat.now 0 (caskUnits (caskSize d)) = some l) :
    ((s.atWork t st).caskPlace t c st d par).2 = true ∧
      smGet {} (((s.atWork t st).caskPlace t c st d par).1.tile t).cask.dir i = arenaSlot d par l := by
  obtain ⟨h1, h2⟩ := placing_arena (s := s.atWork t st) (t := t) (st := st) (d := d) (par := par) (i := i) (l := l)
    (by rw [atWork_cask]; exact hi) hmin (by rw [atWork_cask]; exact hroom) (by rw [atWork_cask]; exact hfit)
  rw [caskPlace_cask]
  exact ⟨caskPlace_done h1, h2⟩

/-! #### CASK.GET (R171) -/

/-- What a CASK.GET of a dropped entry comes to: a branch to the recompute program, and with REL the release of its slot. -/
def droppedRan (s : State) (t : Nat) (st : Stream) (w : Insn) (o d i : Nat) (k : CaskSlot) : Ran :=
  { st := if caskBit49 d then (s.atWork t st).setCask t ((s.tile t).cask.free s.beat.now i) else s.atWork t st,
    fl := { s.descEntry t st w o d with desc := 0 }, jump := some k.rpc }

/-- What a CASK.GET of a resident entry comes to: the entry's bytes at DST. -/
def residentRan (s : State) (t : Nat) (st : Stream) (w : Insn) (c o d : Nat) (k : CaskSlot) : Ran :=
  { st := ((s.atWork t st).caskLoad t c st (s.descEntry t st w o d) k).1, fl := ((s.atWork t st).caskLoad t c st (s.descEntry t st w o d) k).2 }

section
variable {t : TileId} {i : Nat} {k : CaskSlot} (h : CanIssue s t.val st opCaskGet w (s.caskPre t.val) c)
  (hd : (s.atWork t.val st).readDesc t.val w (s.seq t.val st).loops 7 [1] = .ok (o, d)) (hb : caskBody 1 d = none)
  (hr : (s.atWork t.val st).caskReach t.val d = none)
  (hk : (s.tile t.val).cask.find (caskLayer d) (caskMb d) (caskKind d) ((s.seq t.val st).stepNo % 2) = some (i, k))
  (hsize : k.size = caskSize d)
include h hd hb hr hk hsize

theorem exec_caskGet_dropped (hdrop : k.dropped = true) (hcalls : (s.seq t.val st).calls.length < 8) :
    exec (.caskGet t st w) s = .next (s.afterIssue (droppedRan s t.val st w o d i k) t.val st w Seq.next) := by
  show Host.Outcome.next (whenLive s _) = _
  rw [whenLive_live h.live]
  refine congrArg _ (caskIssue_work (k := opCaskGet) h hd (by decide) hb (.inr hr) ?_ rfl rfl)
  have hstep : (s.descEntry t.val st w o d).step = (s.seq t.val st).stepNo := rfl
  have hc : ¬ 8 ≤ ((s.atWork t.val st).seq t.val st).calls.length := by
    rw [atWork_seq]
    exact Nat.not_le.mpr hcalls
  simp only [hstep, atWork_cask, hk, hsize, hdrop, hc, ne_eq, not_true_eq_false, if_false, if_true]
  rfl

theorem exec_caskGet_resident (hdrop : k.dropped = false) :
    exec (.caskGet t st w) s = .next (s.afterIssue (residentRan s t.val st w c o d k) t.val st w Seq.next) := by
  show Host.Outcome.next (whenLive s _) = _
  rw [whenLive_live h.live]
  refine congrArg _ (caskIssue_work (k := opCaskGet) h hd (by decide) hb (.inr hr) ?_ rfl rfl)
  have hstep : (s.descEntry t.val st w o d).step = (s.seq t.val st).stepNo := rfl
  simp only [hstep, atWork_cask, hk, hsize, hdrop, ne_eq, not_true_eq_false, if_false, Bool.false_eq_true]
  rfl

end

theorem free_dir (x : Cask) (now i : Nat) : (x.free now i).dir = smSet {} x.dir i {} := rfl

theorem free_slot (x : Cask) (now i : Nat) : smGet {} (x.free now i).dir i = {} := by rw [free_dir, smGet_smSet_same]

theorem droppedRan_streamsKept {i : Nat} {k : CaskSlot} : StreamsKept (s.atWork t st) (droppedRan s t st w o d i k).st t := by
  unfold droppedRan
  dsimp only
  split
  · exact setCask_streamsKept ..
  · exact streamsKept_of_tiles rfl t

/-- A GET that branches goes on at the recompute PC, with the PC after it pushed. -/
theorem afterIssue_branch {r : Ran} {tgt : Nat} (h : StreamsKept (s.atWork t st) r.st t) (hj : r.jump = some tgt) :
    ((s.afterIssue r t st w Seq.next).seq t st).pc = tgt ∧
      ((s.afterIssue r t st w Seq.next).seq t st).calls =
        (closeLoops (s.seq t st).pc ((s.seq t st).pc + 1) (s.seq t st).loops).1 :: (s.seq t st).calls := by
  have hf := afterIssue_seq (s := s) (r := r) (t := t) (st := st) (w := w) (flow := Seq.next)
  have hq : r.st.seq t st = (s.seq t st).admitted s.beat.now := (h.seqs st).trans (atWork_seq s t st)
  rw [hj, hq] at hf
  exact ⟨hf.pc, hf.calls⟩

theorem caskLoad_tiles (s : State) (t c : Nat) (st : Stream) (x : InFlight) (k : CaskSlot) : (s.caskLoad t c st x k).1.tiles = s.tiles :=
  (chg_caskLoad (Chg.refl s) (Sub.self _) t c st x k).tiles (by decide)

/-! #### CASK.RELEASE (R172) -/

/-- The entry of a key is freed where there is one. -/
def releaseKey (now layer mb par : Nat) (x : Cask) (kind : Nat) : Cask :=
  match x.find layer mb kind par with
  | some p => x.free now p.1
  | none => x

/-- What a CASK.RELEASE comes to: the entries of its key, of both kinds with BOTHK, are freed. -/
def releaseRan (s : State) (t : Nat) (st : Stream) (w : Insn) (o d : Nat) : Ran :=
  { st := (s.atWork t st).setCask t ((if caskBit49 d then [0, 1] else [caskKind d]).foldl
      (releaseKey s.beat.now (caskLayer d) (caskMb d) ((s.seq t st).stepNo % 2)) (s.tile t).cask),
    fl := s.descEntry t st w o d }

theorem exec_caskRelease {t : TileId} (h : CanIssue s t.val st opCaskRelease w (s.caskPre t.val) c)
    (hd : (s.atWork t.val st).readDesc t.val w (s.seq t.val st).loops 7 [2] = .ok (o, d)) (hb : caskBody 2 d = none) :
    exec (.caskRelease t st w) s = .next (s.afterIssue (releaseRan s t.val st w o d) t.val st w Seq.next) := by
  show Host.Outcome.next (whenLive s _) = _
  rw [whenLive_live h.live]
  refine congrArg _ (caskIssue_work (k := opCaskRelease) h hd (by decide) hb (.inl rfl) ?_ rfl rfl)
  simp only [atWork_cask]
  rfl

section
variable {now layer mb i : Nat} {x : Cask} {k : CaskSlot}

/-- A slot that is free stays free when any slot is freed. -/
theorem free_keeps_freed (j : Nat) (h : (smGet {} x.dir i).valid = false) : (smGet {} (x.free now j).dir i).valid = false := by
  by_cases hij : i = j
  · rw [hij, free_slot]
  · rw [free_dir, smGet_smSet_other _ hij, h]

theorem find?_filter_of_find? {α : Type} {p q : α → Bool} {l : List α} {a : α} (h : l.find? p = some a) (hq : q a = true) :
    (l.filter q).find? p = some a := by
  obtain ⟨hp, as, bs, rfl, has⟩ := List.find?_eq_some_iff_append.mp h
  rw [List.filter_append, List.filter_cons_of_pos hq]
  exact List.find?_eq_some_iff_append.mpr ⟨hp, _, _, rfl, fun b hb => has b (List.mem_filter.mp hb).1⟩

/-- Freeing another slot leaves the entry that a key names. -/
theorem find_free_other {kind j : Nat} (h : x.find layer mb kind par = some (i, k)) (hij : i ≠ j) :
    (x.free now j).find layer mb kind par = some (i, k) := by
  unfold Cask.find
  rw [free_dir, smSet, if_pos rfl]
  exact find?_filter_of_find? h (by simpa using hij)

/-- After a release an entry that a key named is still the one it names, or its slot is free. -/
theorem find_releaseKey {kind : Nat} (kind' : Nat) (h : x.find layer mb kind par = some (i, k)) :
    (releaseKey now layer mb par x kind').find layer mb kind par = some (i, k) ∨
      (smGet {} (releaseKey now layer mb par x kind').dir i).valid = false := by
  unfold releaseKey
  split
  · rename_i p hp
    by_cases hij : i = p.1
    · exact .inr (by rw [← hij, free_slot])
    · exact .inl (find_free_other h hij)
  · exact .inl h

theorem releaseKey_frees {kind : Nat} (h : x.find layer mb kind par = some (i, k)) :
    (smGet {} (releaseKey now layer mb par x kind).dir i).valid = false := by
  unfold releaseKey
  rw [h]
  exact congrArg CaskSlot.valid (free_slot ..)

theorem releaseKey_keeps_freed (kind : Nat) (h : (smGet {} x.dir i).valid = false) :
    (smGet {} (releaseKey now layer mb par x kind).dir i).valid = false := by
  unfold releaseKey
  split
  · exact free_keeps_freed _ h
  · exact h

theorem foldl_releaseKey_keeps_freed (kinds : List Nat) (h : (smGet {} x.dir i).valid = false) :
    (smGet {} (kinds.foldl (releaseKey now layer mb par) x).dir i).valid = false := by
  induction kinds generalizing x with
  | nil => exact h
  | cons a r ih => exact ih (releaseKey_keeps_freed a h)

/-- Releasing a key with a list of kinds frees the entry of each. -/
theorem foldl_releaseKey_frees {kind : Nat} {kinds : List Nat} (hm : kind ∈ kinds) (h : x.find layer mb kind par = some (i, k)) :
    (smGet {} (kinds.foldl (releaseKey now layer mb par) x).dir i).valid = false := by
  induction kinds generalizing x with
  | nil => cases hm
  | cons a r ih =>
    rw [List.foldl_cons]
    rcases List.mem_cons.mp hm with rfl | hm
    · exact foldl_releaseKey_keeps_freed r (releaseKey_frees h)
    · rcases find_releaseKey a h with h' | h'
      · exact ih hm h'
      · exact foldl_releaseKey_keeps_freed r h'

end

theorem caskKind_lt (d : Nat) : caskKind d < 2 := Nat.mod_lt _ (by decide)

theorem mem_releasedKinds {kind : Nat} (h : caskBit49 d = true ∧ kind < 2 ∨ kind = caskKind d) :
    kind ∈ (if caskBit49 d then [0, 1] else [caskKind d]) := by
  have := caskKind_lt d
  split
  · simp only [List.mem_cons, List.not_mem_nil, or_false]; omega
  · simp_all

/-! #### A stalled CASK.PUT that goes on or ends (R169, R170, R176) -/

section
variable {x : InFlight} {code : BitVec 16}

theorem endStall_stall : ((s.endStall t st x code).tile t).cask.stall st = none := by
  unfold State.endStall State.modSeq
  rw [modTile_same, modTile_same]
  cases st <;> exact stall_setStall ..

theorem endStall_seq : (s.endStall t st x code).seq t st = (s.seq t st).modFl x.seq (fun y => { y with wait := .none, status := code }) := by
  unfold State.endStall
  rw [modSeq_same, (streamsKept_modTile s t _).seqs]

end

/-- LAST changes of the tile a sequencer alone, whose outstanding instructions stay (R26). -/
theorem finishStream_own (s : State) (t : Nat) (st : Stream) :
    ((s.finishStream t st).tile t).cask = (s.tile t).cask ∧ ((s.finishStream t st).seq t st).inflight = (s.seq t st).inflight := by
  have hmod : ∀ (s : State) (f : Seq → Seq), (∀ q, (f q).inflight = q.inflight) →
      ((s.modSeq t st f).tile t).cask = (s.tile t).cask ∧ ((s.modSeq t st f).seq t st).inflight = (s.seq t st).inflight := by
    intro s f hf
    refine ⟨?_, by rw [modSeq_same, hf]⟩
    unfold State.modSeq; rw [modTile_same]; cases st <;> rfl
  have hstart : ∀ n b, ∀ q : Seq, (q.startStep n b).inflight = q.inflight := fun n b q => by unfold Seq.startStep; split <;> rfl
  have hlast := hmod s (fun q => { q with lastPassed := true, committed := true, run := false }) (fun _ => rfl)
  unfold State.finishStream
  dsimp only
  split
  · split
    · exact hlast
    · split
      · obtain ⟨h1, h2⟩ := hmod (s.modSeq t st (fun q => { q with lastPassed := true, committed := true, run := false })) _ (hstart _ _)
        exact ⟨h1.trans hlast.1, h2.trans hlast.2⟩
      · exact hlast
  · exact ⟨rfl, rfl⟩

section
variable {x : InFlight}

/-- An instruction that retires leaves its stream's list of those outstanding, and the cask as it was (R60). -/
theorem retire_own : ((s.retire t st x).tile t).cask = (s.tile t).cask ∧
    ((s.retire t st x).seq t st).inflight = (s.seq t st).inflight.filter (fun y => y.seq != x.seq || y.step != x.step) := by
  unfold State.retire
  dsimp only
  rw [(finishStream_own _ t st).1, (finishStream_own _ t st).2, writeRecord_seq, tile_congr writeRecord_tiles]
  unfold State.seq State.modSeq
  rw [modTile_same, modTile_same]
  cases st <;> exact ⟨rfl, rfl⟩

/-- A record's address and form depend on the ring of the stream alone. -/
theorem writeRecord_mem {used : Nat} : (s.writeRecord t st x used).mem = if x.rcd = true then
    memWriteList s.mem (recordKey t (s.seq t st) x.seq) (toBytes 32 (recordBits st (s.seq t st).crlog2 used x)) else s.mem := by
  unfold State.writeRecord
  split <;> rfl

/-- An instruction that retires writes its record (R80-R82). -/
theorem retire_recorded : Recorded s (s.retire t st x) t st x := fun a => by
  unfold State.retire
  dsimp only
  rw [(chg_finishStream (Chg.refl _) (Sub.self _) t st).mem (by decide), writeRecord_mem]
  unfold State.seq State.modSeq recordKey
  rw [modTile_same, modTile_same]
  cases st <;> rfl

end

/-- The vectors that an event raises leave the log. -/
theorem raiseVec1_evt (s : State) (e : Event) (l : List Nat) :
    (l.foldl (fun s f => if s.raisesVec1 f e then s.msix f 1 else s) s).evt = s.evt :=
  (chg_foldl (F := [.fns, .outbox]) (Chg.refl s) (fun _ f hb => chg_ite (chg_msix hb (Sub.self _) f 1) hb)).evt (by decide)

/-- An event is logged with its code and the next number (R422, R423). -/
theorem logTile_logged {code pc n x : Nat} {k : Option Nat} : Logged s (s.logTile code k t st pc n x) code := by
  unfold Logged State.logTile State.logEvent
  rw [raiseVec1_evt]
  exact ⟨_, rfl, rfl, rfl, rfl⟩

/-- A cause that was inserted is in the list. -/
theorem mem_insertCause (l : List Cause) (x : Cause) : x ∈ insertCause l x := by
  induction l with
  | nil => exact List.mem_singleton.mpr rfl
  | cons y r ih =>
    unfold insertCause
    split
    · exact List.mem_cons_self ..
    · exact List.mem_cons_of_mem _ ih

/-- A request for an abort of a step in flight is noted with its code and its retry (R35, R88). -/
theorem requestAbort_cause {code n place : Nat} {retry : Bool} (h : (s.ctx c).step.flight.contains n = true) :
    ⟨BitVec.ofNat 16 code, some n, s.beat.now, place, retry⟩ ∈ ((s.requestAbort c code (some n) place retry).ctx c).step.causes := by
  unfold State.requestAbort
  simp only [h, if_true, modStep_same]
  exact mem_insertCause _ _

/-- A stalled PUT that has ended, as its record shows it (R169). -/
def fullEntry (x : InFlight) : InFlight := { x with wait := .none, status := 0x4003 }

/-- The state in which a stalled PUT has completed without writing, with its record (R169). -/
def fullEnded (s : State) (t : Nat) (st : Stream) (x : InFlight) : State := (s.endStall t st x 0x4003).retire t st (fullEntry x)

/-- That state with the event logged. -/
def fullLogged (s : State) (t c : Nat) (st : Stream) (x : InFlight) : State :=
  (fullEnded s t st x).logTile 0x4003 (some c) t st x.pc x.seq (caskLayer x.desc + 2 ^ 16 * caskMb x.desc)

/-- That state with the step's abort asked for. -/
def fullAborted (s : State) (t c : Nat) (st : Stream) (x : InFlight) : State :=
  (fullLogged s t c st x).requestAbort c 0x4003 (some x.step) (placeOf t st) false

section
variable {x : InFlight}

theorem fullEnded_chg : Chg [.old, .tiles, .mem, .poison] s (fullEnded s t st x) :=
  chg_retire (chg_endStall (Chg.refl s) (by unfold Sub; decide) ..) (Sub.self _) ..

theorem fullEnded_own : ((fullEnded s t st x).tile t).cask.stall st = none ∧
    ∀ z ∈ ((fullEnded s t st x).seq t st).inflight, ¬ (z.seq = x.seq ∧ z.step = x.step) := by
  obtain ⟨hcask, hflight⟩ := retire_own (s := s.endStall t st x 0x4003) (t := t) (st := st) (x := fullEntry x)
  refine ⟨(congrArg (·.stall st) hcask).trans endStall_stall, fun z hz => ?_⟩
  rw [fullEnded, hflight] at hz
  have := (List.mem_filter.mp hz).2
  simp only [fullEntry, Bool.or_eq_true, bne_iff_ne, ne_eq] at this
  omega

theorem fullEnded_recorded : Recorded s (fullEnded s t st x) t st (fullEntry x) := fun a => by
  have h := retire_recorded (s := s.endStall t st x 0x4003) (t := t) (st := st) (x := fullEntry x) a
  rw [endStall_seq] at h
  exact h

theorem fullLogged_chg : Chg [.fns, .evt, .outbox] (fullEnded s t st x) (fullLogged s t c st x) := chg_logTile (Chg.refl _) (Sub.self _) ..

theorem fullAborted_chg : Chg [.ctxs] (fullLogged s t c st x) (fullAborted s t c st x) := chg_requestAbort (Chg.refl _) (Sub.self _) ..

theorem fullAborted_tiles : (fullAborted s t c st x).tiles = (fullEnded s t st x).tiles :=
  (fullAborted_chg.tiles (by decide)).trans (fullLogged_chg.tiles (by decide))

theorem fullAborted_recorded : Recorded s (fullAborted s t c st x) t st (fullEntry x) := fun a => by
  rw [fullAborted_chg.mem (by decide), fullLogged_chg.mem (by decide)]
  exact fullEnded_recorded a

theorem fullAborted_logged : Logged s (fullAborted s t c st x) 0x4003 := by
  have h : Logged (fullEnded s t st x) (fullLogged s t c st x) 0x4003 := logTile_logged
  unfold Logged at h ⊢
  rw [fullEnded_chg.evt (by decide)] at h
  rw [fullAborted_chg.evt (by decide)]
  exact h

theorem fullAborted_cause (h : (s.ctx c).step.flight.contains x.step = true) :
    ∃ q ∈ ((fullAborted s t c st x).ctx c).step.causes, q.code = 0x4003 ∧ q.step = some x.step ∧ q.retry = false := by
  have hctx : (fullLogged s t c st x).ctx c = s.ctx c := by
    unfold State.ctx
    rw [fullLogged_chg.ctxs (by decide), fullEnded_chg.ctxs (by decide)]
  rw [← hctx] at h
  unfold fullAborted
  have hcause := requestAbort_cause (code := 0x4003) (place := placeOf t st) (retry := false) h
  exact ⟨_, hcause, rfl, rfl, rfl⟩

end

section
variable {t : TileId} {x : InFlight} (hlive : s.live = true) (hc : s.tileCtx t.val = some c)
  (hx : (s.seq t.val st).inflight.find? (fun y => y.wait == .cask) = some x)
include hlive hc hx

theorem exec_caskFull_ends (hclk : x.clk < s.beat.tickClk) (habort : s.abortDue c x.step = false) :
    exec (.caskFull t st) s = .next (fullAborted s t.val c st x) := by
  show Host.Outcome.next (whenLive s _) = _
  rw [whenLive_live hlive]
  have hx' : s.stalledPut t.val st = some x := hx
  have h : ¬ (s.beat.tickClk ≤ x.clk ∨ s.abortDue c x.step = true) := by simp [habort, hclk]
  unfold doCaskFull
  simp only [hx', hc, if_neg h]
  rfl

theorem exec_caskFull_none (h : s.beat.tickClk ≤ x.clk ∨ s.abortDue c x.step = true) : exec (.caskFull t st) s = .next s := by
  show Host.Outcome.next (whenLive s _) = _
  rw [whenLive_live hlive]
  have hx' : s.stalledPut t.val st = some x := hx
  unfold doCaskFull
  simp only [hx', hc, if_pos h]

theorem exec_caskPutRetry_none (h : s.beat.now ≤ (s.tile t.val).cask.freedClk ∨ (s.tile t.val).cask.freedClk < x.clk ∨ x.clk < s.beat.tickClk) :
    exec (.caskPutRetry t st) s = .next s := by
  show Host.Outcome.next (whenLive s _) = _
  rw [whenLive_live hlive]
  have hx' : s.stalledPut t.val st = some x := hx
  unfold doCaskPutRetry
  simp only [hx', hc]
  rw [if_neg (by omega)]

theorem exec_caskPutRetry_tries (h1 : x.clk ≤ (s.tile t.val).cask.freedClk) (h2 : (s.tile t.val).cask.freedClk < s.beat.now)
    (h3 : s.beat.tickClk ≤ x.clk) (h4 : s.caskLate t.val st = false) :
    let r := s.asBefore.caskPlace t.val c st x.desc (x.step % 2)
    exec (.caskPutRetry t st) s = .next (if r.2 then (s.afterAll r.1 0).endStall t.val st x 0 else s.afterAll r.1 0) := by
  show Host.Outcome.next (whenLive s _) = _
  rw [whenLive_live hlive]
  have hx' : s.stalledPut t.val st = some x := hx
  unfold doCaskPutRetry
  simp only [hx', hc]
  rw [if_pos ⟨h1, h2, h3, by rw [h4]; rfl⟩]

end

/-! #### The rows -/

theorem put_rows {t : TileId} (h : CanIssue s t.val st opCaskPut w (s.caskPre t.val) c)
    (hd : (s.atWork t.val st).readDesc t.val w (s.seq t.val st).loops 7 [0] = .ok (o, d)) (hb : caskBody 0 d = none)
    (hr : (s.atWork t.val st).caskReach t.val d = none)
    (hf : (s.atWork t.val st).putFault t.val c d ((s.seq t.val st).stepNo % 2) = none) (hl : s.caskLate t.val st = false) :
    let n := (s.seq t.val st).stepNo % 2
    let k := (s.tile t.val).cask
    let r := (s.atWork t.val st).caskPlace t.val c st d n
    (∃ u, exec (.caskPut t st w) s = .next u ∧ (u.tile t.val).cask.dir = (r.1.tile t.val).cask.dir ∧ u.poison = r.1.poison ∧
      (s.Sound → Landed s u r.1.mem) ∧
      (r.2 = true → Admitted s u t.val st (s.descEntry t.val st w o d)) ∧
      (r.2 = false → Admitted s u t.val st { s.descEntry t.val st w o d with wait := .cask } ∧
        (u.tile t.val).cask.stall st = some (s.seq t.val st).seqNo)) ∧
    (∀ i l, k.freeSlot s.beat.now = some i → caskMin d = 0 → 0 < (k.room 0).2 → k.fit s.beat.now 0 (caskUnits (caskSize d)) = some l →
      ∃ u, exec (.caskPut t st w) s = .next u ∧ Admitted s u t.val st (s.descEntry t.val st w o d) ∧
        let e := smGet {} (u.tile t.val).cask.dir i
        e.valid = true ∧ e.dropped = false ∧ e.tier = 0 ∧ e.loc = l ∧ e.layer = caskLayer d ∧ e.mb = caskMb d ∧ e.kind = caskKind d ∧
        e.par = n ∧ e.size = caskSize d) := by
  intro n k
  have hexec := exec_caskPut h hd hb hr hf hl
  have hkept : StreamsKept (s.atWork t.val st) ((s.atWork t.val st).caskPlace t.val c st d n).1 t.val := caskPlace_streamsKept
  have hwf : s.Sound → Memory.wf ((s.atWork t.val st).caskPlace t.val c st d n).1.mem = true := fun hs => caskPlace_wf (atWork_sound hs)
  have harena := fun i l => caskPlace_arena (s := s) (t := t.val) (st := st) (c := c) (d := d) (par := n) (i := i) (l := l)
  generalize (s.atWork t.val st).caskPlace t.val c st d n = r at hexec hkept hwf harena ⊢
  obtain ⟨hmem, hpoison, hdir⟩ := putRan_same (t := t.val) (st := st) (x := s.descEntry t.val st w o d) (r := r)
  refine ⟨⟨_, hexec, ?_, hpoison, fun hs => ?_, admitted_putRan_placed hkept, admitted_putRan_stalled hkept⟩,
    fun i l hi hmin hroom hfit => ?_⟩
  · rw [afterIssue_cask, hdir]
  · exact hmem ▸ landed_afterIssue hs (hmem ▸ hwf hs)
  · obtain ⟨hplaced, hslot⟩ := harena i l hi hmin hroom hfit
    refine ⟨_, hexec, admitted_putRan_placed hkept hplaced, ?_⟩
    rw [afterIssue_cask, hdir, hslot]
    exact ⟨rfl, rfl, rfl, rfl, rfl, rfl, rfl, rfl, rfl⟩

theorem get_rows {t : TileId} {i : Nat} {k : CaskSlot} (h : CanIssue s t.val st opCaskGet w (s.caskPre t.val) c)
    (hd : (s.atWork t.val st).readDesc t.val w (s.seq t.val st).loops 7 [1] = .ok (o, d)) (hb : caskBody 1 d = none)
    (hr : (s.atWork t.val st).caskReach t.val d = none)
    (hk : (s.tile t.val).cask.find (caskLayer d) (caskMb d) (caskKind d) ((s.seq t.val st).stepNo % 2) = some (i, k))
    (hsize : k.size = caskSize d) :
    (k.dropped = true → (s.seq t.val st).calls.length < 8 →
      ∃ u, exec (.caskGet t st w) s = .next u ∧ (u.seq t.val st).pc = k.rpc ∧
        (u.seq t.val st).calls =
          (closeLoops (s.seq t.val st).pc ((s.seq t.val st).pc + 1) (s.seq t.val st).loops).1 :: (s.seq t.val st).calls ∧
        (caskBit49 d = true → (smGet {} (u.tile t.val).cask.dir i).valid = false) ∧
        (caskBit49 d = false → (u.tile t.val).cask = (s.tile t.val).cask ∧ SameMem s u)) ∧
    (k.dropped = false →
      ∃ u, exec (.caskGet t st w) s = .next u ∧
        let r := (s.atWork t.val st).caskLoad t.val c st (s.descEntry t.val st w o d) k
        Admitted s u t.val st r.2 ∧ EngineKept s u t.val ∧ u.poison = r.1.poison ∧ (s.Sound → Landed s u r.1.mem)) := by
  constructor
  · intro hdrop hcalls
    obtain ⟨hpc, hpush⟩ := afterIssue_branch (w := w) (droppedRan_streamsKept (s := s) (t := t.val) (st := st) (w := w) (o := o) (d := d)
      (i := i) (k := k)) rfl
    refine ⟨_, exec_caskGet_dropped h hd hb hr hk hsize hdrop hcalls, hpc, hpush, fun hrel => ?_, fun hrel => ⟨?_, ?_⟩⟩
    · rw [afterIssue_cask, droppedRan]
      simp only [hrel, if_true, setCask_cask]
      exact congrArg CaskSlot.valid (free_slot ..)
    · rw [afterIssue_cask, droppedRan]
      simp only [hrel, Bool.false_eq_true, if_false, atWork_cask]
    · refine afterIssue_mem ?_
      rw [droppedRan]
      simp only [hrel, Bool.false_eq_true, if_false]
      rfl
  · intro hdrop
    have htiles := caskLoad_tiles (s.atWork t.val st) t.val c st (s.descEntry t.val st w o d) k
    exact ⟨_, exec_caskGet_resident h hd hb hr hk hsize hdrop, admitted_of_streamsKept (streamsKept_of_tiles htiles t.val) rfl,
      engineKept_afterIssue (tile_congr htiles t.val), rfl,
      fun hs => landed_afterIssue hs (keeps_caskLoad (keeps_of_sound (atWork_sound hs)) ..).mem⟩

theorem release_row {t : TileId} (h : CanIssue s t.val st opCaskRelease w (s.caskPre t.val) c)
    (hd : (s.atWork t.val st).readDesc t.val w (s.seq t.val st).loops 7 [2] = .ok (o, d)) (hb : caskBody 2 d = none) :
    ∃ u, exec (.caskRelease t st w) s = .next u ∧ Admitted s u t.val st (s.descEntry t.val st w o d) ∧
      (∀ kind i k, (s.tile t.val).cask.find (caskLayer d) (caskMb d) kind ((s.seq t.val st).stepNo % 2) = some (i, k) →
        caskBit49 d = true ∧ kind < 2 ∨ kind = caskKind d → (smGet {} (u.tile t.val).cask.dir i).valid = false) := by
  refine ⟨_, exec_caskRelease h hd hb, admitted_of_streamsKept (setCask_streamsKept ..) rfl, fun kind i k hfind hkind => ?_⟩
  rw [afterIssue_cask, releaseRan, setCask_cask]
  exact foldl_releaseKey_frees (mem_releasedKinds hkind) hfind

section
variable {t : TileId} {x : InFlight} (hlive : s.live = true) (hc : s.tileCtx t.val = some c)
  (hx : (s.seq t.val st).inflight.find? (fun y => y.wait == .cask) = some x)
include hlive hc hx

theorem putRetry_row (h1 : x.clk ≤ (s.tile t.val).cask.freedClk) (h2 : (s.tile t.val).cask.freedClk < s.beat.now)
    (h3 : s.beat.tickClk ≤ x.clk) (h4 : s.caskLate t.val st = false) :
    let r := s.asBefore.caskPlace t.val c st x.desc (x.step % 2)
    ∃ u, exec (.caskPutRetry t st) s = .next u ∧ (s.Sound → Landed s u r.1.mem) ∧ u.poison = r.1.poison ∧
      (r.2 = true → (u.tile t.val).cask.stall st = none ∧
        (u.seq t.val st).inflight = (s.seq t.val st).inflight.map (fun y => if y.seq = x.seq then { y with wait := .none, status := 0 } else y)) ∧
      (r.2 = false → (u.seq t.val st).inflight = (s.seq t.val st).inflight ∧ (u.tile t.val).cask = (r.1.tile t.val).cask) := by
  have hseq : (s.asBefore.caskPlace t.val c st x.desc (x.step % 2)).1.seq t.val st = s.seq t.val st := caskPlace_streamsKept.seqs st
  have hwf : s.Sound → Memory.wf (s.asBefore.caskPlace t.val c st x.desc (x.step % 2)).1.mem = true := fun hs => caskPlace_wf (asBefore_sound hs)
  have hexec := exec_caskPutRetry_tries hlive hc hx h1 h2 h3 h4
  generalize s.asBefore.caskPlace t.val c st x.desc (x.step % 2) = r at hseq hwf hexec ⊢
  have hland : s.Sound → Landed s (s.afterAll r.1 0) r.1.mem := fun hs => landed_afterAll hs (hwf hs) 0
  cases hr : r.2
  · simp only [hr, Bool.false_eq_true, if_false] at hexec
    exact ⟨_, hexec, hland, rfl, fun h => absurd (hr.symm.trans h) (by decide), fun _ => ⟨congrArg Seq.inflight hseq, rfl⟩⟩
  · simp only [hr, if_true] at hexec
    refine ⟨_, hexec, hland, rfl, fun _ => ⟨endStall_stall, ?_⟩, fun h => absurd (hr.symm.trans h) (by decide)⟩
    rw [endStall_seq, afterAll_seq, hseq]
    rfl

theorem full_row (hclk : x.clk < s.beat.tickClk) (habort : s.abortDue c x.step = false) :
    ∃ u, exec (.caskFull t st) s = .next u ∧ (u.tile t.val).cask.stall st = none ∧
      (∀ z ∈ (u.seq t.val st).inflight, ¬ (z.seq = x.seq ∧ z.step = x.step)) ∧
      Recorded s u t.val st { x with wait := .none, status := 0x4003 } ∧ Logged s u 0x4003 ∧
      ((s.ctx c).step.flight.contains x.step = true →
        ∃ q ∈ (u.ctx c).step.causes, q.code = 0x4003 ∧ q.step = some x.step ∧ q.retry = false) := by
  obtain ⟨hstall, hgone⟩ := fullEnded_own (s := s) (t := t.val) (st := st) (x := x)
  refine ⟨_, exec_caskFull_ends hlive hc hx hclk habort, ?_, ?_, fullAborted_recorded, fullAborted_logged, fullAborted_cause⟩
  · rw [tile_congr fullAborted_tiles]; exact hstall
  · rw [seq_congr fullAborted_tiles]; exact hgone

end

/-- Settles O18: row by row, from what each row's work leaves of the tile. -/
theorem caskRows : Obligations.CaskRows :=
  ⟨fun _ _ _ _ _ _ _ h hd hb hr hf hl => put_rows h hd hb hr hf hl, fun _ _ _ _ _ _ _ _ _ h hd hb hr hk hsize => get_rows h hd hb hr hk hsize,
   fun _ _ _ _ _ _ _ h hd hb => release_row h hd hb,
   fun _ _ _ _ _ hlive hc hx => ⟨putRetry_row hlive hc hx, exec_caskPutRetry_none hlive hc hx, full_row hlive hc hx,
     exec_caskFull_none hlive hc hx⟩⟩

end Sys2Proof.Machine.CaskRows
end
